-- ==== Sys2Proof/Word.lean ====
section
/-! DEFINITION. The word types of the KX1640: the 32-bit control and register word, the byte, the 64-bit device-time
and DRAM-address word, and a list of bytes. Nothing here computes; arithmetic lives in Sys2Proof/Machine/Arith.lean. -/
namespace Sys2Proof

/-- A 32-bit word: a control word (R533), a general register of a core (R74), a queue entry (R100). -/
abbrev Word := BitVec 32

/-- A byte of a bank, of DRAM, of an image or of a datagram. -/
abbrev Byte := BitVec 8

/-- A 64-bit word: device time (R171), a DRAM address (R77), a register pair (R114), a feature map (R152). -/
abbrev DWord := BitVec 64

/-- A run of bytes, first byte first. -/
abbrev Bytes := List Byte

end Sys2Proof
end

