-- ==== Sys2Proof/Syntax.lean ====
section
/-! DEFINITION. The commands of the KX1640 as plain data: one constructor of Instr for each row of
spec/opcode_table.json, in the table's order, with the operands the spec's text gives that step. The table gives no
operand and no bit: what each command carries is read from the rule its row names. A row that is a write of a control
word carries the core that writes (R12: only programs on the eight cores write control words) and the value written.
A row that is an event of the outside world carries what the outside world decides: a level, a measured value, a
received frame. -/
namespace Sys2Proof

/-- A core SQ0–SQ7 (Table 0.5). -/
abbrev CoreId := Fin 8
/-- A general register G0–G15 (Table 4.1). -/
abbrev Reg := Fin 16
/-- A time register T0–T3 (Table 4.1). -/
abbrev TReg := Fin 4
/-- A bank B00–B31 (R253). -/
abbrev BankId := Fin 32
/-- An axis A0–A3 (Table 1.2). -/
abbrev AxisId := Fin 4
/-- A node of the Holros ring (R200). -/
abbrev NodeId := Fin 16

/-- An edge die (Table 1.1). -/
inductive Die where | west | east
  deriving DecidableEq, Repr

/-- The eleven rails judged in MODE_RAIL_STATUS, in the order of its bits (Table 3.10). -/
inductive Rail where
  | vaon | vcore | vddq0 | vddq1 | vser | vserh | vio | vedgeW | vdrvW | vedgeE | vdrvE
  deriving DecidableEq, Repr

/-- What an edge die reports before EDGE_DIE_LOST (Table 1.4, Table 23.7 DATA 1, 2 and 4). -/
inductive EdgeReport where | vedge | vdrv | selfProtect
  deriving DecidableEq, Repr

/-- The reply status codes (Table 2.2). -/
inductive Status where | ok | poison | resetAbort | refused
  deriving DecidableEq, Repr

/-- A static wiring check of Admission that failed (Table 3.9, DATA of 0xE004 in Table 23.7). -/
inductive WiringCheck where | sensor | ledString | gatePin | brakeCoil | encoder
  deriving DecidableEq, Repr

/-- A KNP datagram as received on a port (Table 6.1): every header field as it came, the payload and the tag. -/
structure Datagram where
  port    : Bool        -- false NA, true NB
  dport   : BitVec 16   -- the UDP destination port (R143)
  magic   : BitVec 16
  version : Byte
  type    : Byte
  session : BitVec 16
  flags   : BitVec 16
  seq     : Word
  length  : BitVec 16
  frag    : BitVec 16
  payload : Bytes
  tag     : Bytes
  deriving DecidableEq, Repr

/-- What a received Ethernet frame is to the switch and to the device (R173, R176, R182). -/
inductive FrameClass where | ptp | knp | discovery | stream | other
  deriving DecidableEq, Repr

/-- A received Ethernet frame: addresses, the 802.1Q tag if any, its class, its length in bytes, whether its FCS holds, and the correction
field of a PTP event message in ns (R174). -/
structure EthFrame where
  dst   : BitVec 48
  src   : BitVec 48
  vlan  : Option (BitVec 12 × BitVec 3)   -- VLAN and PCP
  cls   : FrameClass
  len   : Nat
  fcsOk : Bool
  corr  : Int
  deriving DecidableEq, Repr

/-- An IP address of a stream: a group joined by IGMPv3 or by MLDv2, or a source (R179). -/
inductive IpAddr where
  | v4 (a : Word)
  | v6 (a : BitVec 128)
  deriving DecidableEq, Repr

/-- One packet of an ST 2110-20 stream (R179, R268, R270): the port it came by, its group, source and UDP port, and whole 16-pixel blocks
of the source frame. `blocks` names each block by its source line and block index and gives its component values in the
order of Table 11.3. -/
structure VideoPacket where
  port    : Fin 2
  group   : IpAddr
  source  : IpAddr
  dport   : BitVec 16
  seq     : BitVec 16
  rtpTime : Word
  is444   : Bool
  is10    : Bool
  first   : Bool      -- first packet of a frame
  marker  : Bool      -- last packet of a frame
  blocks  : List (Nat × Nat × List Nat)
  deriving DecidableEq, Repr

/-- E1.31 data for one universe (R180). -/
structure E131Packet where
  univ     : BitVec 16
  source   : Nat
  priority : Byte
  sync     : BitVec 16      -- 0: no synchronisation address
  slots    : Bytes          -- slot 1 first
  deriving DecidableEq, Repr

/-- One entry of the emergency field (Table 8.3), CRC judged. -/
structure EmergEntry where
  valid  : Bool
  cat    : BitVec 2
  seq    : Byte
  object : BitVec 16
  reason : BitVec 16
  crcOk  : Bool
  deriving DecidableEq, Repr

/-- One group entry of a node slot (Table 17.1). -/
structure GroupEntry where
  valid  : Bool
  member : Fin 8
  group  : Fin 16
  flags  : Byte
  pos    : Int
  iq     : Int
  vcmd   : Int
  stop   : BitVec 2
  seq    : Byte
  deriving DecidableEq, Repr

/-- A node slot (R195, R196, R200): present when its node wrote it and its CRC holds. It carries two group entries, or
the node's budget (axes, LED channels, active pixels) while the node publishes it. -/
structure NodeSlot where
  present : Bool
  entryA  : GroupEntry
  entryB  : GroupEntry
  budget  : Option (Nat × Nat × Nat)
  deriving DecidableEq, Repr

/-- A frame of the cycle (R195): its sync frame (Table 8.2), CRC judged, its emergency field and its node slots by node. `folded`: it
has been turned back at the end of a chain (R202); that is no byte of the frame, a receiver sees it from the direction. -/
structure SyncFrame where
  type       : Byte
  flags      : Byte
  cycle      : Word
  masterTime : DWord
  masterId   : DWord
  resetMask  : BitVec 16
  hops       : Byte
  nodes      : Byte
  accum      : BitVec 16
  crcOk      : Bool
  folded     : Bool
  emerg      : List EmergEntry
  slots      : List NodeSlot
  deriving DecidableEq, Repr

/-- A bulk packet (R197): header fields and payload, CRC judged. -/
structure BulkPacket where
  dest    : Byte
  src     : Byte
  prio    : Fin 8
  type    : Byte
  seq     : BitVec 16
  payload : Bytes
  crcOk   : Bool
  deriving DecidableEq, Repr

/-- What comes or goes by a port of the Holros block (R202, R204). -/
structure OnPort (α : Type) where
  port : Fin 2
  it   : α
  deriving DecidableEq, Repr

/-- The score of a cycle on a port: a frame received, or sent, in error (R204). -/
structure CycleScore where
  rxBad : Bool
  txBad : Bool
  deriving DecidableEq, Repr

/-- A measured offset from the master, in ns: by peer delay, or by the end-to-end mechanism (R176). -/
structure SyncOffset where
  peer : Bool
  ns   : Int
  deriving DecidableEq, Repr

/-- A video slice (Table 8.5): its header, and its coded pixels in the coding of the frame store. -/
structure Slice where
  frame   : Word
  present : DWord
  line    : Nat
  lines   : Nat
  column  : Nat
  width   : Nat
  coder   : Byte
  is444   : Bool
  is10    : Bool
  data    : Bytes
  deriving DecidableEq, Repr

/-- What the ECC decoder finds on a read (R228): clean, one correctable bit with its syndrome, or uncorrectable. -/
inductive Ecc where
  | clean
  | single (syndrome : Byte)
  | double (syndrome : Byte)
  deriving DecidableEq, Repr

/-- A request to the DRAM (R222): the oldest waiting far access of a core, an engine's own request through its port, or the oldest
request that waits behind a port, of those that the panel engine makes by itself. -/
inductive DramSource where
  | farOf (c : CoreId)
  | engineRead (port : Fin 12) (addr : DWord) (len : Nat)
  | engineWrite (port : Fin 12) (addr : DWord) (data : Bytes)
  | waiting (port : Fin 12)
  deriving DecidableEq, Repr

/-- A protection source of Table 16.3, named as it sits on a die. -/
inductive TripSource where
  | desat (die : Die) (ch : Fin 12)
  | isoFault (die : Die) (ch : Fin 12)
  | overcurrent (die : Die) (axis : Fin 2) (phase : Fin 3)
  | busOv (die : Die)
  | busUv (die : Die)
  | trip (n : Fin 4)
  | stoA
  | stoB
  | shoot (die : Die) (axis : Fin 2)
  deriving DecidableEq, Repr

/-- What the pin of a protection source shows (R414): its voltage in mV, or its logic level, and for how many ns without a break. The
interlock has no pin: its source stands for the event itself. -/
structure TripReading where
  src  : TripSource
  mV   : Int
  high : Bool
  ns   : Nat
  deriving DecidableEq, Repr

/-- The phase of a half-bridge at the latch moment (R420). -/
inductive BridgePhase where | bothOff | highOn | lowOn | deadTime | noBridge
  deriving DecidableEq, Repr

/-- One axis's compare group (R410): the three compare values and the three phase modes. -/
structure CompareGroup where
  ca : BitVec 19
  cb : BitVec 19
  cc : BitVec 19
  ma : BitVec 2
  mb : BitVec 2
  mc : BitVec 2
  deriving DecidableEq, Repr

/-- Who raised a category 1 or 2 stop demand (R66, R437, R439): a unit's fault on an axis, or a received entry. -/
structure StopCause where
  fault : BitVec 16
  axis  : Option AxisId
  deriving DecidableEq, Repr

/-- What a test engineer asks of the JTAG core debug (Table 6.7). -/
inductive DebugOp where
  | halt
  | single
  | readReg (r : Reg)
  | writeReg (r : Reg) (v : Word)
  | readPc
  | writePc (v : Word)
  | readF
  | writeF (v : Word)
  | readTime (n : TReg)
  | writeTime (n : TReg) (v : DWord)
  | readBank (addr : BitVec 22)
  | writeBank (addr : BitVec 22) (v : Byte)
  deriving DecidableEq, Repr

/-- What the measurement of one alignment row gave (Table 15.2). -/
structure AlignMeasure where
  ia       : Int       -- phase current a, Q1.31
  ib       : Int
  ic       : Int
  volts    : Int       -- |v| applied, Q1.31
  coil     : Nat       -- brake coil current, 10 mA units
  deriving DecidableEq, Repr

/-- What a target device on the two-wire bus, or the bus itself, did to a controller transfer (R480, R481, R487), with the
count of bytes acknowledged where the transfer ended early. -/
inductive TwOutcome where
  | ok (read : Bytes) (pecOk : Bool)
  | nackAddr (again : Bool)                        -- again: the address byte after the repeated START
  | nackData (count : Nat)
  | arbLost (addressed : Bool) (count : Nat)       -- addressed: the winner addresses this very unit (R487)
  | arbLostStop (count : Nat)
  deriving DecidableEq, Repr

/-- The samples of one polder channel in a 100 ms block (R454, R455): the codes of the voltage and the current converter,
pair by pair, before clipping. -/
abbrev PolderSamples := List (Int × Int)

/-- The commands of the device: one constructor for each row of the table of operations and events, in its order. -/
inductive Instr where
  /-- `CONTROL_WRITE` (R543). A control-space write to a word with no row of its own is judged as a whole and accepted
  or refused, field by field per Table 0.4. -/
  | controlWrite (c : CoreId) (addr : BitVec 16) (val : Word)
  /-- `VPOL_PRESENT` (R52). VPOL comes up while VAON or VCORE is absent and the device enters Dormant with the polder
  metering. -/
  | vpolPresent
  /-- `RAIL_LEAVES_WINDOW` (R55). A rail other than VPOL leaves its in-range window and the edge dies concerned make
  their power stage safe within 1 µs. -/
  | railLeavesWindow (r : Rail)
  /-- `RAIL_OUT_OF_RANGE` (R501). A rail out of its window for 10 µs raises RAIL_OUT_OF_RANGE and holds the core die
  in reset. -/
  | railOutOfRange (r : Rail)
  /-- `RAIL_IN_RANGE` (R54). A rail enters its window and its MODE_RAIL_STATUS bit reads 1. -/
  | railInRange (r : Rail)
  /-- `POWER_ON_RESET_END` (R54). The internal power-on reset ends 2 ms after the last core-die rail is in range. -/
  | powerOnResetEnd
  /-- `RESET_RELEASE` (R58). Reset is released, the straps are latched and the device enters Boot. -/
  | resetRelease (boot : Fin 4) (mstr : Bool)
  /-- `RESET_N_ASSERT` (R57). RESET_N is asserted and the gates are off within 250 ns through the hardware path. -/
  | resetNAssert
  /-- `VAON_LOST` (R52). VAON is lost: device time is lost and the device drops to Dormant. -/
  | vaonLost
  /-- `EDGE_DIE_HANDSHAKE_TIMEOUT` (R21). An edge die in contact gives no handshake response for 10 µs and
  EDGE_DIE_LOST is raised. -/
  | edgeDieHandshakeTimeout (d : Die)
  /-- `EDGE_DIE_REPORT` (R21). An edge die reports loss of VEDGE or VDRV or self-protection, and EDGE_DIE_LOST is
  raised within 2 µs. -/
  | edgeDieReport (d : Die) (why : EdgeReport)
  /-- `EDGE_CORE_SILENCE` (R55). An edge die receives no handshake from the core die for 10 µs and latches its safe
  state. -/
  | edgeCoreSilence (d : Die)
  /-- `EDGE_LED_HOLD_EXPIRY` (R55). 10 ms after an edge die protected itself its LED sinks turn off. -/
  | edgeLedHoldExpiry (d : Die)
  /-- `POLDER_CHANNEL_SILENT` (R21). On KX1640-M no polder result frame arrives for 100 ms and the window words are
  marked stale. -/
  | polderChannelSilent
  /-- `FABRIC_SPEED_UPDATE` (R24). Every 1 ms FABRIC_SPEED is updated from the replica path. -/
  | fabricSpeedUpdate (hsTime : BitVec 16)
  /-- `DOMAIN_CLOCK_LOST` (R546). An armed clock-presence detector sees no edge for 4 µs and the consequence of Table
  2.10 follows. -/
  | domainClockLost (d : Fin 25)
  /-- `DOMAIN_CLOCK_RETURN` (R546). A lost domain clock returns and the units resume as Table 2.10 states. -/
  | domainClockReturn (d : Fin 25)
  /-- `BLOCK_RESET` (R37). FABRIC_BLOCK_CMD ACTION 0b01 resets a block by the sequence of Table 2.5. -/
  | blockReset (c : CoreId) (block : Fin 32)
  /-- `BLOCK_POWER_DOWN` (R37). FABRIC_BLOCK_CMD ACTION 0b10 powers a block down by the sequence of Table 2.5. -/
  | blockPowerDown (c : CoreId) (block : Fin 32)
  /-- `BLOCK_POWER_UP` (R38). FABRIC_BLOCK_CMD ACTION 0b11 readmits a block that is out under R40. -/
  | blockPowerUp (c : CoreId) (block : Fin 32)
  /-- `BLOCK_NO_ACTION` (R38). FABRIC_BLOCK_CMD ACTION 0b00 has no effect. -/
  | blockNoAction (c : CoreId) (block : Fin 32)
  /-- `BLOCK_READMIT` (R40). A block presents its feature word on readmission and is admitted or stays out with
  READMIT_REFUSED. -/
  | blockReadmit (block : Fin 25) (feature : DWord)
  /-- `FABRIC_STALL` (R47). A request has been in flight longer than FABRIC_STALL_LIMIT and FABRIC_STALL is reported. -/
  | fabricStall (requester : Fin 25) (target : Fin 25) (ageUs : Nat)
  /-- `PEAK_CLEAR` (R48). FABRIC_CONTROL.PEAK_CLEAR sets PEAK to NOW. -/
  | peakClear (c : CoreId)
  /-- `PROBE_SELECT` (R48). A write to FABRIC_PROBE_SEL selects the probed queue and clears both probe counts. -/
  | probeSelect (c : CoreId) (queue : Byte)
  /-- `REQUEST_RUN` (R52). MODE_REQUEST TARGET 4 asks the arbiter to pass from Hold to Run or Degraded. -/
  | requestRun (c : CoreId)
  /-- `REQUEST_HOLD` (R52). MODE_REQUEST TARGET 5 asks for Hold, or a category 1 stop if an axis moves. -/
  | requestHold (c : CoreId)
  /-- `REQUEST_QUIET` (R52). MODE_REQUEST TARGET 6 asks for Quiet while the panel source sleeps. -/
  | requestQuiet (c : CoreId)
  /-- `REQUEST_STANDBY` (R52). MODE_REQUEST TARGET 1 asks for Standby from Hold or Quiet. -/
  | requestStandby (c : CoreId)
  /-- `REQUEST_TRIP` (R52). MODE_REQUEST TARGET 9 is a category 0 demand. -/
  | requestTrip (c : CoreId)
  /-- `REQUEST_MAINTENANCE` (R52). MODE_REQUEST TARGET 10 asks for Maintenance while Open or reopened. -/
  | requestMaintenance (c : CoreId)
  /-- `BOOT_SLOT_READ` (R62). The boot ROM finishes reading a quad-SPI slot and judges its header and signature. -/
  | bootSlotRead (secondary : Bool)
  /-- `WIRING_CHECKS_DONE` (R64). The static wiring checks of Admission complete and failed units are disabled. -/
  | wiringChecksDone (failed : List (WiringCheck × Fin 64))
  /-- `FEATURE_CHECK` (R64). Every block is checked against REQ_FEATURES and the entry cores are started. -/
  | featureCheck (words : List DWord)
  /-- `ENTRY_READY` (R64). An entry program reports ready; with the last one Admission completes into Hold or Trip. -/
  | entryReady (c : CoreId)
  /-- `ADMIT_TIMEOUT` (R65). MODE_ADMIT_LIMIT passes without every entry program ready and the device stays in
  Admission. -/
  | admitTimeout
  /-- `WAKE_BALL` (R63). WAKE has been high for 1 ms in Standby with the wake enabled and the device boots warm. -/
  | wakeBall
  /-- `STANDBY_ALARM` (R63). The standby alarm expires MODE_ALARM ms after Standby entry and wakes the device. -/
  | standbyAlarm
  /-- `POLDER_WAKE` (R469). A polder wake event wakes the device from Standby when enabled. -/
  | polderWake
  /-- `STANDBY_COMMIT` (R69). Standby entry commits when the DRAM self-refresh entry of both channels commits. -/
  | standbyCommit
  /-- `ADD` (R117). ADD rd := ra + rb with flags. -/
  | add (c : CoreId) (rd ra rb : Reg)
  /-- `SUB` (R117). SUB rd := ra - rb with flags. -/
  | sub (c : CoreId) (rd ra rb : Reg)
  /-- `AND` (R117). AND rd := ra and rb. -/
  | and (c : CoreId) (rd ra rb : Reg)
  /-- `OR` (R117). OR rd := ra or rb. -/
  | or (c : CoreId) (rd ra rb : Reg)
  /-- `XOR` (R117). XOR rd := ra xor rb. -/
  | xor (c : CoreId) (rd ra rb : Reg)
  /-- `SHL` (R117). SHL shifts left by rb[5:0]. -/
  | shl (c : CoreId) (rd ra rb : Reg)
  /-- `SHR` (R117). SHR shifts right with zero fill. -/
  | shr (c : CoreId) (rd ra rb : Reg)
  /-- `SAR` (R117). SAR shifts right with sign fill. -/
  | sar (c : CoreId) (rd ra rb : Reg)
  /-- `ADDI` (R117). ADDI adds a sign-extended 18-bit immediate. -/
  | addi (c : CoreId) (rd ra : Reg) (imm : BitVec 18)
  /-- `ANDI` (R117). ANDI ands a zero-extended immediate. -/
  | andi (c : CoreId) (rd ra : Reg) (imm : BitVec 18)
  /-- `ORI` (R117). ORI ors a zero-extended immediate. -/
  | ori (c : CoreId) (rd ra : Reg) (imm : BitVec 18)
  /-- `XORI` (R117). XORI xors a zero-extended immediate. -/
  | xori (c : CoreId) (rd ra : Reg) (imm : BitVec 18)
  /-- `SHLI` (R117). SHLI shifts left by an immediate. -/
  | shli (c : CoreId) (rd ra : Reg) (imm : BitVec 18)
  /-- `SHRI` (R117). SHRI shifts right with zero fill by an immediate. -/
  | shri (c : CoreId) (rd ra : Reg) (imm : BitVec 18)
  /-- `SARI` (R117). SARI shifts right with sign fill by an immediate. -/
  | sari (c : CoreId) (rd ra : Reg) (imm : BitVec 18)
  /-- `LUI` (R117). LUI loads IMM18 << 14. -/
  | lui (c : CoreId) (rd : Reg) (imm : BitVec 18)
  /-- `MUL` (R117). MUL gives the low 32 bits of the product. -/
  | mul (c : CoreId) (rd ra rb : Reg)
  /-- `MULL` (R117). MULL writes the signed 64-bit product to a pair. -/
  | mull (c : CoreId) (rd ra rb : Reg)
  /-- `MULQ` (R118). MULQ gives the rounded, saturated Q1.31 product. -/
  | mulq (c : CoreId) (rd ra rb : Reg)
  /-- `MAC` (R117). MAC accumulates a signed product into a pair, wrapping. -/
  | mac (c : CoreId) (rd ra rb : Reg)
  /-- `MACS` (R117). MACS accumulates a signed product into a pair, saturating. -/
  | macs (c : CoreId) (rd ra rb : Reg)
  /-- `EXTQ` (R118). EXTQ extracts a rounded, saturated 32-bit value from a pair. -/
  | extq (c : CoreId) (rd ra : Reg) (imm : BitVec 18)
  /-- `CMP` (R119). CMP sets flags as SUB without writing a register. -/
  | cmp (c : CoreId) (ra rb : Reg)
  /-- `CMPI` (R119). CMPI compares with a sign-extended immediate. -/
  | cmpi (c : CoreId) (ra : Reg) (imm : BitVec 18)
  /-- `BCC` (R119). Bcc branches PC-relative when its condition holds. -/
  | bcc (c : CoreId) (cond : BitVec 4) (imm : BitVec 22)
  /-- `BL` (R119). BL writes the return address and branches. -/
  | bl (c : CoreId) (rd : Reg) (imm : BitVec 22)
  /-- `JR` (R119). JR continues at ra, trapping MISALIGNED when ra[1:0] is not 0. -/
  | jr (c : CoreId) (ra : Reg)
  /-- `LDW` (R120). LDW loads a word from an owned bank. -/
  | ldw (c : CoreId) (rd ra : Reg) (imm : BitVec 18)
  /-- `LDB` (R120). LDB loads a sign-extended byte. -/
  | ldb (c : CoreId) (rd ra : Reg) (imm : BitVec 18)
  /-- `LDBU` (R120). LDBU loads a zero-extended byte. -/
  | ldbu (c : CoreId) (rd ra : Reg) (imm : BitVec 18)
  /-- `STW` (R120). STW stores a word with fresh parity. -/
  | stw (c : CoreId) (rd ra : Reg) (imm : BitVec 18)
  /-- `STB` (R120). STB stores a byte and its parity. -/
  | stb (c : CoreId) (rd ra : Reg) (imm : BitVec 18)
  /-- `FLDW` (R121). FLDW issues a 32-bit far load and locks rd. -/
  | fldw (c : CoreId) (rd ra : Reg) (imm : BitVec 16)
  /-- `FLDD` (R121). FLDD issues a 64-bit far load and locks the pair. -/
  | fldd (c : CoreId) (rd ra : Reg) (imm : BitVec 16)
  /-- `FSTW` (R121). FSTW issues a 32-bit far store that completes at issue. -/
  | fstw (c : CoreId) (rd ra : Reg) (imm : BitVec 16)
  /-- `FSTD` (R121). FSTD issues a 64-bit far store that completes at issue. -/
  | fstd (c : CoreId) (rd ra : Reg) (imm : BitVec 16)
  /-- `FAR_REPLY` (R80). A far-access reply arrives, unlocks its register, and traps FAR_POISON or FAR_ABORT if bad. -/
  | farReply (c : CoreId) (idx : Nat)
  /-- `SWAP` (R122). SWAP exchanges a bank word indivisibly. -/
  | swap (c : CoreId) (rd ra rb : Reg)
  /-- `ADDM` (R122). ADDM adds to a bank word indivisibly and returns the old value. -/
  | addm (c : CoreId) (rd ra rb : Reg)
  /-- `SEND` (R123). SEND sends rd on a queue port once it holds a credit. -/
  | send (c : CoreId) (rd : Reg) (imm : BitVec 16)
  /-- `TAKE` (R123). TAKE removes the head entry of a queue port once one is there. -/
  | take (c : CoreId) (rd : Reg) (imm : BitVec 16)
  /-- `PEEK` (R123). PEEK copies the head entry without waiting and sets Z. -/
  | peek (c : CoreId) (rd : Reg) (imm : BitVec 16)
  /-- `WAIT` (R84). WAIT returns a pending masked event or puts the core to sleep. -/
  | wait (c : CoreId) (rd ra : Reg)
  /-- `WAIT_WAKE` (R84). A masked event becomes pending and a sleeping core wakes within 16 handshakes. -/
  | waitWake (c : CoreId)
  /-- `EVENT` (R124). EVENT raises an SE event of a named core. -/
  | event (c : CoreId) (imm : BitVec 16)
  /-- `TACK` (R126). TACK places a one-shot tack and judges it late or not. -/
  | tack (c : CoreId) (rd : Reg) (tn : TReg) (ra rb : Reg)
  /-- `TACKP` (R126). TACKP places a periodic tack. -/
  | tackp (c : CoreId) (rd : Reg) (tn : TReg) (ra rb rc : Reg)
  /-- `UNTACK` (R91). UNTACK removes a pending tack or reports FIRED or UNKNOWN. -/
  | untack (c : CoreId) (rd ra : Reg)
  /-- `TNOW` (R125). TNOW writes device time into Tn. -/
  | tnow (c : CoreId) (tn : TReg)
  /-- `TADD` (R125). TADD adds nanoseconds to Tn. -/
  | tadd (c : CoreId) (tn : TReg) (ra : Reg)
  /-- `TGET` (R125). TGET copies Tn into a pair. -/
  | tget (c : CoreId) (rd : Reg) (tn : TReg)
  /-- `TPUT` (R125). TPUT copies a pair into Tn. -/
  | tput (c : CoreId) (tn : TReg) (ra : Reg)
  /-- `CGET` (R127). CGET reads a control word as part of a run. -/
  | cget (c : CoreId) (rd ra : Reg) (imm : BitVec 16)
  /-- `CPUT` (R127). CPUT writes a control word as part of a run. -/
  | cput (c : CoreId) (rd ra : Reg) (imm : BitVec 16)
  /-- `CSET` (R544). CSET sets operand bits atomically at the block, field by field. -/
  | cset (c : CoreId) (rd ra : Reg) (imm : BitVec 16)
  /-- `CCLR` (R544). CCLR clears operand bits atomically at the block, field by field. -/
  | cclr (c : CoreId) (rd ra : Reg) (imm : BitVec 16)
  /-- `CS_RUN_REPLIES` (R129). The replies of a control-space run have all arrived and the core traps once for the
  first failing access. -/
  | csRunReplies (c : CoreId)
  /-- `BGIVE` (R130). BGIVE hands an owned bank to a receiver. -/
  | bgive (c : CoreId) (rd : Reg) (imm : BitVec 16)
  /-- `BTAKE` (R130). BTAKE takes a free bank, powering it up if needed. -/
  | btake (c : CoreId) (rd ra : Reg)
  /-- `CLAIM` (R93). CLAIM takes an authority token when free or held at a lower level. -/
  | claim (c : CoreId) (rd ra : Reg)
  /-- `YIELD` (R131). YIELD releases a held authority token. -/
  | yield (c : CoreId) (rd ra : Reg)
  /-- `TRAP` (R132). TRAP enters the handler with cause SOFTWARE. -/
  | trap (c : CoreId) (imm : BitVec 22)
  /-- `RETURN` (R132). RETURN restores PC and F, optionally skipping, and takes held asynchronous causes. -/
  | returnFromTrap (c : CoreId) (imm : BitVec 22)
  /-- `NOP` (R132). NOP does nothing. -/
  | nop (c : CoreId)
  /-- `HALT` (R132). HALT ends any run and halts the core. -/
  | halt (c : CoreId)
  /-- `ILLEGAL_OPCODE` (R112). A word with opcode 0x00 or 0x3F or a nonzero unused field traps ILLEGAL. -/
  | illegalOpcode (c : CoreId) (word : Word)
  /-- `ORDER_SUBMIT` (R92). The authority unit takes a whole order from queue 240 and checks its header. -/
  | orderSubmit (c : CoreId)
  /-- `MERGE_CYCLE_END` (R94). At each 125 µs boundary the orders of the cycle are merged per object and replies sent. -/
  | mergeCycleEnd
  /-- `TACK_FIRE` (R90). A tack's time slot arrives and its control action or core event is performed. -/
  | tackFire (handle : Fin 512)
  /-- `TACK_HANDOVER` (R183). 1 µs before its time a pin-driving tack action is handed to the block's output retimer. -/
  | tackHandover (handle : Fin 512)
  /-- `RETIMER_LAUNCH` (R183). The retimer compare matches and the pin changes within ±20 ns of the slot time. -/
  | retimerLaunch (handle : Fin 512)
  /-- `WATCHDOG_TRAP` (R98). The watchdog reaches CORE_WDOG_LIMIT without a kick and raises the WATCHDOG trap. -/
  | watchdogTrap (c : CoreId)
  /-- `CORE_WATCHDOG` (R99). A second watchdog expiry resets the core by Table 2.5. -/
  | coreWatchdog (c : CoreId)
  /-- `CORE_WDOG_KICK` (R98). Any write to CORE_WDOG_KICK restarts the watchdog count. -/
  | coreWdogKick (c : CoreId) (target : CoreId)
  /-- `CORE_START` (R109). CORE_CONTROL.START starts the core at CORE_START_PC. -/
  | coreStart (c : CoreId) (target : CoreId)
  /-- `CORE_HALT` (R109). CORE_CONTROL.HALT halts the core at the next instruction boundary. -/
  | coreHalt (c : CoreId) (target : CoreId)
  /-- `CORE_QBIND` (R100). A write to CORE_QBIND binds or unbinds a queue port end. -/
  | coreQbind (c : CoreId) (target : CoreId) (port : Fin 8) (val : Word)
  /-- `HELLO` (R152). A HELLO opens a session in the lowest free slot with the agreed feature set and HELLO_ACK is
  sent. -/
  | hello (d : Datagram)
  /-- `BYE` (R147). BYE closes a session. -/
  | bye (d : Datagram)
  /-- `KEEPALIVE` (R148). KEEPALIVE keeps a session open. -/
  | keepalive (d : Datagram)
  /-- `ORDER` (R146). A KNP ORDER passes the authority unit and is delivered to the slot's queue. -/
  | order (d : Datagram)
  /-- `QUERY` (R146). A KNP QUERY is delivered to the slot's program queue. -/
  | query (d : Datagram)
  /-- `ANSWER` (R146). The engine takes an ANSWER from queue 249 and sends it to the host. -/
  | answer
  /-- `NOTICE` (R146). The engine takes a NOTICE from queue 249 and sends it to the host. -/
  | notice
  /-- `SLEEP` (R282). A KNP SLEEP puts the slot of the named stream to sleep. -/
  | sleep (d : Datagram)
  /-- `KNP_FRAGMENT` (R145). A datagram is accepted or dropped by header, length and replay checks and a fragment
  joins its message. -/
  | knpFragment (d : Datagram)
  /-- `KNP_REASSEMBLY_TIMEOUT` (R145). A held message is incomplete 1 s after its first fragment and is discarded. -/
  | knpReassemblyTimeout (slot : Fin 8) (msg : Word)
  /-- `OFFERED_TIMEOUT` (R147). An OFFERED session with no valid datagram for 2 s closes. -/
  | offeredTimeout (slot : Fin 8)
  /-- `SESSION_TIMEOUT` (R148). An OPEN session with no valid datagram for SEC_SESSION_TIMEOUT closes with
  SESSION_CLOSED. -/
  | sessionTimeout (slot : Fin 8)
  /-- `IMAGE_BEGIN` (R156). IMAGE_BEGIN starts staging an image for the boot slot or an update. -/
  | imageBegin (d : Datagram)
  /-- `IMAGE_DATA` (R156). IMAGE_DATA writes bytes at their offset. -/
  | imageData (d : Datagram)
  /-- `IMAGE_END` (R156). IMAGE_END checks completeness, header and signature and reports IMAGE_STATUS. -/
  | imageEnd (d : Datagram)
  /-- `BOOT_SLOT_WRITE_DONE` (R156). The engine finishes writing a target 0 image to the quad-SPI slots. -/
  | bootSlotWriteDone (ok : Bool)
  /-- `UPDATE_COMMIT` (R156). UPDATE_COMMIT enters Update and replaces the running images. -/
  | updateCommit (d : Datagram)
  /-- `UPDATE_IMAGES_REPLACED` (R156). Image replacement completes and the device passes to Admission. -/
  | updateImagesReplaced
  /-- `STAGED_IMAGE_EXPIRY` (R164). A staged image kept after a refused commit is discarded after 60 s. -/
  | stagedImageExpiry
  /-- `REOPEN_PASSWORD` (R159). REOPEN_PASSWORD is compared with the fused hash and may set the reopening latch. -/
  | reopenPassword (d : Datagram)
  /-- `CHALLENGE_REQ` (R160). CHALLENGE_REQ returns a fresh nonce and the DEVID in CHALLENGE. -/
  | challengeReq (d : Datagram)
  /-- `REOPEN_RESPONSE` (R160). REOPEN_RESPONSE is checked against the HMAC and answered with REOPEN_RESULT. -/
  | reopenResponse (d : Datagram)
  /-- `CHALLENGE_NONCE_EXPIRY` (R160). A challenge nonce expires 30 s after issue. -/
  | challengeNonceExpiry
  /-- `REOPEN_LOCKOUT_EXPIRY` (R161). A reopening lockout ends. -/
  | reopenLockoutExpiry
  /-- `SEAL` (R158). SEAL commits sealing: RWL words read-only, JTAG at Sealed level, vendor-bit sessions closed. -/
  | seal (d : Datagram)
  /-- `JTAG_IDCODE` (R162). JTAG IDCODE reads 0x1164_04D3. -/
  | jtagIdcode
  /-- `JTAG_BYPASS` (R162). JTAG BYPASS, also selected for a refused instruction. -/
  | jtagBypass (refused : Bool)
  /-- `JTAG_SAMPLE` (R162). JTAG SAMPLE where the life-cycle state allows it. -/
  | jtagSample
  /-- `JTAG_EXTEST` (R162). JTAG EXTEST with gate and brake outputs held off. -/
  | jtagExtest
  /-- `JTAG_CORE_DEBUG` (R162). JTAG core debug halt, step, register and bank access where allowed. -/
  | jtagCoreDebug (c : CoreId) (op : DebugOp)
  /-- `JTAG_FUSE_PROGRAM` (R162). JTAG programs the owner key set on a Blank device. -/
  | jtagFuseProgram (pub secret : Bytes)
  /-- `ETH_FRAME_RX` (R173). A frame received on a port is classified, forwarded or queued, or dropped and counted. -/
  | ethFrameRx (port : Fin 3) (f : EthFrame)
  /-- `MAC_AGE_OUT` (R174). A learned MAC entry ages out after 300 s. -/
  | macAgeOut (mac : BitVec 48)
  /-- `QBV_CYCLE_START` (R175). A gate control list cycle starts at a multiple of the cycle and a pending new list
  takes effect. -/
  | qbvCycleStart (port : Fin 2)
  /-- `QBV_LIST_WRITE` (R189). A gate control list is written and scheduled for a later cycle start. -/
  | qbvListWrite (c : CoreId) (port : Fin 2) (entry : Fin 16) (val : Word)
  /-- `LINK_UP` (R172). A port trains its link in its MODE. -/
  | linkUp (port : Fin 2) (speed : Fin 4)
  /-- `LINK_DOWN` (R190). A configured port loses its link; its PTP role is suspended. -/
  | linkDown (port : Fin 2)
  /-- `PORT_MODE_WRITE` (R172). A change of MODE takes the link down and retrains it. -/
  | portModeWrite (c : CoreId) (port : Fin 2) (val : Word)
  /-- `PTP_SYNC` (R177). A Sync offset is measured and the servo adjusts the device-time rate or state. -/
  | ptpSync (port : Fin 2) (offset : SyncOffset) (intervalNs : Nat)
  /-- `PTP_SYNC_TIMEOUT` (R177). No Sync for 3 intervals from LOCKING or LOCKED enters HOLDOVER. -/
  | ptpSyncTimeout
  /-- `PTP_HOLDOVER_EXPIRED` (R178). HOLDOVER has lasted TIME_HOLDOVER_LIMIT seconds. -/
  | ptpHoldoverExpired
  /-- `TIME_REARM` (R178). TIME_CONTROL.REARM returns the time state to FREE in Hold, Quiet or Maintenance. -/
  | timeRearm (c : CoreId)
  /-- `TIME_NOW_READ` (R192). A read of TIME_NOW_LO latches the high half for TIME_NOW_HI. -/
  | timeNowRead (c : CoreId) (rd : Reg)
  /-- `STREAM_JOIN` (R179). A stream is enabled and the device joins it by IGMPv3 or MLDv2. -/
  | streamJoin (c : CoreId) (stream : Nat) (progressive : Bool) (enable : Word)
  /-- `ST2110_PACKET` (R179). A stream packet is written to DRAM, or discarded and counted under FORMAT. -/
  | st2110Packet (stream : Fin 2) (p : VideoPacket)
  /-- `E131_DATA` (R180). E1.31 data for a mapped universe is applied or held for sync. -/
  | e131Data (p : E131Packet)
  /-- `E131_SYNC` (R180). An E1.31 sync packet applies all held data in one 8 ns slot. -/
  | e131Sync (addr : BitVec 16)
  /-- `E131_SYNC_TIMEOUT` (R180). No sync packet for 2.5 s makes data apply on arrival. -/
  | e131SyncTimeout
  /-- `E131_SOURCE_LOST` (R180). A source is lost after 2.5 s; the next takes over or the loss action applies. -/
  | e131SourceLost (univ : BitVec 16) (source : Nat)
  /-- `E131_DISCOVERY` (R180). Universe discovery is sent every 10 s. -/
  | e131Discovery
  /-- `E131_MAP_WRITE` (R181). A map entry is written and accepted or refused with E131_MAP_REFUSED. -/
  | e131MapWrite (c : CoreId) (entry : Fin 128) (half : Fin 2) (val : Word)
  /-- `HOL_CYCLE_START` (R195). The master launches a cycle east and west every 125 µs. -/
  | holCycleStart
  /-- `HOL_FRAME_FORWARD` (R194). A node forwards a received frame within 1.5 µs, writing its own contributions. -/
  | holFrameForward (port : Fin 2) (f : SyncFrame)
  /-- `HOL_CYCLE_SYNC_RX` (R201). A follower takes a cycle sync: node number, time and reset mask. -/
  | holCycleSyncRx (port : Fin 2) (f : SyncFrame)
  /-- `HOL_SLOT_TABLE_SEND` (R195). The master sends the slot-table frame 62.5 µs after cycle start with judged
  budgets. -/
  | holSlotTableSend
  /-- `HOL_SLOT_TABLE_RX` (R196). A node takes the slot contents of the cycle from the slot-table frame; they stand beside the rest
  of the frame. -/
  | holSlotTableRx (port : Fin 2) (f : SyncFrame) (slots : List NodeSlot)
  /-- `HOL_CLAIM_SEND` (R198). A node without a master sends claim frames every 125 µs. -/
  | holClaimSend
  /-- `HOL_CLAIM_RX` (R198). A received claim is ranked; a node withdraws or becomes master when its claim returns. -/
  | holClaimRx (port : Fin 2) (f : SyncFrame)
  /-- `HOL_CLAIM_TIMEOUT` (R198). In a chain no better claim arrives for 8 claim intervals and the node becomes
  master. -/
  | holClaimTimeout
  /-- `HOL_MASTER_LOST` (R203). No cycle sync for 3 cycles; the follower starts claiming. -/
  | holMasterLost
  /-- `HOL_LINK_DOWN` (R202). A port loses lane lock for 4 µs; the ring heals into chains. -/
  | holLinkDown (port : Fin 2)
  /-- `HOL_CYCLE_START_MISSING` (R202). No cycle start for 2 cycles breaks the link and nodes fold back. -/
  | holCycleStartMissing (port : Fin 2)
  /-- `HOL_RING_REJOIN` (R202). A link taut for 1,024 cycles is taken back into the ring. -/
  | holRingRejoin (port : Fin 2)
  /-- `HOL_PORT_UP` (R205). A down port locks, deskews and hears a link-status block and becomes taut. -/
  | holPortUp (port : Fin 2)
  /-- `HOL_ERROR_SCORE` (R204). Each cycle TEC and REC are scored and the port state follows. -/
  | holErrorScore (port : Fin 2) (score : CycleScore) (delay : Option (BitVec 16))
  /-- `HOL_RECOVER` (R206). HOL_PORT_CTRL RECOVER returns a cut port to taut or raises HOL_RECOVER_REFUSED. -/
  | holRecover (c : CoreId) (mask : Fin 4)
  /-- `HEST_ASSERTED` (R208). HEST_N low for 1 µs enters gate-off or a category 1 demand per HEST_CAT. -/
  | hestAsserted
  /-- `HEST_ASSERT_CMD` (R208). HOL_HEST.ASSERT pulls HEST_N low. -/
  | hestAssertCmd (c : CoreId)
  /-- `HEST_RELEASE_CMD` (R208). HOL_HEST.RELEASE releases HEST_N unless the node's own cause persists. -/
  | hestReleaseCmd (c : CoreId)
  /-- `HOL_EMERGENCY_RX` (R439). A valid new emergency entry is recorded and acted on when it concerns the node. -/
  | holEmergencyRx (node : OnPort NodeId) (e : EmergEntry)
  /-- `HOL_BULK_RX` (R197). A bulk packet addressed to the node is received. -/
  | holBulkRx (p : OnPort BulkPacket)
  /-- `HOL_BULK_SEND` (R197). A node sends its own bulk packet when space in a half allows. -/
  | holBulkSend (handed : OnPort (List (BulkPacket × Option EmergEntry)))
  /-- `HOL_BOOT_PACKET` (R209). A follower in Boot stores a TYPE 2 image packet at its offset. -/
  | holBootPacket (p : OnPort BulkPacket)
  /-- `HOL_RESET_CMD` (R210). A master program requests a cascade reset for a node mask. -/
  | holResetCmd (c : CoreId) (mask : BitVec 16)
  /-- `HOL_CASCADE_RESET_RX` (R210). A named follower resets as on RESET_N. -/
  | holCascadeResetRx (f : OnPort SyncFrame)
  /-- `HOL_SLICE_RX` (R211). A video slice is received into the frame store. -/
  | holSliceRx (x : OnPort Slice)
  /-- `DRAM_REQUEST` (R225). A request is mapped to a channel and admitted to its queue, or answered POISON above the
  map top. -/
  | dramRequest (src : DramSource)
  /-- `DRAM_SERVE` (R233). The channel picks and serves the next request with ECC handling. -/
  | dramServe (ch : Fin 2) (idx : Nat) (ecc : Ecc)
  /-- `DRAM_OVERDUE` (R233). A request's elapsed time reaches its port target. -/
  | dramOverdue (ch : Fin 2) (idx : Nat)
  /-- `DRAM_REFRESH_DUE` (R234). A rank's refresh falls due and is issued or postponed. -/
  | dramRefreshDue (ch : Fin 2) (rank : Fin 4)
  /-- `DRAM_MPR_POLL` (R235). Every 32 ms the MPR temperature of each rank is read. -/
  | dramMprPoll (ch : Fin 2) (range : Fin 3)
  /-- `DRAM_TEMP_WRITE` (R235). A program writes the board temperature to DRAM_TEMP.BOARD_C. -/
  | dramTempWrite (c : CoreId) (ch : Fin 2) (val : Word)
  /-- `DRAM_TEMP_STALE` (R235). No board reading for 100 ms; temperature taken as above 85 °C. -/
  | dramTempStale (ch : Fin 2)
  /-- `DRAM_SR_IDLE` (R236). A channel idle for DRAM_SR.IDLE_US starts self-refresh entry. -/
  | dramSrIdle (ch : Fin 2)
  /-- `DRAM_SR_COMMIT` (R236). Self-refresh entry commits when precharge-all is issued. -/
  | dramSrCommit (ch : Fin 2)
  /-- `DRAM_SR_EXIT` (R236). A request after the commit makes the channel exit self-refresh at the earliest legal
  time. -/
  | dramSrExit (ch : Fin 2)
  /-- `DRAM_TRAINING` (R237). Training of a channel completes, stepping down the speed or losing the channel on
  failure. -/
  | dramTraining (ch : Fin 2) (found : List (Fin 2 × Fin 3)) (works : List Bool)
  /-- `DRAM_RETRAIN` (R238). DRAM_CONTROL.RETRAIN retrains centring and VrefDQ on each rank. -/
  | dramRetrain (c : CoreId) (ch : Fin 2)
  /-- `DRAM_RETRAIN_SLICE` (R238). A retraining slice of at most 1 µs runs between traffic. -/
  | dramRetrainSlice (ch : Fin 2) (rank : Fin 4) (ok : Bool)
  /-- `DRAM_ALERT` (R232). An ALERT_N parity report reissues the command or fails the rank. -/
  | dramAlert (ch : Fin 2) (cs : Fin 4)
  /-- `DRAM_ZERO_INIT` (R230). Background zero-initialisation writes a line after a cold boot. -/
  | dramZeroInit (ch : Fin 2)
  /-- `DRAM_SCRUB_LINE` (R231). The patrol scrub reads and corrects a line. -/
  | dramScrubLine (ch : Fin 2) (ecc : Ecc)
  /-- `DRAM_SPARE_CMD` (R240). DRAM_SPARE_CMD GO marks a logical rank failing. -/
  | dramSpareCmd (c : CoreId) (ch : Fin 2) (val : Word)
  /-- `DRAM_MIGRATE_LINE` (R241). A line of a failing rank is copied to the spare and the front advances. -/
  | dramMigrateLine (ch : Fin 2) (ecc : Ecc)
  /-- `BANK_RECLAIM` (R257). BANK_RECLAIM takes a bank back from an engine. -/
  | bankReclaim (c : CoreId) (val : Word)
  /-- `BANK_POWER_WRITE` (R260). BANK_POWER powers free banks down or up. -/
  | bankPowerWrite (c : CoreId) (val : Word)
  /-- `BANK_FILL_DONE` (R260). A powered-up bank finishes zero-filling and a waiting BTAKE is answered. -/
  | bankFillDone (bank : BankId)
  /-- `PANEL_BUFFER_COMPLETE` (R270). All writes of a frame buffer are answered OK and the buffer becomes complete. -/
  | panelBufferComplete (slot : Fin 2) (buffer : Fin 4)
  /-- `PANEL_PLAY_READY` (R270). PANEL_PLAY_READY makes a playback buffer eligible. -/
  | panelPlayReady (c : CoreId) (buffer : Fin 4)
  /-- `PANEL_TABLES_NEXT` (R283). PANEL_TABLES.NEXT names the table bank for the next frame start. -/
  | panelTablesNext (c : CoreId) (val : Word)
  /-- `SLOT_SLEEP` (R282). A slot without a complete frame for SLOT_SLEEP ms falls asleep. -/
  | slotSleep (slot : Fin 2)
  /-- `SCAN_SELECT` (R294). At the selection point each slot selects its newest eligible buffer and table switches
  apply. -/
  | scanSelect
  /-- `SCAN_FRAME_START` (R293). A visible frame starts at V_n: RSTART or LOAD and GST, FSYNC output. -/
  | scanFrameStart
  /-- `SCAN_REFRESH_START` (R301). A class E refresh starts and RSTART is inserted. -/
  | scanRefreshStart
  /-- `SCAN_LINE_START` (R306). A class L line starts with LOAD, GOE and GCK timing. -/
  | scanLineStart (poison : List (Nat × Nat))
  /-- `FSYNC_EDGE` (R295). A qualified FSYNC rising edge sets V_n or is ignored and counted. -/
  | fsyncEdge
  /-- `KSL_TRAIN_START` (R305). A KSL training attempt starts with TP1 then TP2. -/
  | kslTrainStart
  /-- `KSL_LOCK_CHECK` (R305). KSL_NOLOCK_N is sampled 30 µs into an attempt; CONFIG follows or a retry. -/
  | kslLockCheck (lockedHigh : Bool)
  /-- `KSL_LOCK_LOST` (R316). KSL_NOLOCK_N falls during a line and training follows the frame. -/
  | kslLockLost
  /-- `KSL_RETRAIN` (R305). SCAN_L_CTRL.RETRAIN starts training. -/
  | kslRetrain (c : CoreId)
  /-- `KSL_QUIET_WAKE` (R308). In Quiet the idle lanes wake before a processed frame, send TP1 and TP2 and are
  checked. -/
  | kslQuietWake (lockedHigh : Bool)
  /-- `SCAN_E_SEND_CURRENT` (R299). SCAN_E_CMD.CURRENT sends CURRENT before the next DATA packet. -/
  | scanESendCurrent (c : CoreId)
  /-- `SCAN_E_SEND_CONFIG` (R299). SCAN_E_CMD.CONFIG sends CONFIG before the next DATA packet. -/
  | scanESendConfig (c : CoreId)
  /-- `SCAN_WORD_WRITE` (R309). A scan word write is checked against budgets and applied at a frame start. -/
  | scanWordWrite (c : CoreId) (addr : BitVec 16) (val : Word)
  /-- `LED_RELOAD` (R328). At a window start the channel copies its shadow, advances fades, derating and budget, and
  drives the sink. -/
  | ledReload (ch : Fin 64) (sinkMilliVolts : Nat)
  /-- `LED_LEVEL_WRITE` (R327). A LEVEL write ends any running fade. -/
  | ledLevelWrite (c : CoreId) (ch : Fin 64) (val : Word)
  /-- `LED_FADE_GO` (R326). LED_FADE_GO starts fades of the masked channels. -/
  | ledFadeGo (c : CoreId) (d : Die) (mask : Word)
  /-- `LED_MATRIX_SWAP` (R333). A swap demand swaps matrix buffers at the next row-cycle start. -/
  | ledMatrixSwap (c : CoreId) (d : Die)
  /-- `LED_MATRIX_DATA` (R332). A write to LED_MATRIX_DATA lands in the hidden buffer. -/
  | ledMatrixData (c : CoreId) (d : Die) (i : Fin 256) (val : Word)
  /-- `LED_NTC_MEASURE` (R334). Every 10 ms each sensor input is measured and the derating factor follows. -/
  | ledNtcMeasure (input : Fin 8) (ohms : Nat)
  /-- `LED_DERATE_WRITE` (R334). A derating point write is accepted or refused with LED_CONFIG_REFUSED. -/
  | ledDerateWrite (c : CoreId) (d : Die) (i : Fin 4) (val : Word)
  /-- `LED_DIAG_INTERVAL` (R336). A 250 ms diagnostic interval starts. -/
  | ledDiagInterval (d : Die)
  /-- `LED_DIAG_STRETCH` (R336). 200 ms into an interval an unmeasured channel stretches its next window by 1 µs. -/
  | ledDiagStretch (ch : Fin 64)
  /-- `LED_GDARK_CLEAR` (R337). LED_GDARK_CLEAR lifts functions with no latched member, others refused. -/
  | ledGdarkClear (c : CoreId) (d : Die) (mask : BitVec 16)
  /-- `AXIS_SAMPLE` (R377). A current sample point holds the inputs and starts an SSI frame. -/
  | axisSample (a : AxisId)
  /-- `SDM_WORD` (R378). A sinc3 output word ends at the sample point and the currents are scaled. -/
  | sdmWord (a : AxisId) (ca cb : BitVec 24)
  /-- `SAR_CONVERSION` (R379). An edge-die SAR conversion completes. -/
  | sarConversion (input : Fin 16) (code : BitVec 16)
  /-- `LOOP_EVAL` (R348). A loop unit evaluates a ready slot and applies its output at once. -/
  | loopEval (slot : Fin 24)
  /-- `LOOP_GRID_TICK` (R347). A device-time grid point readies position, speed and general slots and runs shock and
  hem checks. -/
  | loopGridTick
  /-- `LOOP_APPLY` (R352). LOOP_APPLY copies shadowed gains of masked slots at their next evaluation. -/
  | loopApply (c : CoreId) (val : Word)
  /-- `LOOP_CTRL_WRITE` (R353). A LOOP_CTRL write enables, disables or reconfigures a slot or is refused. -/
  | loopCtrlWrite (c : CoreId) (slot : Fin 24) (val : Word)
  /-- `LOOP_SAT_CLEAR` (R357). A W1C of SAT_TRIPPED clears it unless the slot is clamped. -/
  | loopSatClear (c : CoreId) (slot : Fin 24)
  /-- `TRACE_ARM` (R361). Writing ARM arms a trace channel or is refused. -/
  | traceArm (c : CoreId) (ch : Fin 8) (val : Word)
  /-- `TRACE_FIRE` (R361). TRACE_FIRE triggers channels by mask. -/
  | traceFire (c : CoreId) (mask : Byte)
  /-- `TRACE_SAMPLE` (R361). A trace channel samples its node and checks its trigger. -/
  | traceSample (ch : Fin 8)
  /-- `SSI_FRAME` (R385). An SSI frame completes and is used or counted bad. -/
  | ssiFrame (a : AxisId) (word : Word) (crc : BitVec 6)
  /-- `ABZ_EDGE` (R386). A filtered encoder level change updates the count or is an illegal transition. -/
  | abzEdge (a : AxisId) (la lb lz : Bool)
  /-- `ALIGN` (R389). AXIS_CTRL.ALIGN starts alignment or is refused. -/
  | align (c : CoreId) (a : AxisId) (val : Word)
  /-- `ALIGN_PHASE_TIMER` (R389). An alignment phase time passes and its check passes or fails. -/
  | alignPhaseTimer (a : AxisId) (m : AlignMeasure)
  /-- `SENSORLESS_START` (R391). A speed slot asks for motion from standstill and the start state machine begins. -/
  | sensorlessStart (a : AxisId)
  /-- `START_STATE_TIMER` (R391). T_ALIGN, T_LOCK or T_RETRY expires and the start advances. -/
  | startStateTimer (a : AxisId)
  /-- `AXIS_SHORT` (R394). AXIS_CTRL.SHORT shorts the windings or brakes first. -/
  | axisShort (c : CoreId) (a : AxisId) (val : Word)
  /-- `GATE_COMPARE_GROUP` (R410). A compare group reaches the axis shadow. -/
  | gateCompareGroup (a : AxisId) (g : CompareGroup)
  /-- `GATE_RELOAD` (R410). At a PWM period start the shadow is copied and pulses formed through the interlock. -/
  | gateReload (a : AxisId)
  /-- `GATE_TRIP` (R415). A protection source qualifies and all gates go off within 250 ns. -/
  | gateTrip (r : TripReading) (phase : BridgePhase)
  /-- `STO_DISCREPANCY` (R417). STO inputs differ for 20 ms and the missing bit latches. -/
  | stoDiscrepancy
  /-- `BOOT_UV_HOLD` (R409). BST-SRC below 8.0 V holds the high side off. -/
  | bootUvHold (ch : Fin 24)
  /-- `BOOT_UV_RELEASE` (R409). BST-SRC at 9.0 V releases the high side. -/
  | bootUvRelease (ch : Fin 24)
  /-- `GATE_TRIP_CLEAR` (R419). GATE_TRIP_CLEAR clears named latch bits whose sources are quiet long enough. -/
  | gateTripClear (c : CoreId) (d : Die) (mask : Word)
  /-- `GATE_ENABLE` (R416). A GATE_AXIS_CTRL EN write enables an axis or is refused. -/
  | gateEnable (c : CoreId) (a : AxisId) (val : Word)
  /-- `GATE_TEST` (R421). GATE_TEST GO starts a comparator self-test or is refused. -/
  | gateTest (c : CoreId) (d : Die) (val : Word)
  /-- `GATE_TEST_END` (R421). 10 µs after the write the test input returns to its pin and the result stands. -/
  | gateTestEnd (d : Die) (tripped : Option Nat)
  /-- `MACH_GROUP_CYCLE` (R434). At cycle start group set-points are computed from the previous cycle's entries. -/
  | machGroupCycle
  /-- `STOP_DEMAND` (R440). A category 1 or 2 stop demand takes the device to Stop and ramps every axis. -/
  | stopDemand (cat : Fin 2) (why : StopCause)
  /-- `STOP_STANDSTILL` (R440). An axis stays below STILL for STILL_T and the stop proceeds. -/
  | stopStandstill (a : AxisId)
  /-- `STOP_SET_TIMER` (R440). T_SET passes after the brake is set and the gates go off, ending in Hold. -/
  | stopSetTimer
  /-- `MACH_STOP_ESCALATED` (R440). Standstill not reached in time escalates to category 0. -/
  | machStopEscalated (a : AxisId)
  /-- `CAT0_DEMAND` (R438). A machinery category 0 demand turns all gates off within 5 µs and sets CAT0. -/
  | cat0Demand (why : StopCause)
  /-- `MACH_STOP_CAT0` (R438). MACH_STOP_CMD CAT 0 demands a category 0 stop. -/
  | machStopCat0 (c : CoreId) (axes : BitVec 4)
  /-- `MACH_STOP_CAT1` (R438). MACH_STOP_CMD CAT 1 demands a category 1 stop. -/
  | machStopCat1 (c : CoreId) (axes : BitVec 4)
  /-- `MACH_STOP_CAT2` (R438). MACH_STOP_CMD CAT 2 demands a category 2 stop. -/
  | machStopCat2 (c : CoreId) (axes : BitVec 4)
  /-- `MACH_STOP_CLEAR` (R438). MACH_STOP_CLEAR clears the CAT0 latch. -/
  | machStopClear (c : CoreId)
  /-- `BRAKE_RELEASE` (R441). Setting RELEASE starts a brake release or is refused. -/
  | brakeRelease (c : CoreId) (a : AxisId)
  /-- `BRAKE_PROVE_DONE` (R441). T_PROVE passes and BRKn conducts. -/
  | brakeProveDone (a : AxisId)
  /-- `BRAKE_RELEASE_CONFIRM` (R441). Coil current reaches I_MIN or T_REL passes. -/
  | brakeReleaseConfirm (a : AxisId) (coil : Nat)
  /-- `BRAKE_SHORT` (R441). Coil current above 1.2 A turns BRKn off within 10 µs. -/
  | brakeShort (a : AxisId) (coil : Nat)
  /-- `BRAKE_SET` (R441). Clearing RELEASE sets the brake without a stop. -/
  | brakeSet (c : CoreId) (a : AxisId)
  /-- `BRAKE_SET_TIMEOUT` (R441). Coil current not below I_MIN within T_SET raises BRAKE_STUCK. -/
  | brakeSetTimeout (a : AxisId) (coil : Nat)
  /-- `POLDER_BLOCK` (R455). A 100 ms energy block settles into forward or regenerated registers. -/
  | polderBlock (ch0 ch1 ch2 ch3 : PolderSamples)
  /-- `POLDER_PULSE` (R459). A pulse output emits a pulse for owed energy at the limit rate. -/
  | polderPulse (ch : Fin 4)
  /-- `POLDER_DEMAND_END` (R458). A 15-minute demand period ends at a quarter-hour. -/
  | polderDemandEnd
  /-- `POLDER_FRAME_SEND` (R467). The polder sends a result frame every 10 ms or 1 s. -/
  | polderFrameSend
  /-- `POLDER_FRAME_RX` (R467). The window receiver copies a valid frame in one grant or discards it. -/
  | polderFrameRx (crcOk : Bool)
  /-- `POLDER_CMD_FULL_FRAME` (R468). Command 0x1 makes the polder send a full frame at once. -/
  | polderCmdFullFrame
  /-- `POLDER_CMD_SLOW` (R468). Command 0x2 lowers the frame rate to one per second. -/
  | polderCmdSlow
  /-- `POLDER_CMD_RESEND` (R468). Command 0x3 makes the polder send the next frame at once. -/
  | polderCmdResend
  /-- `POL_ENERGY_READ` (R467). A read of FWD_LO or REG_LO latches the matching HI word. -/
  | polEnergyRead (c : CoreId) (rd : Reg) (ch : Fin 4) (reg : Bool)
  /-- `POLDER_READOUT` (R460). An IEC 62056-21 readout delivers the data set. -/
  | polderReadout
  /-- `POLDER_PROG_ENTER` (R461). Programming mode is entered with password P1 or a failure counted. -/
  | polderProgEnter (password : Nat)
  /-- `POLDER_CAL_WRITE` (R465). A calibration parameter is written and logged. -/
  | polderCalWrite (ch : Fin 4) (param : Fin 16) (val : Int)
  /-- `POLDER_SEAL` (R465). The seal command stores the CRC and blows the seal fuse. -/
  | polderSeal
  /-- `POLDER_TIME_SET` (R461). Polder time is set and logged. -/
  | polderTimeSet (time : Word)
  /-- `POLDER_LOCKOUT_EXPIRY` (R461). The 1 h programming lockout ends. -/
  | polderLockoutExpiry
  /-- `POLDER_CALEN_RISE` (R463). CALEN rises; the seal counter increments and it is logged. -/
  | polderCalenRise
  /-- `POLDER_INTEGRITY_CHECK` (R464). The identification CRC is computed and a mismatch enters fail. -/
  | polderIntegrityCheck (intact : Bool)
  /-- `POLDER_SAVE` (R466). Every 60 s registers are saved to non-volatile memory. -/
  | polderSave
  /-- `POLDER_VPOL_DOWN` (R466). VPOL falls below its save threshold and registers are saved. -/
  | polderVpolDown (saved : Bool)
  /-- `POLDER_VPOL_UP` (R464). VPOL comes up; the polder logs and checks integrity. -/
  | polderVpolUp (intact : Bool)
  /-- `TW_XFER` (R480). TW_XFER GO starts a controller transfer or is refused. -/
  | twXfer (c : CoreId) (i : Fin 3) (val : Word)
  /-- `TW_XFER_DONE` (R481). A transfer ends and its result is posted to TW_STATUS and queue 224 + i. -/
  | twXferDone (i : Fin 3) (o : TwOutcome)
  /-- `TW_TARGET_WRITE` (R483). A target write transaction stores bytes at the wrapping pointer and reports on STOP. -/
  | twTargetWrite (i : Fin 3) (bytes : Bytes) (lostStop : Bool)
  /-- `TW_TARGET_READ` (R485). A target read transaction returns latched window bytes. -/
  | twTargetRead (i : Fin 3) (n : Nat)
  /-- `TW_REPORT_SEND` (R486). A held window report is sent when queue 227 + i gains a credit. -/
  | twReportSend (i : Fin 3)
  /-- `TW_NOTICE` (R488). TW_NOTICE GO sends a Host Notify on the next free bus or is refused. -/
  | twNotice (c : CoreId) (i : Fin 3) (val : Word)
  /-- `TW_NOTICE_RETRY` (R488). 1 ms after the bus is free a failed notice is retried or dropped. -/
  | twNoticeRetry (i : Fin 3)
  /-- `STRETCH_TIMEOUT` (R489). SCL low for TIMEOUT ms releases the lines and resets the transaction. -/
  | stretchTimeout (i : Fin 3)
  /-- `TW_RECOVER` (R490). TW_CTRL.RECOVER clocks SCL up to 9 pulses and sends STOP. -/
  | twRecover (c : CoreId) (i : Fin 3) (pulses : Option (Fin 10))
  /-- `TW_BUS_FREE` (R479). SCL and SDA high for 50 µs makes the bus free. -/
  | twBusFree (i : Fin 3)
  /-- `THERMAL_READ` (R508). Every 1 ms die temperatures are read and hot and core shutdown judged. -/
  | thermalRead (core west east : BitVec 16) (vcoreMv : BitVec 16)
  /-- `EDGE_THERMAL_SHUTDOWN` (R509). An edge junction reaches 135 °C and the die trips all gates and latches THERM. -/
  | edgeThermalShutdown (d : Die) (temp : BitVec 16)
  /-- `THERM_CLEAR` (R509). A write to PWR_THERM clears THERM bits of dies at or below 115 °C. -/
  | thermClear (c : CoreId) (val : Word)
  /-- `FAULT_SEL` (R537). A write to FAULT_SEL copies an entry into FAULT_ENTRY0-3. -/
  | faultSel (c : CoreId) (index : Byte)
  /-- `FAULT_CLEAR` (R534). FAULT_CLEAR clears the fault record. -/
  | faultClear (c : CoreId)
  /-- `EDGE_DIE_ANSWER` (R22). An edge die first answers the core die during Boot and its bit in IDENT_DIES is set. -/
  | edgeDieAnswer (d : Die)
  /-- `HEST_N_RELEASED` (R208). The wired-OR HEST_N line rises once the last node holding it releases it. -/
  | hestNReleased
  /-- `TRIP_SOURCE_INACTIVE` (R419). A protection source (trip input, STO input or comparator) stops being qualified
  and its inactive time starts counting for the clear filter. -/
  | tripSourceInactive (src : TripSource)
  /-- `POLDER_CALEN_FALL` (R461). The CALEN input goes low, ending acceptance of calibration writes and clearing the
  window's CALEN bit. -/
  | polderCalenFall
  deriving DecidableEq, Repr

end Sys2Proof
end

