-- ==== Sys2Proof/Decode.lean ====
section
/-! DEFINITION. Words that spell commands. The block takes commands, not encoded words: no row of spec/opcode_table.json has bits. -/
namespace Sys2Proof

/-- The command that a word spells by the bits of spec/opcode_table.json: none, since no row of the table has any bits. -/
def decodeTableWord (_nbits _w : Nat) : Option Instr := none

end Sys2Proof
end

