-- ==== Sys2Proof/Config.lean ====
section
/-! DEFINITION. What the spec leaves open and what lies outside the device: opaque constants without a body, so that
nothing can be proved of their values. Each is named in a row of notes/assumptions. -/
namespace Sys2Proof.Config

/-- A free value: the n-th value that the spec leaves open, as a number. -/
opaque freeBits : Nat → Nat

/-- The handshakes completed on an internal queue, 0 to 191, between two moments of device time, and the 8 ns units its sender spent without
credit: the spec does not say what these queues carry (R48). -/
opaque innerHandshakes : (queue since now : Nat) → Nat

/-- The 8 ns units that the sender of an internal queue spent without credit between two moments. -/
opaque innerWait : (queue since now : Nat) → Nat

/-- RATIO of a member of a group on another node, Q2.14: the group entry does not carry it (R434, Table 17.1). -/
opaque remoteRatio : (group member : Nat) → Int

/-- The bytes of a DRAM channel whose contents were lost (Table 2.10): of the loss `epoch`, at a key of its cells. -/
opaque freeByte : (epoch key : Nat) → Byte

/-- The output of LED curve 1 (gamma) or 2 (logarithmic), of a GAMMA and a level: the spec fixes it only within the bound
of Table 13.2, which the chain puts round it. -/
opaque curve : (curve gamma level : Nat) → Nat

/-- The firmware version of the polder: the first group of its software identification (R464). -/
opaque polderFirmware : Nat

/-- The identification CRC over the polder's firmware and calibration parameters (R464). -/
opaque polderCrc : List Int → Nat

/-- The identification CRC where the firmware or the parameters no longer read as they were written (R464). -/
opaque polderBadCrc : List Int → Nat

/-- The features that a message of a KNP type and payload depends on (R153): what a QUERY, an ORDER or a SLEEP asks for is
defined by programs. -/
opaque messageNeeds : (type : Nat) → (payload : List Nat) → Nat

/-- The stored hash of the reopening password (R159): its function is not given. -/
opaque passwordHash : Bytes → Bytes

/-- The member mask of a VLAN over NA, NB and the internal port (R174): the spec names no word that holds it. -/
opaque vlanMembers : (vlan : Nat) → Nat

/-- The IPv6 address that a word of NET_STREAM names, where it names one: a word has 32 bits, and the spec does not say how it holds an
address of 128 (R179, Table 7.6). -/
opaque streamV6 : (word : Nat) → Option Nat

/-- The delay of a link that peer delay has measured, in ns (R176). -/
opaque linkDelay : (port now : Nat) → Nat

/-- Where the receive ring begins in DRAM: the spec gives its length and its port (R182). -/
opaque rxRing : Nat

/-- The initial value of the CRC-16 (CCITT) of KSL packets and Holros frames: the spec names the CRC and not its initial value (R194,
R196, R304). -/
opaque crc16Init : Nat

end Sys2Proof.Config
end

