-- ==== Sys2Proof/Machine/Arith.lean ====
section
/-! DEFINITION. The arithmetic every unit shares: bit fields of a word, signed reading, saturation and rounding,
little-endian bytes, the sparse store in canonical form, and update of one place of a vector. -/
namespace Sys2Proof.Machine

/-- Bits [lo + n − 1 : lo] of a word as a number. -/
def bits (w : Word) (lo n : Nat) : Nat := w.toNat / 2 ^ lo % 2 ^ n

/-- Bit i of a word. -/
def bit (w : Word) (i : Nat) : Bool := w.getLsbD i

/-- A word whose bits [lo + n − 1 : lo] are v and whose other bits are those of w. -/
def setBits (w : Word) (lo n v : Nat) : Word :=
  let m : Word := BitVec.ofNat 32 ((2 ^ n - 1) * 2 ^ lo)
  (w &&& ~~~m) ||| (BitVec.ofNat 32 (v % 2 ^ n * 2 ^ lo))

/-- A word whose bit i is b and whose other bits are those of w. -/
def setBit (w : Word) (i : Nat) (b : Bool) : Word := setBits w i 1 (if b then 1 else 0)

/-- 1 for true, 0 for false. -/
def b2n (b : Bool) : Nat := if b then 1 else 0

/-- A number read as an n-bit two's-complement value. -/
def signed (n v : Nat) : Int :=
  let u := v % 2 ^ n
  if u < 2 ^ (n - 1) then (u : Int) else (u : Int) - (2 ^ n : Nat)

/-- Bits [lo + n − 1 : lo] of a word read as two's complement. -/
def sbits (w : Word) (lo n : Nat) : Int := signed n (bits w lo n)

/-- An integer as a 32-bit word, wrapping. -/
def wordOf (i : Int) : Word := BitVec.ofInt 32 i

/-- An integer limited to [lo, hi]. -/
def clampI (lo hi x : Int) : Int := if x < lo then lo else if hi < x then hi else x

/-- A number limited to [lo, hi]. -/
def clampN (lo hi x : Nat) : Nat := if x < lo then lo else if hi < x then hi else x

/-- Saturation to a signed n-bit range. -/
def satS (n : Nat) (x : Int) : Int := clampI (-(2 ^ (n - 1) : Nat)) ((2 ^ (n - 1) : Nat) - 1) x

/-- A counter word that saturates at all ones of its width (R48, R265 and others). -/
def satInc (n v : Nat) : Nat := if v + 1 < 2 ^ n then v + 1 else 2 ^ n - 1

/-- x × 2⁻ⁿ rounded half up (R118): floor (x / 2ⁿ + 1/2). -/
def roundShift (x : Int) (n : Nat) : Int :=
  if n = 0 then x else (x + (2 ^ (n - 1) : Nat)) >>> n

/-- round(x / 2ⁿ), halves away from zero (R348). -/
def roundAway (x : Int) (n : Nat) : Int := if x < 0 then -roundShift (-x) n else roundShift x n

/-- The quotient rounded half up, of numbers. -/
def roundDiv (a b : Nat) : Nat := if b = 0 then 0 else (2 * a + b) / (2 * b)

/-- The quotient of integers by a number, rounded half up. -/
def roundDivI (a : Int) (b : Nat) : Int := if b = 0 then 0 else Int.fdiv (2 * a + b) (2 * b)

/-- The whole square root: by bits from the top, `n` of them. -/
def isqrtFrom (x : Nat) : Nat → Nat → Nat
  | 0, r => r
  | n + 1, r =>
    let r' := r + 2 ^ n
    isqrtFrom x n (if r' * r' ≤ x then r' else r)

/-- The largest r with r × r ≤ x, for x below 2¹²⁸. -/
def isqrt (x : Nat) : Nat := isqrtFrom x 64 0

/-- The bytes of a number, least significant first (R111: little-endian). -/
def leBytes : Nat → Nat → Bytes
  | 0, _ => []
  | n + 1, v => BitVec.ofNat 8 (v % 256) :: leBytes n (v / 256)

/-- The number that bytes spell, least significant first. -/
def leNat : Bytes → Nat
  | [] => 0
  | b :: bs => b.toNat + 256 * leNat bs

/-- `n` bytes of a run of bytes from an offset, read little-endian; a byte beyond the end reads 0. -/
def leAt (bs : Bytes) (off n : Nat) : Nat := leNat ((bs.drop off).take n)

/-- The XOR of the eight bits of a byte: its parity bit (R259). -/
def parityOf (b : Byte) : Bool :=
  (List.range 8).foldl (fun p i => p != b.getLsbD i) false

/-- The place i of a vector passed through f. -/
def modAt {α : Type} {n : Nat} (v : Vector α n) (i : Fin n) (f : α → α) : Vector α n := v.set i (f v[i])

/-- The value a sparse store holds at a key: its entry, or what an unlisted key reads as. -/
def sget {α : Type} (dflt : Nat → α) : List (Nat × α) → Nat → α
  | [], a => dflt a
  | (k, v) :: r, a => if k = a then v else sget dflt r a

/-- A sparse store with the value v at a key, in canonical form: keys rising, no entry equal to what an unlisted key
reads as. -/
def sput {α : Type} [DecidableEq α] (dflt : Nat → α) : List (Nat × α) → Nat → α → List (Nat × α)
  | [], a, v => if v = dflt a then [] else [(a, v)]
  | (k, w) :: r, a, v =>
    if a < k then (if v = dflt a then (k, w) :: r else (a, v) :: (k, w) :: r)
    else if a = k then (if v = dflt a then r else (a, v) :: r)
    else (k, w) :: sput dflt r a v

/-- Several values at rising keys from a key on. -/
def sputs {α : Type} [DecidableEq α] (dflt : Nat → α) (l : List (Nat × α)) (a : Nat) : List α → List (Nat × α)
  | [] => l
  | v :: vs => sputs dflt (sput dflt l a v) (a + 1) vs

/-- The values at n rising keys from a key on. -/
def sgets {α : Type} (dflt : Nat → α) (l : List (Nat × α)) (a : Nat) : Nat → List α
  | 0 => []
  | n + 1 => sget dflt l a :: sgets dflt l (a + 1) n

/-- The sparse store without the entries of the keys in [lo, hi): they read as unlisted. -/
def sclear {α : Type} (l : List (Nat × α)) (lo hi : Nat) : List (Nat × α) :=
  l.filter fun e => decide (e.1 < lo) || decide (hi ≤ e.1)

/-- Every key of a sparse store lies above a bound, keys rise, and no entry holds what an unlisted key reads as. -/
def swfFrom {α : Type} [DecidableEq α] (dflt : Nat → α) : Option Nat → List (Nat × α) → Bool
  | _, [] => true
  | b, (k, v) :: r =>
    (match b with | none => true | some m => decide (m < k)) && decide (v ≠ dflt k) && swfFrom dflt (some k) r

/-- The canonical form of a sparse store. -/
def swf {α : Type} [DecidableEq α] (dflt : Nat → α) (l : List (Nat × α)) : Bool := swfFrom dflt none l

end Sys2Proof.Machine
end

