-- ==== Sys2Proof/Machine/Control.lean ====
section
/-! DEFINITION. The control space (R533, Table 23.1): every control word, its fields, their access codes (Table 0.4) and
reset values, written as data from the field maps of the spec's tables. A field the tables call reserved is not listed:
a bit that no field covers reads 0 and a write to it is ignored (R8). -/
namespace Sys2Proof.Machine

/-- The access codes of Table 0.4. -/
inductive Access where | ro | rw | w1c | wo | rwl
  deriving DecidableEq, Repr

/-- One field of a control word: lowest bit, width, access code, reset value. -/
structure Field where
  lo    : Nat
  width : Nat
  acc   : Access
  reset : Nat
  deriving DecidableEq, Repr

/-- The bits a field covers, as a mask. -/
def Field.mask (f : Field) : Nat := (2 ^ f.width - 1) * 2 ^ f.lo

/-- One row of a field map: `count` words from `addr` on, `stride` apart, of the same fields. -/
structure WordSpec where
  addr   : Nat
  count  : Nat
  stride : Nat
  name   : String
  fields : List Field
  deriving DecidableEq, Repr

/-- An RO field. -/
def ro (lo width : Nat) (reset : Nat := 0) : Field := ⟨lo, width, .ro, reset⟩
/-- An RW field. -/
def rw (lo width : Nat) (reset : Nat := 0) : Field := ⟨lo, width, .rw, reset⟩
/-- A W1C field. -/
def w1c (lo width : Nat) (reset : Nat := 0) : Field := ⟨lo, width, .w1c, reset⟩
/-- A WO field. -/
def wo (lo width : Nat) : Field := ⟨lo, width, .wo, 0⟩
/-- An RWL field. -/
def rwl (lo width : Nat) (reset : Nat := 0) : Field := ⟨lo, width, .rwl, reset⟩
/-- One word. -/
def wd (addr : Nat) (name : String) (fields : List Field) : WordSpec := ⟨addr, 1, 1, name, fields⟩
/-- Several words of the same fields. -/
def wds (addr count stride : Nat) (name : String) (fields : List Field) : WordSpec := ⟨addr, count, stride, name, fields⟩

/-- Identity, modes, power and thermal (Tables 0.2, 1.5, 3.10, 20.11). -/
def wordsIdent : List WordSpec := [
  wd 0x0000 "IDENT_PART" [ro 0 32 0x4B581640],
  wd 0x0001 "IDENT_STEPPING" [ro 8 8 0x42, ro 0 8 0x01],
  wd 0x0002 "IDENT_VARIANT" [ro 0 1],
  wd 0x0004 "IDENT_DEVID_LO" [ro 0 32],
  wd 0x0005 "IDENT_DEVID_HI" [ro 0 32],
  wd 0x0008 "IDENT_DIES" [ro 2 1, ro 1 1, ro 0 1],
  wd 0x0010 "MODE_STATE" [ro 16 16, ro 8 1, ro 4 4 2, ro 0 4 2],
  wd 0x0011 "MODE_REQUEST" [wo 0 4],
  wd 0x0012 "MODE_STRAPS" [ro 2 1, ro 0 2],
  wd 0x0013 "MODE_RESET_CAUSE" [w1c 0 5],
  wd 0x0014 "MODE_BOOT_STATUS" [ro 16 16, ro 4 4, ro 3 1, ro 2 1, ro 0 2],
  wd 0x0015 "MODE_WAKE_ENABLE" [rw 0 3 1],
  wd 0x0016 "MODE_WAKE_CAUSE" [w1c 0 3],
  wd 0x0017 "MODE_ALARM" [rw 0 32],
  wd 0x0018 "MODE_RAIL_STATUS" [ro 0 11],
  wd 0x0019 "MODE_ADMIT_LIMIT" [rwl 0 16 1000],
  wd 0x001A "MODE_BOOT_SEQUENCE" [ro 0 32],
  wd 0x0020 "PWR_TEMP_CORE" [ro 0 16],
  wd 0x0021 "PWR_TEMP_WEST" [ro 0 16],
  wd 0x0022 "PWR_TEMP_EAST" [ro 0 16],
  wd 0x0023 "PWR_THERM" [ro 3 3, w1c 0 2],
  wd 0x0024 "PWR_VCORE" [ro 0 16]]

/-- Fabric (Table 2.8). -/
def wordsFabric : List WordSpec := [
  wd 0x0400 "FABRIC_INFLIGHT" [ro 16 11, ro 0 11],
  wd 0x0401 "FABRIC_SPEED" [ro 0 16],
  wd 0x0402 "FABRIC_STALL_LIMIT" [rwl 0 16 1000],
  wd 0x0403 "FABRIC_BLOCK_CMD" [wo 8 2, wo 0 5],
  wd 0x0404 "FABRIC_BLOCK_STATE" [ro 0 25],
  wd 0x0405 "FABRIC_DOMAIN_CLOCK" [ro 0 25],
  wd 0x0406 "FABRIC_DOMAIN_LOST" [w1c 0 25],
  wd 0x0407 "FABRIC_ABORT_COUNT" [ro 0 32],
  wd 0x0408 "FABRIC_POISON_COUNT" [ro 0 32],
  wd 0x0409 "FABRIC_PROBE_SEL" [rw 0 8],
  wd 0x040A "FABRIC_PROBE_HS" [ro 0 32],
  wd 0x040B "FABRIC_PROBE_WAIT" [ro 0 32],
  wd 0x040C "FABRIC_CONTROL" [wo 0 1]]

/-- Cores and the authority unit (Table 4.8, R110). -/
def wordsCores : List WordSpec := [
  wds 0x0800 8 0x40 "CORE_STATE" [ro 16 3, ro 8 8, ro 0 3],
  wds 0x0801 8 0x40 "CORE_CONTROL" [rw 2 1, wo 1 1, wo 0 1],
  wds 0x0802 8 0x40 "CORE_START_PC" [rw 0 32],
  wds 0x0803 8 0x40 "CORE_TRAP_VECTOR" [rw 0 32],
  wds 0x0804 8 0x40 "CORE_TRAP_CAUSE" [ro 0 4],
  wds 0x0805 8 0x40 "CORE_TRAP_PC" [ro 0 32],
  wds 0x0806 8 0x40 "CORE_TRAP_F" [ro 0 32],
  wds 0x0807 8 0x40 "CORE_TRAP_ADDR_LO" [ro 0 32],
  wds 0x0808 8 0x40 "CORE_TRAP_ADDR_HI" [ro 0 32],
  wds 0x0809 8 0x40 "CORE_WDOG_LIMIT" [rw 0 16],
  wds 0x080A 8 0x40 "CORE_WDOG_KICK" [wo 0 32],
  wds 0x080B 8 0x40 "CORE_GRANT" [rw 0 23 0x7FFFFF],
  wds 0x080C 8 0x40 "CORE_EVENT_PENDING" [ro 0 32],
  wds 0x080D 8 0x40 "CORE_TACK_STATS" [ro 16 16, ro 7 9, ro 0 7],
  wds 0x0810 8 0x40 "CORE_QBIND0" [rw 31 1, rw 8 1, rw 0 8],
  wds 0x0811 8 0x40 "CORE_QBIND1" [rw 31 1, rw 8 1, rw 0 8],
  wds 0x0812 8 0x40 "CORE_QBIND2" [rw 31 1, rw 8 1, rw 0 8],
  wds 0x0813 8 0x40 "CORE_QBIND3" [rw 31 1, rw 8 1, rw 0 8],
  wds 0x0814 8 0x40 "CORE_QBIND4" [rw 31 1, rw 8 1, rw 0 8],
  wds 0x0815 8 0x40 "CORE_QBIND5" [rw 31 1, rw 8 1, rw 0 8],
  wds 0x0816 8 0x40 "CORE_QBIND6" [rw 31 1, rw 8 1, rw 0 8],
  wds 0x0817 8 0x40 "CORE_QBIND7" [rw 31 1, rw 8 1, rw 0 8],
  wds 0x0A00 17 1 "AUTH_LEVEL" [rwl 0 3],
  wd 0x0A11 "AUTH_CONFLICTS" [ro 0 32]]

/-- Banks (Table 10.3). -/
def wordsBanks : List WordSpec := [
  wds 0x1000 32 1 "BANK_OWNER" [ro 8 1 1, ro 0 5 31],
  wd 0x1020 "BANK_POWER" [rw 0 32 0xFFFFFFFF],
  wd 0x1021 "BANK_RECLAIM" [wo 8 1, wo 0 5],
  wd 0x1022 "BANK_PARITY_COUNT" [ro 0 32],
  wd 0x1023 "BANK_PARITY_ADDR" [ro 24 5, ro 0 22],
  wd 0x1024 "BANK_REFUSED_COUNT" [ro 0 32]]

/-- DC0 and DC1 (Table 9.7): DRAM_MAP and DRAM_MAP_TOP exist in DC0 only. -/
def wordsDram : List WordSpec := [
  wd 0x1400 "DRAM_MAP" [ro 8 1, rw 4 1 1, rw 0 4 4],
  wd 0x1401 "DRAM_MAP_TOP" [ro 0 32],
  wds 0x1410 2 0x400 "DRAM_GEOM" [rw 10 1, ro 8 2, ro 4 4, ro 2 2, ro 0 2],
  wds 0x1411 2 0x400 "DRAM_STATUS" [ro 16 4, ro 8 8 0xE4, ro 3 3, ro 0 3],
  wds 0x1412 2 0x400 "DRAM_SPEED_MAX" [rwl 0 3],
  wds 0x1413 2 0x400 "DRAM_REFRESH" [ro 8 1, ro 4 4, rwl 1 3 4, rwl 0 1],
  wds 0x1414 2 0x400 "DRAM_TEMP" [ro 16 2, rw 8 8, rwl 0 1],
  wds 0x1415 2 0x400 "DRAM_SR" [ro 20 1, rw 4 16 1000, rw 0 1],
  wds 0x1416 2 0x400 "DRAM_SCRUB" [rw 16 1 1, rw 0 16 24],
  wds 0x1417 2 0x400 "DRAM_ECC" [rw 0 1 1],
  wds 0x1418 2 0x400 "DRAM_CE_COUNT" [ro 0 32],
  wds 0x1419 2 0x400 "DRAM_UE_COUNT" [ro 0 32],
  wds 0x141A 2 0x400 "DRAM_ERR_ADDR_LO" [ro 0 32],
  wds 0x141B 2 0x400 "DRAM_ERR_ADDR_HI" [ro 0 32],
  wds 0x141C 2 0x400 "DRAM_ERR_INFO" [ro 8 8, ro 3 1, ro 2 1, ro 0 2],
  wds 0x141D 2 0x400 "DRAM_SPARE_CMD" [wo 2 1, wo 0 2],
  wds 0x141E 2 0x400 "DRAM_MIG" [ro 8 24, rwl 0 8 25],
  wds 0x141F 2 0x400 "DRAM_CONTROL" [wo 0 1],
  wds 0x1420 2 0x400 "DRAM_QOS_TARGET0" [rwl 0 20 2000],
  wds 0x1421 2 0x400 "DRAM_QOS_TARGET1" [rwl 0 20 20000],
  wds 0x1422 2 0x400 "DRAM_QOS_TARGET2" [rwl 0 20 2000],
  wds 0x1423 2 0x400 "DRAM_QOS_TARGET3" [rwl 0 20 10000],
  wds 0x1424 2 0x400 "DRAM_QOS_TARGET4" [rwl 0 20 10000],
  wds 0x1425 2 0x400 "DRAM_QOS_TARGET5" [rwl 0 20 50000],
  wds 0x1426 2 0x400 "DRAM_QOS_TARGET6" [rwl 0 20 1000],
  wds 0x1427 2 0x400 "DRAM_QOS_TARGET7" [rwl 0 20 20000],
  wds 0x1428 2 0x400 "DRAM_QOS_TARGET8" [rwl 0 20 100000],
  wds 0x1429 2 0x400 "DRAM_QOS_TARGET9" [rwl 0 20 100000],
  wds 0x142A 2 0x400 "DRAM_QOS_TARGET10" [rwl 0 20 100000],
  wds 0x142B 2 0x400 "DRAM_QOS_TARGET11" [rwl 0 20 200000],
  wds 0x1430 12 1 "DRAM_OVERDUE (DC0)" [ro 0 32],
  wds 0x1830 12 1 "DRAM_OVERDUE (DC1)" [ro 0 32]]

/-- Network (Tables 7.6, 7.7, R191). NET_STREAM words are RWL words of 32 bits (Table 7.6 gives them no field split). -/
def wordsNet : List WordSpec := [
  wds 0x1C00 2 1 "NET_PORT_CFG" [rwl 9 3, rwl 8 1 1, rwl 5 3 1, rwl 2 1, rwl 0 2 1],
  wd 0x1C02 "NET_PORT_STATUS" [ro 4 2, ro 2 2, ro 1 1, ro 0 1],
  wds 0x1C03 2 1 "NET_PORT_ASYM" [rwl 0 32],
  wd 0x1C05 "NET_HOST_PCP" [rw 0 3 6],
  wd 0x1C06 "NET_RX_RING" [rwl 0 16 1024],
  wd 0x1C07 "NET_QBV_CTRL" [rwl 1 1, rwl 0 1],
  wds 0x1C10 12 1 "NET_DROPS" [ro 0 32],
  wds 0x1C20 12 1 "NET_STREAM" [rwl 0 32],
  wds 0x1C40 32 1 "NET_QBV_LIST" [rwl 24 8, rwl 0 24],
  wds 0x1D00 128 2 "E131_MAP word 0" [rw 31 1, rw 30 1, rw 29 1, rw 0 16],
  wds 0x1D01 128 2 "E131_MAP word 1" [rw 22 10, rw 12 10, rw 0 8],
  wds 0x1E00 128 1 "E131_FALLBACK" [rw 0 16]]

/-- Time and tacks (Table 7.8). -/
def wordsTime : List WordSpec := [
  wd 0x2000 "TIME_NOW_LO" [ro 0 32],
  wd 0x2001 "TIME_NOW_HI" [ro 0 32],
  wd 0x2002 "TIME_STATE" [ro 0 2],
  wd 0x2003 "TIME_OFFSET" [ro 0 32],
  wd 0x2004 "TIME_RATE" [ro 0 32],
  wd 0x2005 "TIME_SERVO" [rwl 0 2 1],
  wd 0x2006 "TIME_HOLDOVER_LIMIT" [rwl 0 16 60],
  wd 0x2007 "TIME_CONTROL" [wo 0 1],
  wd 0x2008 "TIME_TACKS" [ro 0 10]]

/-- Holros (Table 8.8, R221). -/
def wordsHolros : List WordSpec := [
  wd 0x2400 "HOL_STATUS" [ro 16 5, ro 8 4, ro 2 1, ro 0 2],
  wds 0x2401 2 1 "HOL_PORT" [ro 16 2 3, ro 8 8, ro 0 8],
  wd 0x2403 "HOL_PORT_CTRL" [wo 1 1, wo 0 1],
  wd 0x2404 "HOL_CONFIG" [rwl 3 1 1, rwl 1 2, rwl 0 1],
  wd 0x2405 "HOL_HEST" [ro 3 1, ro 2 1, wo 1 1, wo 0 1],
  wd 0x2406 "HOL_CYCLE" [ro 0 32],
  wd 0x2407 "HOL_MASTER_ID_LO" [ro 0 32],
  wd 0x2408 "HOL_MASTER_ID_HI" [ro 0 32],
  wds 0x2409 2 1 "HOL_LINK_DELAY" [ro 0 16],
  wd 0x240B "HOL_SLOT_ABSENT" [ro 0 32],
  wd 0x240C "HOL_RESET_CMD" [wo 0 16],
  wds 0x2410 32 1 "HOL_EMERGENCY" [ro 0 32]]

/-- Panel engine, pixel path (Table 11.7). The slot words lie at 0x2810 + 0x10 × s. -/
def wordsPanel : List WordSpec := [
  wd 0x2800 "PANEL_GEOM" [rw 16 12, rw 0 13],
  wd 0x2801 "PANEL_STORE" [rw 8 3 3, ro 4 1, rw 0 2],
  wds 0x2802 2 1 "PANEL_STORE_BASE" [rw 0 32],
  wds 0x2804 2 1 "PANEL_FALLBACK_BASE" [rw 0 32],
  wd 0x2806 "PANEL_FALLBACK_MIB" [rw 0 16],
  wd 0x2807 "PANEL_TABLES" [ro 24 5 31, rw 16 5 31, rw 2 1, rw 1 1, rw 0 1],
  wds 0x2808 2 1 "PANEL_COMP_BASE" [rw 0 32],
  wd 0x280A "PANEL_TILE" [rw 16 16 64, rw 0 16 64],
  wd 0x280B "PANEL_SEAM" [rw 0 5 8],
  wd 0x280C "PANEL_DITHER" [rw 0 5 16],
  wd 0x280D "PANEL_BACKGROUND" [rw 20 10, rw 10 10, rw 0 10],
  wds 0x280E 2 1 "PANEL_OD_REF_BASE" [rw 0 32],
  wds 0x2810 2 0x10 "SLOT_CTRL" [rw 31 1, rw 0 2],
  wds 0x2811 2 0x10 "SLOT_CROP" [rw 16 12, rw 0 13],
  wds 0x2812 2 0x10 "SLOT_SIZE" [rw 16 12, rw 0 13],
  wds 0x2813 2 0x10 "SLOT_PLACE" [rw 16 12, rw 0 13],
  wds 0x2814 2 0x10 "SLOT_DELAY" [rw 0 20],
  wds 0x2815 2 0x10 "SLOT_SLEEP" [rw 0 9 100],
  wds 0x2816 2 0x10 "SLOT_STATUS" [ro 8 2, ro 0 2],
  wds 0x2817 2 0x10 "SLOT_INCOMPLETE" [ro 0 32],
  wds 0x2818 2 0x10 "SLOT_SKIPPED" [ro 0 32],
  wds 0x2819 2 0x10 "SLOT_MATRIX0" [rw 16 16, rw 0 16 0x2000],
  wds 0x281A 2 0x10 "SLOT_MATRIX1" [rw 16 16, rw 0 16],
  wds 0x281B 2 0x10 "SLOT_MATRIX2" [rw 16 16, rw 0 16 0x2000],
  wds 0x281C 2 0x10 "SLOT_MATRIX3" [rw 16 16, rw 0 16],
  wds 0x281D 2 0x10 "SLOT_MATRIX4" [rw 16 16, rw 0 16 0x2000],
  wds 0x281E 2 0x10 "SLOT_IN_OFF" [rw 20 10, rw 10 10, rw 0 10],
  wds 0x2830 2 1 "PANEL_PLAY_BASE" [rw 0 32],
  wd 0x2832 "PANEL_PLAY" [rw 0 3],
  wd 0x2833 "PANEL_PLAY_READY" [wo 0 2],
  wd 0x2834 "PANEL_POISON_COUNT" [ro 0 32]]

/-- Panel engine, scan-out (Table 12.12). SCAN_L_REG0–2 are RO, 3–15 RW. -/
def wordsScan : List WordSpec := [
  wd 0x2840 "SCAN_CTRL" [rw 8 2, rw 4 2, rw 1 1, rw 0 1],
  wd 0x2841 "SCAN_PERIOD" [rw 0 32 1066666667],
  wds 0x2842 2 1 "SCAN_PHASE" [rw 0 32],
  wd 0x2844 "SCAN_STATUS" [ro 8 24, ro 5 1, ro 0 3],
  wd 0x2845 "SCAN_APPLIED" [ro 0 32],
  wd 0x2846 "SCAN_UNDERRUNS" [ro 0 32],
  wd 0x2847 "SCAN_FSYNC_IGNORED" [ro 0 32],
  wd 0x2850 "SCAN_E_GEOM" [rw 16 3, rw 8 6, rw 0 3 4],
  wd 0x2851 "SCAN_E_TIMING" [rw 24 6, rw 8 9 20, rw 0 4],
  wd 0x2852 "SCAN_E_CURRENT" [rw 0 8 255],
  wd 0x2853 "SCAN_E_CMD" [wo 1 1, wo 0 1],
  wd 0x2860 "SCAN_L_LINK" [rw 4 2 2, rw 0 4 12],
  wd 0x2861 "SCAN_L_VTOTAL" [rw 0 12],
  wd 0x2862 "SCAN_L_GATE" [rw 2 2 1, rw 0 2],
  wd 0x2863 "SCAN_L_GCK" [rw 16 16, rw 0 16],
  wd 0x2864 "SCAN_L_GST" [rw 16 16, rw 0 16],
  wd 0x2865 "SCAN_L_GOE" [rw 0 16],
  wd 0x2866 "SCAN_L_CTRL" [wo 0 1],
  wds 0x2870 3 1 "SCAN_L_REG0-2" [ro 0 16],
  wds 0x2873 13 1 "SCAN_L_REG3-15" [rw 0 16]]

/-- LED west and east (Table 13.6). -/
def wordsLed : List WordSpec := [
  wds 0x3000 2 0x400 "LED_CFG" [rw 24 1, rw 16 3, rw 8 4, rw 0 5 12],
  wds 0x3001 2 0x400 "LED_PERIOD" [ro 0 32],
  wds 0x3002 2 0x400 "LED_APPLIED" [ro 0 32],
  wds 0x3003 2 0x400 "LED_BUDGET" [ro 16 1, ro 0 14],
  wds 0x3004 2 0x400 "LED_VSHORT" [rw 0 6 20],
  wds 0x3005 2 0x400 "LED_GDARK" [ro 0 16],
  wds 0x3006 2 0x400 "LED_GDARK_CLEAR" [wo 0 16],
  wds 0x3007 2 0x400 "LED_FADE_GO" [wo 0 32],
  wds 0x3008 4 1 "LED_NTC_PARAM (west)" [rw 16 16 3950, rw 0 16 1000],
  wds 0x3408 4 1 "LED_NTC_PARAM (east)" [rw 16 16 3950, rw 0 16 1000],
  wds 0x300C 4 1 "LED_NTC_TEMP (west)" [ro 16 2, ro 0 16],
  wds 0x340C 4 1 "LED_NTC_TEMP (east)" [ro 16 2, ro 0 16],
  wds 0x3010 2 0x400 "LED_DERATE0" [rw 16 16 600, rw 0 16 0x8000],
  wds 0x3011 2 0x400 "LED_DERATE1" [rw 16 16 750, rw 0 16 0x6000],
  wds 0x3012 2 0x400 "LED_DERATE2" [rw 16 16 900, rw 0 16 0x4000],
  wds 0x3013 2 0x400 "LED_DERATE3" [rw 16 16 1000, rw 0 16 0x2000],
  wds 0x3014 2 0x400 "LED_MATRIX" [ro 31 1, rw 16 5 31, rw 8 2, rw 0 8 2],
  wds 0x3015 2 0x400 "LED_MATRIX_SWAP" [wo 0 1],
  wds 0x3016 2 0x400 "LED_MATRIX_SWAPPED" [ro 0 32],
  wds 0x3040 32 4 "LED_CH_LEVEL (west)" [rw 24 8, rw 0 16],
  wds 0x3041 32 4 "LED_CH_CFG (west)" [rw 24 6, rw 20 2, rw 16 1, rw 4 5 22, rw 0 2],
  wds 0x3042 32 4 "LED_CH_FADE (west)" [rw 16 16, rw 0 16 1000],
  wds 0x3043 32 4 "LED_CH_DIAG (west)" [ro 18 1, w1c 17 1, w1c 16 1, rw 8 5, rw 4 1 1, rw 0 2 1],
  wds 0x3440 32 4 "LED_CH_LEVEL (east)" [rw 24 8, rw 0 16],
  wds 0x3441 32 4 "LED_CH_CFG (east)" [rw 24 6, rw 20 2, rw 16 1, rw 4 5 22, rw 0 2],
  wds 0x3442 32 4 "LED_CH_FADE (east)" [rw 16 16, rw 0 16 1000],
  wds 0x3443 32 4 "LED_CH_DIAG (east)" [ro 18 1, w1c 17 1, w1c 16 1, rw 8 5, rw 4 1 1, rw 0 2 1],
  wds 0x3100 256 1 "LED_MATRIX_DATA (west)" [wo 0 32],
  wds 0x3500 256 1 "LED_MATRIX_DATA (east)" [wo 0 32]]

/-- Axes (Table 15.6, R405). -/
def wordsAxes : List WordSpec := [
  wds 0x3800 4 0x40 "AXIS_CTRL" [rw 31 1, wo 30 1, rw 29 1, rw 28 1, rw 24 2, rw 20 2, rw 17 1, rw 16 1, rw 12 1,
    rw 11 1, rw 8 1 1],
  wds 0x3801 4 0x40 "AXIS_STATUS" [ro 28 4, ro 24 4, ro 21 1, ro 20 1, ro 19 1, ro 18 1, ro 17 1, ro 16 1, ro 0 4],
  wds 0x3802 4 0x40 "AXIS_PWM" [rw 0 19 20000],
  wds 0x3803 4 0x40 "AXIS_MOTOR" [rw 24 6, rw 0 16 3000],
  wds 0x3804 4 0x40 "AXIS_KE" [rw 0 32],
  wds 0x3805 4 0x40 "AXIS_RL" [rw 16 16, rw 0 16],
  wds 0x3806 4 0x40 "AXIS_IBASE" [rw 0 24 10000],
  wds 0x3807 4 0x40 "AXIS_ILIM" [rw 16 16 0x2000, rw 0 16 0x7FFF],
  wds 0x3808 4 0x40 "AXIS_W_SC" [ro 0 32 0xFFFFFFFF],
  wds 0x3809 4 0x40 "AXIS_CUR_OFF_A" [rw 0 24],
  wds 0x380A 4 0x40 "AXIS_CUR_OFF_B" [rw 0 24],
  wds 0x380B 4 0x40 "AXIS_CUR_GAIN" [rw 0 32 0x00010000],
  wds 0x380C 4 0x40 "AXIS_VBUS" [rw 28 4, rw 0 24],
  wds 0x380D 4 0x40 "AXIS_ENC" [rw 0 32],
  wds 0x380E 4 0x40 "AXIS_SSI" [rw 24 6 25, rw 20 1, rw 19 1, rw 8 8 20, rw 0 8 20],
  wds 0x380F 4 0x40 "AXIS_ABZ" [rw 24 4 2, rw 16 2, rw 0 16 4],
  wds 0x3810 4 0x40 "AXIS_ANGLE_OFFSET" [rw 0 32],
  wds 0x3811 4 0x40 "AXIS_ALIGN_CFG" [rw 16 16 0x2000, rw 0 16 200],
  wds 0x3812 4 0x40 "AXIS_START" [rw 16 16 0x2000, rw 0 16 0x0100],
  wds 0x3813 4 0x40 "AXIS_START2" [rw 16 16 0x0CCD, rw 8 4 3],
  wds 0x3814 4 0x40 "AXIS_START3" [rw 16 16 500, rw 0 16 1000],
  wds 0x3815 4 0x40 "AXIS_FW" [rw 16 16 0xF333, rw 0 16 0xC000],
  wds 0x3816 4 0x40 "AXIS_FW_K" [rw 0 32],
  wds 0x3817 4 0x40 "AXIS_KE_SUP" [rw 16 8 15, rw 0 16 0x0CCD],
  wds 0x3818 4 0x40 "AXIS_KE_EST" [ro 0 32],
  wds 0x3819 4 0x40 "AXIS_BRAKE" [rw 16 16 0x7333, rw 0 16 0x4000],
  wds 0x381A 4 0x40 "AXIS_POS_LO" [ro 0 32],
  wds 0x381B 4 0x40 "AXIS_POS_HI" [ro 0 32],
  wds 0x381C 4 0x40 "AXIS_SPEED" [ro 0 32],
  wds 0x381D 4 0x40 "AXIS_ANGLE" [ro 0 32],
  wds 0x381E 4 0x40 "AXIS_ALIGN_STORED" [rwl 0 1],
  wds 0x381F 4 0x40 "AXIS_ERRORS" [ro 16 16, ro 0 16],
  wds 0x3820 16 1 "AXIS_ADV (A0)" [rw 16 16, rw 0 16],
  wds 0x3860 16 1 "AXIS_ADV (A1)" [rw 16 16, rw 0 16],
  wds 0x38A0 16 1 "AXIS_ADV (A2)" [rw 16 16, rw 0 16],
  wds 0x38E0 16 1 "AXIS_ADV (A3)" [rw 16 16, rw 0 16],
  wd 0x3900 "AXES_SDM" [rw 16 5 5, rw 0 2]]

/-- Loop engine (Table 14.6). -/
def wordsLoop : List WordSpec := [
  wds 0x4000 24 0x10 "LOOP_CTRL" [rw 31 1, rw 30 1, rw 24 3, rw 20 3, rw 16 2, rw 12 1, rw 8 1 1],
  wds 0x4001 24 0x10 "LOOP_KP" [rw 0 32],
  wds 0x4002 24 0x10 "LOOP_KI" [rw 0 32],
  wds 0x4003 24 0x10 "LOOP_KD" [rw 0 32],
  wds 0x4004 24 0x10 "LOOP_GAIN_CFG" [rw 16 5, rw 0 16 65535],
  wds 0x4005 24 0x10 "LOOP_OUT_MAX" [rw 0 32 0x7FFFFFFF],
  wds 0x4006 24 0x10 "LOOP_OUT_MIN" [rw 0 32 0x80000000],
  wds 0x4007 24 0x10 "LOOP_SP" [rw 0 32],
  wds 0x4008 24 0x10 "LOOP_SRC_CFG" [rw 27 5, rw 20 4, rw 18 1, rw 0 16],
  wds 0x4009 24 0x10 "LOOP_SRC_SCALE" [rw 0 32],
  wds 0x400A 24 0x10 "LOOP_SAT_LIMIT" [rw 0 17 10000],
  wds 0x400B 24 0x10 "LOOP_FB_IN" [rw 0 32],
  wds 0x400C 24 0x10 "LOOP_OUT" [ro 0 32],
  wds 0x400D 24 0x10 "LOOP_STATUS" [ro 8 20, ro 3 1, ro 2 1, w1c 1 1, ro 0 1],
  wds 0x400E 24 0x10 "LOOP_STAMP_SAMPLE" [ro 0 32],
  wds 0x400F 24 0x10 "LOOP_STAMP_DELAY" [rw 16 16, ro 0 16],
  wds 0x4180 4 1 "LOOP_AXIS_FB" [rwl 31 1, rw 0 16 64],
  wds 0x4184 4 1 "LOOP_AXIS_TH" [rw 16 16 0x0CCD, rw 0 16 0x0CCD],
  wd 0x4190 "LOOP_APPLY" [wo 31 1, wo 0 24]]

/-- Gate west and east (Table 16.7). GATE_TRIP_CFG exists in the west block only. -/
def wordsGate : List WordSpec := [
  wds 0x4800 2 0x400 "GATE_STATE" [ro 26 2, ro 25 1, ro 24 1, ro 20 4, ro 19 1, ro 18 1, ro 12 6, ro 0 12],
  wds 0x4801 2 0x400 "GATE_TRIP_CLEAR" [wo 0 28],
  wds 0x4802 2 0x400 "GATE_TRIP_REC" [ro 27 5, ro 0 3],
  wds 0x4803 2 0x400 "GATE_TRIP_TIME" [ro 0 32],
  wds 0x4804 2 0x400 "GATE_CLR_FILT" [rw 0 10 10],
  wds 0x4805 2 0x400 "GATE_BUS" [rw 24 8 230, rw 16 8 40],
  wds 0x4806 2 0x400 "GATE_TEST" [wo 31 1, wo 0 5],
  wds 0x4807 2 0x400 "GATE_TEST_RESULT" [ro 29 3, ro 0 10],
  wd 0x4808 "GATE_TRIP_CFG" [rwl 4 4, rwl 0 4 0xF],
  wds 0x4809 2 0x400 "GATE_LEVELS" [ro 0 28],
  wds 0x4810 2 8 "GATE_AXIS_CTRL (west)" [rw 31 1, rw 0 9 50],
  wds 0x4811 2 8 "GATE_OC (west)" [rw 16 8 200, rw 0 8 20],
  wds 0x4812 2 8 "GATE_APPLIED (west)" [ro 0 32],
  wds 0x4813 2 8 "GATE_SHOOT_COUNT (west)" [ro 0 32],
  wds 0x4814 2 8 "GATE_BOOT_UV_COUNT (west)" [ro 0 32],
  wds 0x4C10 2 8 "GATE_AXIS_CTRL (east)" [rw 31 1, rw 0 9 50],
  wds 0x4C11 2 8 "GATE_OC (east)" [rw 16 8 200, rw 0 8 20],
  wds 0x4C12 2 8 "GATE_APPLIED (east)" [ro 0 32],
  wds 0x4C13 2 8 "GATE_SHOOT_COUNT (east)" [ro 0 32],
  wds 0x4C14 2 8 "GATE_BOOT_UV_COUNT (east)" [ro 0 32],
  wds 0x4830 12 1 "GATE_CH_CFG (west)" [rw 31 1, rw 24 4 6, rw 20 4 6, rw 16 4 1, rw 12 4 10, rw 8 4 5, rw 0 8 20],
  wds 0x4C30 12 1 "GATE_CH_CFG (east)" [rw 31 1, rw 24 4 6, rw 20 4 6, rw 16 4 1, rw 12 4 10, rw 8 4 5, rw 0 8 20]]

/-- Machinery groups (Table 17.6). -/
def wordsMach : List WordSpec := [
  wds 0x5000 4 0x20 "MACH_AXIS_GROUP" [rw 31 1, rw 30 1, rw 29 1, rw 24 4, rw 16 3, rw 0 5 2],
  wds 0x5001 4 0x20 "MACH_POS_SCALE" [rw 0 32 1000],
  wds 0x5002 4 0x20 "MACH_LOCK_GAIN" [rw 16 16 0x0100, rw 0 16 0x0800],
  wds 0x5003 4 0x20 "MACH_RATIO" [rw 16 16 20, rw 0 16 0x4000],
  wds 0x5004 4 0x20 "MACH_DECEL" [rwl 16 16 0x0100, rwl 0 16 500],
  wds 0x5005 4 0x20 "MACH_SLACK" [rw 16 16 0x0666, rw 0 16 16],
  wds 0x5006 4 0x20 "MACH_SNATCH" [rw 16 16 0x2000, rw 0 16 0x0148],
  wds 0x5007 4 0x20 "MACH_SHOCK_CFG" [rwl 12 1, rwl 8 2 2, rwl 4 2 2, rwl 0 1 1],
  wds 0x5008 4 0x20 "MACH_BRAKE" [rw 24 8 150, rw 16 8 150, rw 8 8 20, rw 0 8 100],
  wds 0x5009 4 0x20 "MACH_BRAKE_CTRL" [rw 0 1],
  wds 0x500A 4 0x20 "MACH_HOLD_IQ" [rw 0 32],
  wds 0x500B 4 0x20 "MACH_HEM_LO" [rwl 0 32],
  wds 0x500C 4 0x20 "MACH_HEM_HI" [rwl 0 32],
  wds 0x500D 4 0x20 "MACH_HEM_CFG" [rwl 31 1, rwl 0 16 50],
  wds 0x500E 4 0x20 "MACH_AXIS_STATUS" [ro 24 8, ro 0 8],
  wds 0x500F 4 0x20 "MACH_POS" [ro 0 32],
  wd 0x5080 "MACH_STATE" [ro 16 16, ro 8 1, ro 0 2 3],
  wd 0x5081 "MACH_STOP_CMD" [wo 8 2, wo 0 4],
  wd 0x5082 "MACH_STOP_CLEAR" [wo 0 1],
  wd 0x5083 "MACH_FOLLOW" [rwl 0 16],
  wd 0x5084 "MACH_STILL" [rw 16 16 10, rw 0 16 0x0021]]

/-- Polder window (Table 18.4). -/
def wordsPolder : List WordSpec := [
  wd 0x5800 "POL_STATUS" [ro 16 16, ro 8 2, ro 7 1, ro 6 1, ro 4 1, ro 2 1, ro 0 1],
  wd 0x5801 "POL_SWID" [ro 16 16, ro 0 16],
  wd 0x5802 "POL_SEAL_COUNT" [ro 0 32],
  wd 0x5803 "POL_EVENT_COUNT" [ro 0 32],
  wd 0x5804 "POL_LAST_EVENT" [ro 16 16, ro 0 16],
  wd 0x5805 "POL_LAST_EVENT_TIME" [ro 0 32],
  wd 0x5806 "POL_TIME" [ro 0 32],
  wd 0x5807 "POL_RX_ERRORS" [ro 0 32],
  wds 0x5810 4 12 "POL_FWD_LO" [ro 0 32],
  wds 0x5811 4 12 "POL_FWD_HI" [ro 0 32],
  wds 0x5812 4 12 "POL_REG_LO" [ro 0 32],
  wds 0x5813 4 12 "POL_REG_HI" [ro 0 32],
  wds 0x5814 4 12 "POL_P_1S" [ro 0 32],
  wds 0x5815 4 12 "POL_DEM_FWD" [ro 0 32],
  wds 0x5816 4 12 "POL_DEM_REG" [ro 0 32],
  wds 0x5817 4 12 "POL_V_MEAN" [ro 0 32],
  wds 0x5818 4 12 "POL_I_MEAN" [ro 0 32],
  wds 0x5819 4 12 "POL_CH_FLAGS" [ro 2 1, ro 1 1, ro 0 1],
  wds 0x581A 4 12 "POL_PULSES" [ro 0 32],
  wds 0x581B 4 12 "POL_CH_CFG" [ro 8 2, ro 4 2]]

/-- Two-wire (Table 19.5). -/
def wordsTw : List WordSpec := [
  wds 0x5C00 3 0x100 "TW_CFG" [rw 31 1, rw 30 1, rw 29 1, rw 28 1, rw 24 2 1, rw 16 7 25, rw 8 7, rw 0 3 4],
  wds 0x5C01 3 0x100 "TW_WIN_CFG" [ro 16 8, rw 0 9 256],
  wds 0x5C02 3 0x100 "TW_NOTICE_ADDR" [rw 0 7 8],
  wds 0x5C03 3 0x100 "TW_NOTICE" [wo 16 1, wo 0 16],
  wds 0x5C04 3 0x100 "TW_XFER" [wo 31 1, wo 30 1, wo 16 7, wo 8 6, wo 0 6],
  wds 0x5C05 3 0x100 "TW_STATUS" [ro 29 3, ro 28 1, ro 27 1, ro 26 1, ro 25 1, ro 16 6],
  wds 0x5C06 3 0x100 "TW_CTRL" [wo 0 1],
  wds 0x5C07 3 0x100 "TW_COUNTS" [ro 16 16, ro 0 16],
  wds 0x5C08 8 1 "TW_CBUF (TW0)" [rw 0 32],
  wds 0x5D08 8 1 "TW_CBUF (TW1)" [rw 0 32],
  wds 0x5E08 8 1 "TW_CBUF (TW2)" [rw 0 32],
  wds 0x5C40 64 1 "TW_WIN (TW0)" [rw 0 32],
  wds 0x5D40 64 1 "TW_WIN (TW1)" [rw 0 32],
  wds 0x5E40 64 1 "TW_WIN (TW2)" [rw 0 32]]

/-- Security (Table 6.9). -/
def wordsSec : List WordSpec := [
  wd 0x6000 "SEC_LIFECYCLE" [ro 2 1, ro 0 2],
  wd 0x6001 "SEC_SESSIONS" [ro 0 8],
  wd 0x6002 "SEC_AGREED_LO" [ro 0 32],
  wd 0x6003 "SEC_AGREED_HI" [ro 0 32],
  wd 0x6004 "SEC_DEVICE_MAP_LO" [ro 0 32],
  wd 0x6005 "SEC_DEVICE_MAP_HI" [ro 0 32],
  wd 0x6006 "SEC_REOPEN" [ro 16 16, ro 0 16],
  wd 0x6007 "SEC_FLOOR" [ro 0 7],
  wd 0x6008 "SEC_KNP_PORT" [rwl 0 16 51640],
  wd 0x6009 "SEC_SESSION_TIMEOUT" [rwl 0 16 5000],
  wd 0x600A "SEC_KNP_DISCARDS" [ro 0 32],
  wds 0x6010 16 1 "SEC_SLOT_MAP" [ro 0 32]]

/-- Faults, trace and loss ledger (Tables 23.5, 14.7, 23.6). -/
def wordsRest : List WordSpec := [
  wd 0x6400 "FAULT_COUNT" [ro 0 32],
  wd 0x6401 "FAULT_HEAD" [ro 0 8 255],
  wd 0x6402 "FAULT_SUPPRESSED" [ro 0 32],
  wd 0x6403 "FAULT_SEL" [rw 0 8],
  wds 0x6404 4 1 "FAULT_ENTRY" [ro 0 32],
  wd 0x6408 "FAULT_CLEAR" [wo 0 1],
  wds 0x6800 8 8 "TRACE_CTRL" [rw 31 1, rw 30 1, rw 28 2, rw 24 4, rw 16 5 31, rw 12 4, rw 0 8],
  wds 0x6801 8 8 "TRACE_TAP" [rw 8 5, rw 0 4],
  wds 0x6802 8 8 "TRACE_TRIG" [rw 16 16, rw 0 4],
  wds 0x6803 8 8 "TRACE_THRESH" [rw 0 32],
  wds 0x6804 8 8 "TRACE_COUNT" [rw 16 16, rw 0 16 1024],
  wds 0x6805 8 8 "TRACE_BASE_LO" [rw 0 32],
  wds 0x6806 8 8 "TRACE_BASE_HI" [rw 0 32],
  wds 0x6807 8 8 "TRACE_STATUS" [ro 8 24, ro 0 3],
  wd 0x6840 "TRACE_FIRE" [wo 0 8],
  wds 0x6C00 12 1 "LEDGER" [ro 31 1, ro 24 4, ro 0 24],
  wd 0x6C10 "LEDGER_ACTIVE" [ro 0 12]]

/-- The 23 grant rows of Table 23.1: bit n of CORE_GRANT covers the addresses of row n, in ascending block base. Given an
address, the row it lies in, 0x400 addresses wide from the row's base. -/
def grantRow (a : Nat) : Option Nat :=
  match a / 0x400 with
  | 0 => some 0 | 1 => some 1 | 2 => some 2 | 4 => some 3 | 5 => some 4 | 6 => some 5 | 7 => some 6 | 8 => some 7
  | 9 => some 8 | 10 => some 9 | 12 => some 10 | 13 => some 11 | 14 => some 12 | 16 => some 13 | 18 => some 14
  | 19 => some 15 | 20 => some 16 | 22 => some 17 | 23 => some 18 | 24 => some 19 | 25 => some 20 | 26 => some 21
  | 27 => some 22 | _ => none

/-- The block of Table 2.6 behind whose sluice the words of a row lie. The polder window is block 21, the trace words
block 24, security 23; identity, fabric, cores, banks, time, faults and ledger are system units behind block 11 (R547),
and the network words lie behind the switch, block 10. -/
def blockOfAddr (a : Nat) : Nat :=
  match a / 0x400 with
  | 5 => 8 | 6 => 9 | 7 => 10 | 9 => 12 | 10 => 13 | 12 => 14 | 13 => 15 | 14 => 16 | 16 => 17 | 18 => 18 | 19 => 19
  | 20 => 20 | 22 => 21 | 23 => 22 | 24 => 23 | 26 => 24 | _ => 11

/-- The field maps of the row of Table 23.1 that holds the address. -/
def specsOf (a : Nat) : List WordSpec :=
  match a / 0x400 with
  | 0 => wordsIdent | 1 => wordsFabric | 2 => wordsCores | 4 => wordsBanks | 5 => wordsDram | 6 => wordsDram
  | 7 => wordsNet | 8 => wordsTime | 9 => wordsHolros | 10 => wordsPanel ++ wordsScan | 12 => wordsLed | 13 => wordsLed
  | 14 => wordsAxes | 16 => wordsLoop | 18 => wordsGate | 19 => wordsGate | 20 => wordsMach | 22 => wordsPolder
  | 23 => wordsTw | 24 => wordsSec | 25 => wordsRest | 26 => wordsRest | 27 => wordsRest | _ => []

/-- Does a row of a field map cover the address? -/
def WordSpec.covers (w : WordSpec) (a : Nat) : Bool :=
  decide (w.addr ≤ a) && decide ((a - w.addr) % w.stride = 0) && decide ((a - w.addr) / w.stride < w.count)

/-- The fields of the word at an address; no fields where no word is defined (R8). -/
def fieldsAt (a : Nat) : List Field :=
  match (specsOf a).find? (·.covers a) with
  | some w => w.fields
  | none => []

/-- A word is defined at the address (R8, R533). -/
def wordDefined (a : Nat) : Bool := (specsOf a).any (·.covers a)

/-- The bits of the fields of a list that have one of the given access codes. -/
def maskOf (p : Access → Bool) : List Field → Nat
  | [] => 0
  | f :: fs => (if p f.acc then f.mask else 0) ||| maskOf p fs

/-- The value the fields of a list take at reset. -/
def resetOf : List Field → Nat
  | [] => 0
  | f :: fs => (f.reset % 2 ^ f.width) * 2 ^ f.lo ||| resetOf fs

/-- The value of the word at an address right after reset (the Reset column); 0 where no word is defined. -/
def resetWord (a : Nat) : Word := BitVec.ofNat 32 (resetOf (fieldsAt a))

end Sys2Proof.Machine
end

