-- ==== Sys2Proof/Machine/State.lean ====
section
/-! DEFINITION. The state of the KX1640 as plain data. Every control word that is stored as written lives in `words`
(its one home); what the spec describes with a shape of its own (the cores, queues, tacks, banks, sessions, buffers,
sequencers) has a field of its own, and the control words that show it are composed where they are read
(Machine/Access.lean). The default value of a field is its reset value; INVENTORY.md lists each with its rule. -/
namespace Sys2Proof.Machine

/-- The twelve modes of Table 3.1. -/
inductive Mode where
  | dormant | standby | boot | admission | run | hold | quiet | degraded | stop | trip | maintenance | update
  deriving DecidableEq, Repr

/-- The life cycle of a part (R157). -/
inductive LifeCycle where | blank | opened | sealed
  deriving DecidableEq, Repr

/-- What a block of Table 2.6 is to the fabric: not yet admitted since reset, admitted, out, or out until the next
device reset because its credit check failed (Table 2.7). -/
inductive BlockPhase where | fresh | admitted | out | mismatched
  deriving DecidableEq, Repr

/-- The flags word F by its fields (Table 4.2). -/
structure Flags where
  z    : Bool := false
  n    : Bool := false
  c    : Bool := false
  v    : Bool := false
  t    : Bool := false
  late : Bool := false
  deriving DecidableEq, Repr

/-- What a core is doing: CORE_STATE.STATE (Table 4.8), with the mask and register of a WAIT in progress (R84) and the
bank and register of a BTAKE whose bank is being filled (R260). A running core whose F.T is 1 reads as in trap. -/
inductive CoreStatus where
  | halted
  | running
  | waiting (mask : Word) (rd : Reg)
  | filling (bank : BankId) (rd : Reg)
  | doubleTrap
  deriving DecidableEq, Repr

/-- A far access of a core on its way to DRAM (R77–R80). -/
structure FarReq where
  tag   : Nat
  store : Bool
  wide  : Bool
  rd    : Reg
  addr  : DWord
  data  : Bytes
  deriving DecidableEq, Repr

/-- The reply to a far access, waiting to be taken by its core (R80). -/
structure FarReply where
  req    : FarReq
  status : Status
  data   : Bytes
  deriving DecidableEq, Repr

/-- One control-space access of an open run (R128): the pc of its instruction, its control address, its reply. -/
structure RunEntry where
  pc     : Word
  addr   : Nat
  status : Status
  rd     : Option Reg
  deriving DecidableEq, Repr

/-- One Epiezil core: the architectural state of Table 4.1, its trap words (Table 4.8), its latched events (Table 4.3)
and what it has outstanding. -/
structure Core where
  g          : Vector Word 16 := Vector.replicate 16 0
  pc         : Word := 0
  f          : Flags := {}
  t          : Vector DWord 4 := Vector.replicate 4 0
  status     : CoreStatus := .halted
  entryWait  : Bool := false
  events     : Word := 0
  trapCause  : BitVec 4 := 0
  trapPc     : Word := 0
  trapF      : Word := 0
  trapLo     : Word := 0
  trapHi     : Word := 0
  held       : List (Nat × DWord) := []
  csRun      : List RunEntry := []
  farTag     : Nat := 0
  farOut     : List FarReq := []
  farWait    : List FarReq := []
  farReplies : List FarReply := []
  kickAt     : Nat := 0
  wdogFired  : Bool := false
  step       : Bool := false               -- a test engineer's single step runs (Table 6.7)
  lateRun    : Nat := 0
  dropped    : Nat := 0
  deriving DecidableEq, Repr

/-- An entry of a program queue with the core that sent it (R28). -/
structure QEntry where
  core : Nat
  val  : Word
  deriving DecidableEq, Repr

/-- A pending tack (R85, Table 4.4): its slot, the placing core, the descriptor's fields, its value, the time of its
next instance, its period in 8 ns units, the placing core's grants as they stood at admission, and whether that
instance has been handed to a retimer (R183). -/
structure Tack where
  slot   : Nat
  core   : CoreId
  kind   : Nat
  policy : Nat
  cls    : Nat
  target : Nat
  value  : Word
  time   : DWord
  period : Option Nat
  grant  : Word
  handed : Bool := false
  deriving DecidableEq, Repr

/-- An action handed to an output retimer, waiting for its slot (R183, R550). -/
structure Launch where
  slot   : Nat
  core   : CoreId
  kind   : Nat
  target : Nat
  value  : Word
  time   : DWord
  grant  : Word
  deriving DecidableEq, Repr

/-- An order before the authority unit (Table 4.5): who sent it and where its reply goes. -/
structure Order where
  kind    : Nat
  source  : Nat
  sender  : Option CoreId
  obj     : BitVec 16
  speed   : Word
  payload : List Word
  time    : Nat               -- when it was admitted
  cycle   : Nat               -- the merge cycle of its admission
  session : Nat               -- the KNP session it came on
  came    : Nat               -- the datagrams it came in there (R146)
  deriving DecidableEq, Repr

/-- A bank as the banks block sees it (R253, R260): its owner's receiver code and whether it is powered; while a
power-up fill runs, that it runs, and the cores whose BTAKEs wait for it, in the order of their admission (R261). -/
structure Bank where
  owner   : Nat := 31
  powered : Bool := true
  filling : Bool := false
  takers  : List CoreId := []
  deriving DecidableEq, Repr

/-- One entry of the fault record (R535). -/
structure FaultEntry where
  code : BitVec 16
  unit : BitVec 16
  data : Word
  time : DWord
  deriving DecidableEq, Repr

/-- The fault record in the always-on domain (R534, R536): the entries, newest first, and when each limited code and
unit was last written. -/
structure FaultRecord where
  count      : Nat := 0
  head       : Nat := 255
  suppressed : Nat := 0
  ring       : List FaultEntry := []
  limited    : List ((Nat × Nat) × Nat) := []
  deriving DecidableEq, Repr

/-- An edge die as the core die sees it, and its own safe state (R18, R21, R22, R55). -/
structure EdgeDie where
  lost      : Bool := false
  safe      : Bool := false
  safeAt    : Nat := 0
  ledsOff   : Bool := false
  sarAt     : Nat := 0             -- the end of the SAR's last conversion (R379)
  deriving DecidableEq, Repr

/-- The mode arbiter and the start-up sequence (R50–R73): the mode and the one before it, the degraded latch (R51), a
category 0 demand held through Boot and Admission (R67), and what the sequence from reset release to the end of
Admission has reached. -/
structure Modes where
  mode       : Mode := .boot
  previous   : Mode := .boot
  changes    : BitVec 16 := 0
  degraded   : Bool := false
  cat0Held   : Bool := false
  resetN     : Bool := true            -- the level of the RESET_N ball
  held       : Bool := false           -- the core die is held in reset (Table 3.4, R508)
  railHold   : Bool := false           -- held until the core-die rails have been in range for 2 ms (R54)
  holdHot    : Bool := false           -- held for a core-die thermal shutdown (R508)
  hotSaid    : BitVec 3 := 0           -- DIE_HOT raised, until the die has fallen 5 °C (R508)
  porEnded   : Bool := true            -- the internal power-on reset has ended since VAON came up (R501)
  railsInAt  : Nat := 0                -- when the last core-die rail came into its window
  released   : Nat := 0                -- when reset was released (Table 3.8)
  standbyAt  : Nat := 0                -- when Standby was entered (R63)
  entering   : Option Mode := none     -- Standby is being entered from this mode (R69)
  entryCores : BitVec 8 := 0           -- ENTRY_CORES of the accepted image
  entryPc    : Word := 0
  loadBanks  : Word := 0
  reqFeat    : DWord := 0
  wired      : Bool := false           -- the static wiring checks are complete
  started    : Bool := false           -- the feature check is complete and the entry cores are started
  ready      : BitVec 8 := 0           -- the entry programs that have reported ready
  lateRaised : Bool := false           -- ADMIT_TIMEOUT has been raised
  failed     : List (WiringCheck × Nat) := []
  slotFailed : Bool := false           -- the primary boot slot has been rejected (R62)
  slotsEnded : Bool := false           -- both have been: no quad-SPI transfer runs (R34, R62)
  strapped   : Bool := false           -- the straps have been latched since reset (R58)
  deriving DecidableEq, Repr

/-- A brake output and the coil it drives (R441). -/
inductive BrakePhase where | set | proving | energised | released
  deriving DecidableEq, Repr

/-- A brake output: its phase, since when, and whether the current must still fall below I_MIN. -/
structure Brake where
  phase   : BrakePhase := .set
  since   : Nat := 0
  falling : Bool := false
  coil    : Nat := 0
  deriving DecidableEq, Repr

/-- A category 1 or 2 stop in progress (R440): its category, the mode it began in, when, the speed of each axis at the
demand, which axes have reached standstill, and when the brakes were set. -/
structure StopSeq where
  cat    : Nat
  origin : Mode
  since  : Nat
  speed  : Vector Int 4
  done   : Vector Bool 4
  setAt  : Option Nat
  deriving DecidableEq, Repr

/-- One axis in the machinery block: its shock detection, its hems and its group set-points (R434, R437, R442). -/
structure MachAxis where
  slack    : Bool := false
  snatch   : Bool := false
  slackRun : Nat := 0
  torque   : List Int := []       -- the lifting torque at the last grid points, newest first
  hem      : Bool := false
  overrun  : Bool := false
  spSpeed  : Option Int := none
  spQ      : Option Int := none
  own      : Bool := false        -- a torque-share leader: its own slots' outputs are its set-points (Table 17.2)
  corr     : Int := 0             -- the lock correction of the last cycle (R434, R440)
  stillAt  : Option Nat := some 0 -- since when |speed| is below STILL (R440)
  deriving DecidableEq, Repr

/-- A group member as last received (R436). -/
structure Member where
  node   : Nat
  entry  : GroupEntry
  absent : Nat
  lost   : Bool
  deriving DecidableEq, Repr

/-- The machinery-groups block. -/
structure Mach where
  brakes  : Vector Brake 4 := Vector.replicate 4 {}
  axes    : Vector MachAxis 4 := Vector.replicate 4 {}
  stop    : Option StopSeq := none
  members : List Member := []
  skewed  : List Nat := []        -- groups whose skew has been raised
  clashed : List Nat := []        -- groups whose entries disagree (R435)
  deriving DecidableEq, Repr

/-- The pulse a half-bridge forms in one period, in ticks of 2.5 ns (R411, R412): when its high switch conducts and
when its low switch conducts. -/
structure Pulse where
  high : Option (Nat × Nat) := none
  low  : List (Nat × Nat) := []
  deriving DecidableEq, Repr

/-- The current at a gate output, in mA: into the gate, out of it, or into the input of an isolated driver (R408, R418). -/
inductive GateDrive where | source (mA : Nat) | sink (mA : Nat) | iso (mA : Nat)
  deriving DecidableEq, Repr

/-- A gate output: its current now, and since when it is on. -/
structure GateOut where
  drive : GateDrive := .sink 1000
  onAt  : Option Nat := none
  deriving DecidableEq, Repr

/-- One axis's gate control in its edge die (R410, R413, R416). -/
structure GateAxis where
  shadow   : CompareGroup := ⟨0, 0, 0, 0, 0, 0⟩
  applied  : CompareGroup := ⟨0, 0, 0, 1, 1, 1⟩
  waiting  : Bool := true          -- in mode 1 until the first group after the enable applies
  fresh    : Bool := false         -- a group has been written since the last reload
  period   : Option Nat := none    -- the index of the period last reloaded
  ticks    : Nat := 0              -- its length
  reply    : Option Nat := none    -- the index that the reply to the last group carried
  pulses   : Vector Pulse 3 := Vector.replicate 3 {}
  shootRun : Nat := 0              -- consecutive periods with an event of the interlock
  shootAt  : Nat := 0              -- the last of them
  deriving DecidableEq, Repr

/-- A comparator self-test in progress (R421). -/
structure GateTest where
  comp  : Nat
  since : Nat
  deriving DecidableEq, Repr

/-- The gate blocks of both dies. The latches, records and levels are the words of Table 16.7. -/
structure Gate where
  axes      : Vector GateAxis 4 := Vector.replicate 4 {}
  quietAt   : List ((Nat × Nat) × Nat) := []   -- since when a source of a die's latch bit is inactive
  bootHold  : BitVec 24 := 0                   -- high-side channels held off (R409)
  soft      : BitVec 24 := 0                   -- channels turned off with SOFT_OFF (R415)
  outs      : Vector GateOut 24 := Vector.replicate 24 {}      -- GATE0–GATE23 (R406, R408)
  recAt     : Vector Nat 2 := Vector.replicate 2 0             -- when the trip record of a die was made (R426)
  tests     : Vector (Option GateTest) 2 := Vector.replicate 2 none
  stoSince  : Option Nat := none               -- since when the STO inputs differ
  deriving DecidableEq, Repr

/-- The states of a sensorless start (Table 15.3). -/
inductive StartState where | idle | align | ramp | handover | retry | run | fault | blind
  deriving DecidableEq, Repr

/-- One axis's motor field control (chapter 15). Currents, voltages and speeds are Q1.31 per-unit values; what the
words of Table 15.6 show lives in the words. -/
structure Axis where
  alignRow  : Nat := 0             -- the row of Table 15.2 that runs, from 1; 0 none
  alignAt   : Nat := 0
  alignCode : Nat := 0             -- the code of a row that failed, while i_d is ramped to 0
  alignPos  : Int := 0             -- the position count when the row began
  start     : StartState := .idle
  startAt   : Nat := 0
  rampSpeed : Int := 0
  rampDone  : Bool := false        -- the blind ramp of the last stop has reached 0 (R395)
  startDir  : Int := 1             -- the sign of the motion that the start is for (R391)
  tries     : Nat := 0             -- retries used by the start (R391)
  shorting  : Bool := false        -- a short is asked for (R394)
  braking   : Bool := false        -- regenerative braking before the short
  cA        : Int := 0             -- the phase codes c of the last sample
  cB        : Int := 0
  point     : Nat := 0             -- the index of the last sample point taken (R377)
  wordPoint : Nat := 0             -- the index of the last sample point with a filter word (R378)
  holdAt    : Nat := 0             -- when the inputs were held
  sampleAt  : Nat := 0             -- the sample time (Table 14.2)
  sarLeft   : Nat := 0             -- SAR conversions of the held inputs still to come (R379)
  iA        : Int := 0
  iB        : Int := 0
  iD        : Int := 0
  iQ        : Int := 0
  vD        : Int := 0
  vQ        : Int := 0
  vMag      : Int := 0
  vAl       : Int := 0             -- the voltage of the compare group written last (R383, R388)
  vBe       : Int := 0
  fw        : Int := 0             -- the field-weakening output w (R392)
  adv       : List (Int × Int) := []       -- the points of AXIS_ADV of the last sample (R403)
  posHist   : List Int := []       -- position counts at the last samples, newest first
  pos       : Int := 0
  ssiEdge   : Nat := 0             -- the last clock edge of the previous SSI frame
  ssiOpen   : Bool := false        -- a frame runs
  ssiSeen   : Bool := false        -- a frame has completed
  ssiMiss   : Nat := 0             -- sample periods without a completed frame
  ssiBadRun : Nat := 0
  ssiAt     : Nat := 0             -- when the position of the frame that runs was latched
  posAt     : Nat := 0             -- when the position in use was latched
  thetaAt   : Nat := 0             -- the moment at which the axis had the angle of AXIS_ANGLE
  ssiLast   : Option Nat := none   -- the position of the last good frame
  abzA      : Bool := false
  abzB      : Bool := false
  abzZ      : Bool := false
  abzAt     : Option Nat := none   -- when the level of A or B last changed (Table 15.4)
  abzZero   : Option Int := none   -- the count at the first Z edge
  abzIll    : Nat := 0             -- illegal transitions in this sample period
  disagree  : Nat := 0             -- samples in which source and observer differ by more than 45°
  frozen    : Nat := 0             -- samples with an unchanged count (R358)
  froze     : Bool := false        -- the freeze that stands has been judged
  lost      : Bool := false        -- a loss of feedback stands
  byObs     : Bool := false        -- the angle is taken from the observer
  obsTheta  : Nat := 0
  obsSpeed  : Int := 0
  obsGood   : Nat := 0             -- samples with a PLL error below 10°
  obsBad    : Nat := 0             -- samples with a PLL error above 30°
  beyond    : Bool := false        -- beyond a speed limit
  ke        : Option Nat := none   -- the filtered KE in units of 2⁻²⁰ µV·s/rad, once estimated (R396)
  keBadAt   : Option Nat := none
  keGoodAt  : Option Nat := none
  deriving DecidableEq, Repr

/-- The gains a slot evaluates with: the copy of its shadow (R352). -/
structure Gains where
  kp   : Word := 0
  ki   : Word := 0
  kd   : Word := 0
  cfg  : Word := 0xFFFF
  omax : Word := 0x7FFFFFFF
  omin : Word := 0x80000000
  deriving DecidableEq, Repr

/-- One loop slot (R348–R360): its gains in use, its 64-bit accumulator, its filtered measurement, its last values. -/
structure Slot where
  ready   : Bool := false
  gains   : Gains := {}
  apply   : Option Bool := none     -- a copy is due at the next evaluation; with RESET_I
  acc     : Int := 0
  mf      : Int := 0
  mfPrev  : Int := 0
  sp      : Int := 0
  fb      : Int := 0
  err     : Int := 0
  out     : Int := 0
  sum     : Int := 0
  satNs   : Nat := 0
  satSaid : Bool := false
  evalAt  : Option Nat := none
  rails   : Nat := 0                -- evaluations with the set-point AIN at a rail
  fbRails : Nat := 0                -- evaluations with the feedback AIN at a rail
  fbStale : Nat := 0                -- evaluations since LOOP_FB_IN was written
  stopped : Bool := false           -- the slot stops evaluating (Table 14.3)
  fresh   : Bool := false           -- enabled since the last evaluation (R353)
  spFixed : Option Int := none      -- the set-point an alignment or start sets itself (R390)
  pulses  : Int := 0                -- the PLS count at the last evaluation
  net     : Int := 0                -- the set-point that E1.31 gives (R181)
  deriving DecidableEq, Repr

/-- The loop engine with the codes of AIN0–AIN15 (R350, R351). -/
structure Loop where
  slots : Vector Slot 24 := Vector.replicate 24 {}
  ain   : Vector (BitVec 16) 16 := Vector.replicate 16 0
  grid  : Option Nat := none               -- the last grid point taken (R347)
  deriving DecidableEq, Repr

/-- A trace channel at work (R361–R364): the ring of samples before the trigger or the samples of the block that fills,
oldest first; the coded blocks that wait for the destination; the bytes and samples of the record so far. -/
structure TraceCh where
  samples : List Int := []
  last    : Option Int := none      -- the last sample, for the edge triggers
  after   : Nat := 0                -- samples stored since the trigger
  total   : Nat := 0                -- samples at the destination
  pre     : Nat := 0                -- samples before the trigger
  trigAt  : Nat := 0                -- device time of the trigger sample
  period  : Nat := 0                -- sample period in ns
  sampled : Option Nat := none      -- device time of the last sample
  staged  : List Bytes := []        -- coded blocks staged ahead of the destination (R364)
  wrote   : Nat := 32               -- the record's bytes at the destination, its header included
  mark    : Nat := 0                -- FAULT_COUNT at the last sample
  fired   : Bool := false           -- TRACE_FIRE has named the channel
  ringPos : Nat := 0                -- samples since arming, for the ring of pre-trigger samples at the destination (R361)
  due     : Option Nat := none      -- the sample count of a truncated record whose header is not written yet (R364)
  deriving DecidableEq, Repr

/-- A Holros port beside its word: lane lock, the run of error-free cycles, and whether the node folds back here (R202,
R205, R206). -/
structure HolPort where
  locked  : Bool := false
  goodRun : Nat := 0
  broken  : Bool := true
  tautRun : Nat := 0                           -- cycles it has stayed taut
  rejoin  : Bool := false                      -- its link is taken back at the next cycle boundary (R202)
  bulk    : Nat := 0                           -- bytes of bulk sent in this half of the cycle (R197, R212)
  passing : List BulkPacket := []              -- packets to be forwarded out of the port that wait for the next half (R197)
  deriving DecidableEq, Repr

/-- The Holros block (chapter 8). -/
structure Holros where
  ports     : Vector HolPort 2 := Vector.replicate 2 {}
  numbered  : Bool := false
  passive   : Bool := false                    -- refused: forwards, writes nothing (R200)
  claiming  : Bool := false
  best      : Option (Nat × DWord) := none     -- the best claim seen: strap priority and DEVID
  returned  : Vector Bool 2 := Vector.replicate 2 false
  quiet     : Nat := 0                         -- claim intervals without a better claim
  heardAt   : Nat := 0                         -- the last cycle sync, or the first trained port
  claimAt   : Option Nat := none               -- the last claim interval, of 125 µs of device time
  cycleAt   : Option Nat := none               -- the cycle last launched, as an interval of device time
  tableSent : Bool := false                    -- its slot-table frame has left
  counted   : Option (Word × Byte) := none     -- the cycle and type whose field last carried this node's entry
  mstrSeen  : List DWord := []                 -- DEVIDs seen claiming with MSTR = 1 (R199)
  budgetLeft: Nat := 0                         -- cycles in which the node still publishes its budget (R200)
  admitMask : BitVec 16 := 0
  refuseMask: BitVec 16 := 0
  budgets   : List (Nat × Nat × Nat × Nat) := []  -- the master's accepted budgets: node, axes, LED channels, pixels
  slots     : List NodeSlot := []              -- the slot contents of the last slot-table frame (R196)
  slotsNew  : Bool := false                    -- they are of the cycle that ends, not applied yet
  table     : List NodeSlot := []              -- the slots the master has received in this cycle
  field     : List EmergEntry := []            -- the emergency entries it has received in this cycle
  eastCycle : Option Word := none              -- the cycle of the last east-bound cycle sync (R201)
  ownSeq    : Byte := 0
  own       : Option EmergEntry := none        -- this node's entry, while it is repeated (R207)
  ownLeft   : Nat := 0                         -- 9 for a new entry, then the fields that remain with the present one
  tableOf   : Option Word := none              -- the cycle whose slot-table frame has been taken (R196)
  seen      : Vector (Option Byte) 16 := Vector.replicate 16 none
  hestOthers: Bool := false                    -- another node pulls HEST_N low
  hestSeen  : Bool := false                    -- the line's fall has been acted on (R208)
  resetMask : BitVec 16 := 0                   -- the cascade reset being sent, and for how many cycle syncs (R210)
  resetLeft : Nat := 0
  outbox    : List BulkPacket := []
  inbox     : List BulkPacket := []
  sent      : Option (SyncFrame × List (Fin 2)) := none     -- the frame last launched or forwarded, and the ports it left by
  bulkSent  : Option (BulkPacket × Fin 2) := none   -- the packet last sent or forwarded, and its port
  deriving DecidableEq, Repr

/-- The fuses and straps a part carries (R4, R5, R157–R160). They are per part, and the spec gives no value: `State.reset` is a Blank
KX1640-M whose DEVID is 0 (DESIGN CHOICE: log entry 141). -/
structure Fuses where
  devid    : DWord := 0
  polder   : Bool := true
  life     : LifeCycle := .blank
  floor    : Nat := 0
  ownerKey : Bytes := []
  secret   : Bytes := []
  passHash : Bytes := []
  deriving DecidableEq, Repr

/-- The controller's own work through port P8 (Table 9.2): zero-initialisation, the patrol scrub, the copies of a migration. -/
inductive Upkeep | init | scrub | copy
  deriving DecidableEq, Repr

/-- Who waits for a DRAM request's reply: a core for its far access, an engine behind its port, a frame buffer of the panel
engine for a write of its frame (with the frame's number in the slot, R270), or scan-out for what it fetches (Table 11.1,
R276, R280); or none, where the controller asks for itself. -/
inductive DramFrom where
  | core (c : CoreId) (q : FarReq)
  | engine
  | buffer (k : Fin 2) (b : Fin 4) (frame : Nat)
  | fetch (addr len : Nat)
  | upkeep (w : Upkeep)
  deriving DecidableEq, Repr

/-- A request that an engine holds behind its port until it finds a credit (R26, R242), within one line. -/
structure PortReq where
  from_ : DramFrom
  write : Bool
  addr  : Nat
  len   : Nat
  data  : Bytes
  deriving DecidableEq, Repr

/-- A request admitted at a DRAM channel (R225, R233): its channel address, its bytes or its length, when it was
admitted, whether it has been counted overdue, and how many row hits have passed it over. -/
structure DramReq where
  from_   : DramFrom
  port    : Nat
  write   : Bool
  addr    : Nat
  len     : Nat
  data    : Bytes
  at_     : Nat
  overdue : Bool := false
  passed  : Nat := 0
  deriving DecidableEq, Repr

/-- Self-refresh of a channel (R236). -/
inductive SrPhase where | none | entering | committed
  deriving DecidableEq, Repr

/-- One DRAM channel (chapter 9). `cells` is keyed by chip select × 2³⁴ + byte offset in the rank; `poisoned` lists the
lines marked poisoned (R229) by key / 64; `epoch` names the free values that unlisted bytes hold after a loss of
contents (Table 2.10). -/
structure DramChan where
  queue     : List DramReq := []
  cells     : List Host.Cell := []
  poisoned  : List Nat := []
  mended    : List Nat := []      -- the words of a poisoned line, by key / 8, written whole since (R229)
  epoch     : Option Nat := none
  front     : Nat := 0            -- lines that background zero-initialisation has written (R230)
  zeroed    : Bool := false       -- initialisation is skipped: the contents are kept (R230)
  ahead     : List Nat := []      -- lines above the front that have been written (R230)
  errs      : List (Nat × Ecc) := []       -- lines whose stored check bits show an error, by key / 64 (R228, R244)
  fitted    : Nat := 0            -- ranks fitted
  rowBits   : Nat := 15           -- row bits found, of which DRAM_GEOM.ROWB shows the low four (R223)
  ranks     : Nat := 0            -- logical ranks mapped (R224); 0 while the channel serves nothing
  spare     : Bool := false       -- a spare is held (R227)
  spareOk   : Bool := true
  spareUsed : Bool := false
  mig       : Option (Nat × Nat) := none   -- the migrating logical rank and its front line (R241)
  migAt     : Nat := 0            -- when the next line may be copied, by SHARE (R241)
  sr        : SrPhase := .none
  idleAt    : Nat := 0            -- since when no request waits
  rows      : List (Nat × Nat) := []       -- open rows: bank and row
  cool      : Nat := 0            -- consecutive readings at or below 85 °C (R235)
  tempAt    : Nat := 0            -- the last board reading
  stale     : Bool := false
  trainC    : Int := 0            -- the board temperature at the last training (R238)
  retrain   : List Nat := []      -- ranks still to be retrained
  alerts    : List (Nat × Nat) := []       -- the last parity report of a chip select (R232)
  scrub     : Nat := 0            -- the next line of the patrol scrub (R231)
  scrubAt   : Nat := 0            -- when that line is due, by HOURS (R231)
  started   : Bool := false       -- the full training since reset has begun
  deriving DecidableEq, Repr

/-- The DRAM controller and its router: both channels, the requests that wait behind each port, and the map in effect (R225,
R227). -/
structure Dram where
  chans      : Vector DramChan 2 := Vector.replicate 2 {}
  ports      : Vector (List PortReq) 12 := Vector.replicate 12 []
  interleave : Bool := true
  grain      : Nat := 12
  deriving DecidableEq, Repr

/-- A frame buffer of the store (R270, R271). -/
inductive BufState where
  | free | writing | written
  | complete (eligible : Nat)
  deriving DecidableEq, Repr

/-- A frame buffer: its state, its completion order, the capture time in device time, the sampling of its frame, the number of
that frame in its slot, and the writes of it that have not been answered (R270). -/
structure PanelBuf where
  state   : BufState := .free
  order   : Nat := 0
  capture : Nat := 0
  is444   : Bool := false
  frame   : Nat := 0
  asked   : Nat := 0
  lossy   : Bool := false             -- a slice of CODER 2 has been received for it
  present : Bool := false             -- `capture` is a PRESENT_TIME: SLOT_DELAY is in it already (R270)
  deriving DecidableEq, Repr

/-- An input slot of the panel engine (R267–R271, R282): its buffers, and the frame it receives, as runs of source pixels by line
and first column. -/
structure PanelSlot where
  bufs     : Vector PanelBuf 4 := Vector.replicate 4 {}
  cur      : Option (Fin 4) := none
  blocks   : List ((Nat × Nat) × List Nat) := []
  broken   : Bool := false
  seq      : Option (BitVec 16) := none
  rtp      : Option Word := none          -- RTP time of the stream frame received
  frame    : Option Word := none          -- FRAME of the Holros slices received
  present  : Nat := 0                     -- PRESENT_TIME of that frame
  frames   : Nat := 0                     -- frames begun
  is444    : Bool := false                -- the sampling of the Holros frames received (R268)
  shown    : Option (Fin 4) := none
  orders   : Nat := 0
  doneAt   : Nat := 0                     -- when the last frame completed
  asleep   : Bool := false
  deriving DecidableEq, Repr

/-- A LATCH command sent to the class E drivers (Table 12.3). -/
inductive LatchCmd where
  | data (line : Nat) | vsync | rstart | config (w : BitVec 16) | current (w : BitVec 16) | wabort
  deriving DecidableEq, Repr

/-- A command on the class E lanes (R298, R299): when its first bit time begins, and the words it shifts before LATCH: their width and,
by lane and colour, their values in the order shifted. -/
structure LaneSend where
  cmd   : LatchCmd
  at_   : Nat
  width : Nat := 16
  words : List (List (List Nat)) := []
  pauses : List Nat := []             -- the bit times in which an inserted RSTART begins (R301)
  deriving DecidableEq, Repr

/-- What the KSL lanes do (R303–R308): they carry packets, train, stay in electrical idle, sleep in Quiet, have failed to train; they carry
the rest of a frame in which lock was lost (R316), or wake from a device time on (R308). -/
inductive KslLanes where | idle | training | electrical | sleeping | failed | unlocked | waking (from_ : Nat)
  deriving DecidableEq, Repr

/-- A symbol before its coding in 8b/10b, by its byte (R303). -/
inductive KslSymbol where | k (b : Byte) | d (b : Byte)
  deriving DecidableEq, Repr

/-- The pins of a class E group (Table 12.2): EDR, EDG and EDB of its eight lanes, DCLK, LATCH, BLANK, ROWADDR and ROWEN. -/
structure EGroup where
  edr     : BitVec 8 := 0
  edg     : BitVec 8 := 0
  edb     : BitVec 8 := 0
  dclk    : Bool := false
  latch   : Bool := false
  blank   : Bool := false
  rowAddr : BitVec 6 := 0
  rowEn   : Bool := false
  deriving DecidableEq, Repr

/-- The gate-timing outputs of class L (Table 12.9). -/
structure GatePins where
  gst : Bool := false
  gck : BitVec 4 := 0
  goe : Bool := false
  pol : Bool := false
  deriving DecidableEq, Repr

/-- A read that scan-out has asked for: its address and length, its answer once it has come (no data: POISON or
RESET_ABORT), and that answer's status. -/
structure PanelRead where
  addr   : Nat
  len    : Nat
  answer : Option (Status × Bytes) := none
  deriving DecidableEq, Repr

/-- The panel engine beside its words (chapters 11 and 12). Times are device time. -/
structure Panel where
  slots     : Vector PanelSlot 2 := Vector.replicate 2 {}
  applied   : List (Nat × Word) := []     -- the words in effect (R283, R285, R309)
  n         : Option Nat := none          -- the frame last started
  vAt       : Nat := 0                    -- its V_n
  selected  : Option Nat := none          -- the frame last selected for
  edgeV     : Option Nat := none          -- the V_n that an accepted FSYNC edge gives
  ignored   : Nat := 0                    -- frames in a row with edges outside the window (R314)
  ignoredNow: Bool := false
  lostSaid  : Bool := false
  hold      : Bool := false
  nextAt    : Option Nat := none          -- device time of the last PANEL_TABLES write (R287)
  vFrac     : Nat := 0                    -- what of V_n lies below 1 ns, in 1/64 ns (R295)
  rephase   : Bool := false               -- four frames of ignored edges: the engine holds after the frame in progress (R314)
  runNext   : Bool := false               -- the frame selected for is to be processed
  processed : Bool := false               -- the present frame is processed (R308)
  uploading : Bool := false
  line      : Nat := 0                    -- the next line of the upload, or of the frame
  refresh   : Nat := 0                    -- refreshes started in this frame
  swap      : Bool := false               -- the drivers' swap pending
  shownF    : Nat := 0                    -- F, the displayed frames (R307)
  latch     : List LatchCmd := []         -- the commands sent since V_n, newest first
  sends     : List LaneSend := []         -- those that are on the lanes or wait for them, newest first (R298)
  refreshAt : Option Nat := none          -- the start of the refresh that runs (R302)
  groups    : Vector EGroup 2 := Vector.replicate 2 {}      -- the class E pins (Table 12.2)
  gates     : GatePins := {}              -- the gate-timing outputs (Table 12.9)
  ksl       : List (List (BitVec 10)) := [] -- the code groups that each lane has sent since the last line start, bit 0 first (R303)
  kslRd     : List Bool := []             -- the running disparity of each lane is positive (R303)
  fill      : List KslSymbol := []        -- the ordered set that the lanes repeat between packets; none in electrical idle
  framed    : Option Nat := none          -- the frame whose FRAME packet has been sent (R304)
  sent      : Option Nat := none          -- the line whose LINE packet waits for its LOAD (R306)
  fetched   : List PanelRead := []            -- the reads of the rows that scan-out prepares
  config    : Option (Nat × Nat) := none  -- D and S last sent to the drivers
  display   : Option (Nat × Nat) := none  -- D and S that the drivers display (R317)
  sendCur   : Bool := false
  sendCfg   : Bool := false
  changed   : Bool := false               -- a word waits for the next V_n
  lanes     : KslLanes := .electrical
  tries     : Nat := 0
  trainAt   : Option Nat := none          -- when the running attempt began
  pol       : Bool := false
  fsyncOut  : Nat := 0                    -- FSYNC output is high until then
  refValid  : Bool := false               -- the overdrive reference holds the frame before
  refKept   : Bool := false               -- rows of this frame have been kept as the reference (R280)
  refTail   : Option (Nat × Nat) := none  -- the reference word last written: its number and its value
  poison    : List (Nat × Nat × Nat) := []  -- poisoned store blocks of this frame: slot, line, block
  out       : List (Nat × List (Nat × Nat × Nat)) := []   -- the rows of the last packet, by panel row
  lost      : Bool := false               -- the store is lost (R291)
  deriving DecidableEq, Repr


/-- A fade at work (R326): the level it began from, its start t0 in device time, its target and its time in ms. -/
structure LedFade where
  from_  : Nat
  t0     : Nat
  target : Nat
  ms     : Nat
  deriving DecidableEq, Repr

/-- One LED channel beside its words (R320–R337): the words in effect, the duty and the effective current code that drive
the sink (no code: the channel is dark for the window), whether it conducts nothing, its fade, and what waits for its next
window. -/
structure LedCh where
  level    : Word := 0                -- LED_CH_LEVEL in effect, with the present L
  cfg      : Word := 0x00000160       -- LED_CH_CFG in effect
  g        : Nat := 0
  eff      : Option Nat := none
  dark     : Bool := false
  fade     : Option LedFade := none
  go       : Bool := false            -- LED_FADE_GO waits for the next window
  wrote    : Bool := false            -- a LEVEL write waits for the next window
  window   : Option Nat := none       -- the window last reloaded
  openRun  : Nat := 0
  shortRun : Nat := 0
  lit      : Bool := false            -- g > 0 in this diagnostic interval
  measured : Bool := false            -- measured in this diagnostic interval
  stretch  : Bool := false            -- the next window is stretched
  net      : Nat := 0                 -- the level that E1.31 gives (R181)
  pulse    : Bool := false            -- this window begins with the diagnostic stretch (R336)
  wroteCfg : Bool := false            -- a write of LED_CH_CFG waits for the next window (R328)
  units    : Nat := 0                 -- the sink's current now, in 200/256 mA (R321)
  deriving DecidableEq, Repr

/-- One LED block beside its words and channels. -/
structure LedDie where
  interval  : Option Nat := none      -- the diagnostic interval
  rowCycle  : Option Nat := none      -- the last row cycle started
  swap      : Bool := false           -- a swap demand waits (R333)
  refused   : Bool := false           -- matrix mode stands refused for its bank
  shut      : Vector Bool 4 := Vector.replicate 4 false     -- sensor groups shut down (R334, R341)
  factor    : Vector Nat 4 := Vector.replicate 4 0x8000     -- F of each sensor group, Q1.15
  stretchAt : Option Nat := none      -- when the last diagnostic stretch was made
  rows      : BitVec 16 := 0          -- the row-switch outputs of matrix mode (R331)
  waits     : Bool := false           -- matrix mode waits for a row-cycle start, its clock having been lost (Table 2.10)
  deriving DecidableEq, Repr

/-- Both LED blocks (chapter 13). -/
structure Led where
  chans : Vector LedCh 64 := Vector.replicate 64 {}
  dies  : Vector LedDie 2 := Vector.replicate 2 {}
  deriving DecidableEq, Repr

/-- A learned address of the switch (R174). -/
structure MacEntry where
  mac  : BitVec 48
  port : Fin 3
  seen : Nat
  deriving DecidableEq, Repr

/-- A frame queued for a port (R173, R174, R182): its queue, its length in bytes, when and by which port it came in, and the correction
field of a PTP event message. -/
structure QFrame where
  q    : Nat
  len  : Nat
  at_  : Nat
  port : Fin 3
  corr : Option Int
  deriving DecidableEq, Repr

/-- An egress port of the switch: the frames that wait, by queue and length in bytes, oldest first; the frame that is
being sent, by queue and tenths of a bit still to go (R173, R175, R182). -/
structure Egress where
  frames  : List QFrame := []
  sending : Option (Nat × Nat × Nat) := none    -- queue, length, tenths of a bit
  deriving DecidableEq, Repr

/-- The gate control of an external port (R175, R189): the list in effect (gates and duration in ns), the list that waits
with the device time of its write, and the start of the present cycle. -/
structure Qbv where
  active : List (Nat × Nat) := []
  next   : Option (List (Nat × Nat) × Nat) := none
  start  : Nat := 0
  deriving DecidableEq, Repr

/-- A live source of an E1.31 universe: its name, priority, order of first hearing and last data (R180). -/
structure E131Source where
  source   : Nat
  priority : Nat
  order    : Nat
  seen     : Nat
  deriving DecidableEq, Repr

/-- An E1.31 universe received: its live sources and the data held for a synchronization address. -/
structure Universe where
  univ    : Nat
  sources : List E131Source := []
  held    : Option (Nat × Bytes) := none
  deriving DecidableEq, Repr

/-- The network switch and the E1.31 receiver (chapter 7). -/
structure Net where
  macs      : List MacEntry := []
  vlans     : List (Nat × BitVec 3) := []          -- VLAN member masks over NA, NB and the internal port (R174)
  egress    : Vector Egress 3 := Vector.replicate 3 {}
  qbv       : Vector Qbv 2 := Vector.replicate 2 {}
  universes : List Universe := []
  heard     : Nat := 0                             -- sources heard so far
  syncs     : List (Nat × Nat × Bool) := []        -- synchronization address, last packet, lost (R180)
  discovery : Option (Nat × List Nat) := none      -- the last universe discovery: when, and the universes
  joined    : Vector Bool 2 := Vector.replicate 2 false   -- streams joined (R179)
  report    : Option (IpAddr × Option IpAddr) := none  -- the last join sent, by IGMPv3 or MLDv2 as its group is: its source where it is source-specific
  ringIn    : Nat := 0                             -- where the next frame goes in the receive ring, and
  ringOut   : Nat := 0                             -- where the next one taken from it lies (R182)
  ptpSent   : Option (Fin 2 × Int) := none         -- the last PTP event message sent by a transparent port: its correction in ns
  deriving DecidableEq, Repr

/-- The servo of device time, in the always-on domain (R171, R177, R178). -/
structure TimeServo where
  slave     : Option (Fin 2) := none     -- the port whose Sync was last measured
  syncAt    : Nat := 0
  interval  : Nat := 0
  good      : Nat := 0                   -- Sync messages in a row within 100 ns
  lockingAt : Nat := 0                   -- when LOCKING was entered
  rates     : List (Nat × Int) := []     -- corrections since LOCKING was entered: when, and ppb; newest first
  holdAt    : Nat := 0                   -- when HOLDOVER was entered
  expired   : Bool := false
  frac      : Int := 0                   -- what the rate correction owes the counter, in 10⁻⁹ ns
  integ     : Int := 0                   -- the integral of the servo, in 10⁻⁹ ppb, within ±500 ppm
  high      : Word := 0                  -- TIME_NOW_HI as latched (R192)
  deriving DecidableEq, Repr

/-- A KNP message in reassembly (R145): the type of its fragments, when the first was accepted, what has come by index,
and the index of its last fragment once that has come. -/
structure Reassembly where
  msg   : Word
  type  : Byte
  since : Nat
  parts : List (Nat × Bytes) := []
  last  : Option Nat := none
  deriving DecidableEq, Repr

/-- The states of a session (Table 6.3). -/
inductive SessionPhase where | closed | offered | opened
  deriving DecidableEq, Repr

/-- A session slot (R144–R152): its phase, its port, its identifier, its agreed set, both nonces, when HELLO_ACK was sent or
the last valid datagram came, the SEQ values accepted with the highest of them, the messages in reassembly (oldest first)
and those discarded with the time, the messages held for its queue, and the SEQ of its next datagram. -/
structure Session where
  phase  : SessionPhase := .closed
  port   : Bool := false
  id     : BitVec 16 := 0
  agreed : DWord := 0
  host   : Bytes := []
  nonce  : Bytes := []
  since  : Nat := 0
  top    : Word := 0
  got    : List Word := []
  parts  : List Reassembly := []
  gone   : List (Word × Nat) := []
  held   : List (Nat × List Word) := []
  seq    : Word := 0
  deriving DecidableEq, Repr

/-- An image transfer in progress (R156): the chunks written, newest first. -/
structure Transfer where
  slot   : Fin 8
  target : Nat
  length : Nat
  chunks : List (Nat × Bytes) := []
  deriving DecidableEq, Repr

/-- A staged image that waits for its commit (R156, R163, R164); kept until then, after a refused commit. -/
structure Staged where
  slot  : Fin 8
  image : Bytes
  set   : DWord
  until_ : Option Nat := none
  deriving DecidableEq, Repr

/-- The security block and the KNP engine (chapter 6), with the contents of the quad-SPI flash. -/
structure Sec where
  sessions : Vector Session 8 := Vector.replicate 8 {}
  reopened : Bool := false
  fails    : Nat := 0                           -- always-on domain (R161)
  lockEnd  : Nat := 0                           -- when the lockout ends
  lockNext : Bool := false                      -- 60 s run from the next reset release (R161)
  nonce    : Option (Bytes × Nat) := none       -- the challenge nonce and when it was issued
  transfer : Option Transfer := none
  staged   : Option Staged := none
  update   : Option (Bytes × DWord) := none     -- the committed image, its session's agreed set
  raiseTo  : Option Nat := none                 -- the rollback floor due at the end of Admission
  flash    : Vector (Option Bytes) 2 := Vector.replicate 2 none    -- primary and secondary slot
  writing  : Option (Fin 8 × Bytes × Bool) := none   -- a boot-slot write: session, image, primary next
  push     : List (Nat × Bytes) := []           -- a pushed boot image so far (R209, R491), newest first
  pushed   : Nat := 0                           -- what a TW0 read returns of it (R491)
  asm      : Vector (List Word) 8 := Vector.replicate 8 []         -- words of queue 249 by sender
  sent     : List Datagram := []                -- the datagrams sent since reset, oldest first
  jtagIr   : Nat := 0                           -- JTAG: 0 BYPASS, 1 IDCODE, 2 SAMPLE, 3 EXTEST, 4 core debug, 5 fuse
  jtagDr   : Nat := 0                           -- the value it shifts out
  answerTurn : CoreId := 0                      -- the sender whose turn it is on queue 249 (R28)
  stageAt  : Nat := 0                           -- where the engine stages an image in DRAM (R156)
  deriving DecidableEq, Repr

/-- The states of the polder (R453). -/
inductive PolderPhase where | unsealed | sealed | fail
  deriving DecidableEq, Repr

/-- An entry of the polder's event log (R462). -/
structure PolderEvent where
  time : Word
  code : Nat
  data : Nat
  deriving DecidableEq, Repr

/-- The calibration parameters of a channel (Table 18.3). -/
structure PolderCal where
  offV   : Int := 0
  offI   : Int := 0
  gainV  : Nat := 0
  gainI  : Nat := 0
  kDiv   : Nat := 0
  rSh    : Nat := 0
  source : Nat := 0
  const  : Nat := 0
  creep  : Nat := 1000
  deriving DecidableEq, Repr

/-- The energy of a channel that the polder keeps and saves (R455, R466): both registers in mWh, both remainders in
2⁻⁶⁴ mWh. -/
structure PolderReg where
  fwd  : Nat := 0
  reg  : Nat := 0
  fRem : Nat := 0
  rRem : Nat := 0
  deriving DecidableEq, Repr

/-- A polder channel (R454–R459). Energies are in 2⁻⁶⁴ mWh. -/
structure PolderCh where
  cal     : PolderCal := {}
  energy  : PolderReg := {}
  saved   : PolderReg := {}
  blocks  : List (Int × Int × Int × Nat) := []   -- energy, Σ volts, Σ amps, samples of the last ten blocks
  clipped : Bool := false                        -- a sample of the last block was clipped
  creeping : Bool := false
  demFwd  : Nat := 0                             -- energy of this demand period
  demReg  : Nat := 0
  lastFwd : Nat := 0                             -- the last completed demands, mW
  lastReg : Nat := 0
  owed    : Nat := 0                             -- energy owed pulses
  pulses  : Word := 0
  pulseAt : Option Nat := none
  backlog : Bool := false
  lowAt   : Option Nat := some 0                 -- since when its mean power is at or below 5 % of P_fs (R469)
  deriving DecidableEq, Repr

/-- The polder (chapter 18) and the window receiver's own state. -/
structure Polder where
  vpol    : Bool := true
  phase   : PolderPhase := PolderPhase.unsealed
  calen   : Bool := false
  chans   : Vector PolderCh 4 := Vector.replicate 4 {}
  log     : List PolderEvent := []               -- newest first
  events  : Nat := 0                             -- entries since manufacture
  seals   : Nat := 0                             -- the seal counter
  p1      : Nat := 0
  prog    : Bool := false                        -- programming mode
  wrong   : Nat := 0
  lockAt  : Option Nat := none                   -- polder time of the lockout
  ident   : Nat := 0                             -- the identification CRC as last computed
  identAt : Nat := 0                             -- when it was computed
  stored  : Nat := 0                             -- the one stored at sealing
  timeSet : Nat := 0                             -- polder time was this number of seconds
  timeAt  : Nat := 0                             -- at this moment
  quarter : Nat := 0                             -- the quarter-hour of the last demand end
  blockAt : Option Nat := none
  saveAt  : Nat := 0
  incomplete : Bool := false                     -- the last save at VPOL down was not complete
  slow    : Bool := false
  seq     : Nat := 0
  sentAt  : Option Nat := none
  frame   : Option (List (Nat × Word)) := none   -- a result frame on its way to the window
  cmds    : List Nat := []                       -- codes on the command path
  wake    : Bool := false                        -- a wake event raised (R469)
  readout : List (Nat × Nat × Nat) := []         -- the last data set read out: identifier, channel, value
  rxAt    : Nat := 0                             -- when the window took its last valid frame
  silent  : Bool := false                        -- the silence that stands has been raised (R21)
  sealRx  : Option Nat := none                   -- the seal count of the last frame
  said    : BitVec 6 := 0                        -- unsealed, fail and overrange by channel, while they are shown
  high    : Vector (Word × Word) 4 := Vector.replicate 4 (0, 0)    -- FWD_HI and REG_HI as latched (R467)
  deriving DecidableEq, Repr

/-- A controller transfer (R480). -/
structure TwTransfer where
  addr    : Nat
  rlen    : Nat
  wlen    : Nat
  pec     : Bool
  started : Bool := false
  deriving DecidableEq, Repr

/-- A pending notice (R488): its code, the retries made, whether it is on the bus, and whether it waits for a retry since the
bus was free. -/
structure TwNotice where
  code    : Nat
  tries   : Nat := 0
  onBus   : Bool := false
  retry   : Bool := false
  deriving DecidableEq, Repr

/-- A two-wire instance beside its words (chapter 19). -/
structure TwoWire where
  xfer   : Option TwTransfer := none
  notice : Option TwNotice := none
  freeAt : Nat := 0                              -- since when the bus is free
  report : Option (Nat × Nat × Bool) := none     -- the report held: first offset, end, overrun (R486)
  sent   : Bytes := []                           -- the bytes the last read transaction returned
  wrote  : Bytes := []                           -- the bytes the last own transfer or notice put on the bus
  deriving DecidableEq, Repr

/-- Why the machine stops: never. Every command of the table has an effect the spec gives, so no meaning ends in a
fault; the type has no constructor. -/
inductive Fault
  deriving DecidableEq, Repr

/-- Why a command is refused. -/
inductive Refusal where
  /-- Raised by the dispatcher alone, for a command whose meaning is not written. Safe: the machine stops. -/
  | notModelled (mnemonic : String)
  deriving DecidableEq, Repr

/-- The W1C bits that hardware has set in one update: when, and which, by address and bit (R9). -/
structure HwSets where
  at_  : Nat := 0
  bits : List (Nat × Nat) := []
  deriving DecidableEq, Repr

/-- The state of the device. -/
structure State where
  -- the model's own: the commands that wait, elapsed time in ns, the counter of free values
  pending    : List Instr := []
  clock      : Nat := 0
  free       : Nat := 0
  sets       : HwSets := {}
  -- the control words stored as written; MODE_RESET_CAUSE reads power-on after a power-on reset (Table 3.10)
  words      : List (Nat × Word) := [(0x0013, 1)]
  -- device time (R171)
  deviceTime : DWord := 0
  fuses      : Fuses := {}
  agreed     : DWord := 0               -- the device's agreed feature set (R89)
  -- cores, queues, authority, tacks
  cores      : Vector Core 8 := Vector.replicate 8 {}
  queues     : Vector (List QEntry) 64 := Vector.replicate 64 []
  waiting    : List (Nat × QEntry) := []         -- what units hold for a queue until a credit returns (R26, R35), oldest first
  assembly   : Vector (List Word) 8 := Vector.replicate 8 []
  orderTurn  : CoreId := 0                       -- the sender whose turn it is on queue 240 (R28)
  tokens     : List (BitVec 16 × Nat) := []
  orders     : List Order := []
  accepted   : List Order := []
  delivered  : List Order := []
  tacks      : List Tack := []
  fired      : List (Nat × CoreId) := []
  launches   : List Launch := []
  -- banks
  banks      : Vector Bank 32 := Vector.replicate 32 {}
  cells      : List Host.Cell := []
  badParity  : List Nat := []
  -- modes, dies, blocks, domain clocks
  modes      : Modes := {}
  dies       : Vector EdgeDie 2 := Vector.replicate 2 {}
  blocks     : Vector BlockPhase 25 := Vector.replicate 25 .fresh
  clockLost  : BitVec 25 := 0           -- the clock of a domain is absent (R33)
  clockSaid  : BitVec 25 := 0           -- its loss has been declared (R546)
  clockTold  : BitVec 25 := 0           -- its detector has declared it since it was last armed (R34)
  byClock    : BitVec 25 := 0           -- blocks that a lost clock keeps out (Table 2.10)
  readmit    : BitVec 25 := 0           -- blocks that will present their feature word (Table 2.5)
  miscount   : List (Fin 25 × Nat × Nat) := []   -- wrong credit counts: the block, the queue into it, the sender's block (Table 2.7)
  probeAt    : DWord := 0               -- device time of the last write of FABRIC_PROBE_SEL (R48)
  -- machinery
  mach       : Mach := {}
  gate       : Gate := {}
  axes       : Vector Axis 4 := Vector.replicate 4 {}
  loop       : Loop := {}
  trace      : Vector TraceCh 8 := Vector.replicate 8 {}
  -- memory and panel
  dram       : Dram := {}
  panel      : Panel := {}
  led        : Led := {}
  -- network and time
  net        : Net := {}
  time       : TimeServo := {}
  -- cascade
  hol        : Holros := {}
  -- security, polder, two-wire
  sec        : Sec := {}
  polder     : Polder := {}
  tw         : Vector TwoWire 3 := Vector.replicate 3 {}
  -- the authority unit's merge cycle in progress (R94)
  merged     : Nat := 0
  -- faults
  faults     : FaultRecord := {}
  deriving DecidableEq, Repr

/-- The machine right after reset: every field at its reset value. -/
def State.reset : State := {}

end Sys2Proof.Machine
end

