-- ==== Sys2Proof/Machine/Ops.lean ====
section
/-! DEFINITION. The named operations the units share: stored control words, free values, the fault record, events,
blocks and their sluices, banks, program queues, and taking a trap with the return from it. -/
namespace Sys2Proof.Machine

/-- Passing a state through a list of changes, in order. -/
def forAll {α : Type} (f : α → State → State) : List α → State → State
  | [], s => s
  | x :: xs, s => forAll f xs (f x s)

/-- A change made only when a condition holds. -/
def onlyIf (b : Bool) (f : State → State) (s : State) : State := if b then f s else s

/-! ### Stored control words -/

/-- The stored value of a control word (R7, R533). -/
def State.word (s : State) (a : Nat) : Word := sget resetWord s.words a

/-- A control word stored. -/
def State.setWord (s : State) (a : Nat) (v : Word) : State := { s with words := sput resetWord s.words a v }

/-- A field of a stored control word. -/
def State.field (s : State) (a lo n : Nat) : Nat := bits (s.word a) lo n

/-- A bit of a stored control word. -/
def State.flag (s : State) (a i : Nat) : Bool := bit (s.word a) i

/-- A field of a control word stored. -/
def State.setField (s : State) (a lo n v : Nat) : State := s.setWord a (setBits (s.word a) lo n v)

/-- A bit of a control word stored. -/
def State.setFlag (s : State) (a i : Nat) (b : Bool) : State := s.setWord a (setBit (s.word a) i b)

/-- A bit vector as the low bits of a word. -/
def maskWord (n : Nat) (f : Nat → Bool) : Word := (List.range n).foldl (fun w i => setBit w i (f i)) 0

/-- Hardware sets a W1C bit, and the update in which it does so is kept (R9). -/
def State.latch (s : State) (a i : Nat) : State :=
  let was := if s.sets.at_ = s.clock then s.sets.bits else []
  { s.setFlag a i true with sets := ⟨s.clock, if was.contains (a, i) then was else (a, i) :: was⟩ }

/-- Hardware has set the bit in the present update: a clear that crosses the set leaves it at 1 (R9). -/
def State.justSet (s : State) (a i : Nat) : Bool := decide (s.sets.at_ = s.clock) && s.sets.bits.contains (a, i)

/-- The bits of a word that hardware has set in the present update. -/
def State.justSets (s : State) (a : Nat) : Word := maskWord 32 fun i => s.justSet a i

/-- A saturating counter field counts one. -/
def State.countUp (s : State) (a lo n : Nat) : State := s.setField a lo n (satInc n (s.field a lo n))

/-- A wrapping counter field counts one. -/
def State.countWrap (s : State) (a lo n : Nat) : State := s.setField a lo n (s.field a lo n + 1)

/-- The control words of a range take their reset values. -/
def State.resetWords (s : State) (lo hi : Nat) : State := { s with words := sclear s.words lo hi }

/-! ### Free values -/

/-- The next value that the spec leaves open. -/
def State.freeVal (s : State) : Nat := Config.freeBits s.free

/-- One free value has been used. -/
def State.bump (s : State) : State := { s with free := s.free + 1 }

/-! ### Events and the fault record -/

/-- A core of the cluster. -/
def State.core (s : State) (c : CoreId) : Core := s.cores[c]

/-- A core changed. -/
def State.updCore (s : State) (c : CoreId) (f : Core → Core) : State := { s with cores := modAt s.cores c f }

/-- A latched event is raised on one core (R83). -/
def raiseEvent (n : Nat) (c : CoreId) (s : State) : State := s.updCore c fun k => { k with events := setBit k.events n true }

/-- A latched event is raised on every core (R83). -/
def raiseAll (n : Nat) (s : State) : State :=
  { s with cores := s.cores.map fun k => { k with events := setBit k.events n true } }

/-- A fault is written to the record after the newest entry, and event 23 is raised on every core (R534, R535). -/
def record (code unit data : Nat) (s : State) : State :=
  let e : FaultEntry := ⟨BitVec.ofNat 16 code, BitVec.ofNat 16 unit, BitVec.ofNat 32 data, s.deviceTime⟩
  raiseAll 23 { s with faults := { s.faults with
    count := satInc 32 s.faults.count
    head  := (s.faults.head + 1) % 256
    ring  := (e :: s.faults.ring).take 256 } }

/-- A fault whose report is limited to once per second and per code and unit (R536). -/
def recordLimited (code unit data : Nat) (s : State) : State :=
  let fresh := match s.faults.limited.lookup (code, unit) with
    | some t => decide (t + 1000000000 ≤ s.clock)
    | none => true
  if fresh then
    let s := record code unit data s
    { s with faults := { s.faults with
      limited := ((code, unit), s.clock) :: s.faults.limited.filter (fun e => decide (e.1 ≠ (code, unit))) } }
  else { s with faults := { s.faults with suppressed := satInc 32 s.faults.suppressed } }

/-! ### Blocks and their sluices -/

/-- A block is admitted: its bit of FABRIC_BLOCK_STATE (Table 2.8). The system units, block 11, are never out
(R547). -/
def State.admitted (s : State) (b : Fin 25) : Bool := decide (s.blocks[b] = .admitted)

/-- The input sluice that stands before a control word is open (R27, R547). -/
def State.sluiceOpen (s : State) (b : Fin 25) : Bool := decide (b = 11) || s.admitted b

/-- A block has been taken out since reset: nothing of it runs (Table 2.6). -/
def State.blockOut (s : State) (b : Fin 25) : Bool := decide (s.blocks[b] = .out) || decide (s.blocks[b] = .mismatched)

/-- A request is answered RESET_ABORT: counted and recorded against its requester (Table 2.7). -/
def abortReply (requester target : Nat) (s : State) : State := record 0x1001 requester target (s.countUp 0x0407 0 32)

/-- A POISON reply is delivered to a requester (Table 2.8). -/
def poisonReply (s : State) : State := s.countUp 0x0408 0 32

/-- A domain's clock-presence detector is disarmed: armed again while the clock is absent, it declares the loss again (R34). -/
def forgetClock (d : Nat) (s : State) : State := { s with clockTold := s.clockTold &&& ~~~BitVec.ofNat 25 (2 ^ d) }

/-! ### Banks -/

/-- What an unlisted byte of a bank reads as: the zero fill of reset and power-up (R255, R260). -/
def cellDefault : Nat → Byte := fun _ => 0

/-- The bank a local byte address lies in; none at or above 0x0040_0000 (R76). -/
def bankOf (a : Nat) : Option BankId := if h : a / 0x20000 < 32 then some ⟨a / 0x20000, h⟩ else none

/-- A byte of a bank, by local address. -/
def State.byteAt (s : State) (a : Nat) : Byte := sget cellDefault s.cells a

/-- Bytes stored to banks with fresh parity (R259). -/
def State.storeBytes (s : State) (a : Nat) (bs : Bytes) : State :=
  { s with
    cells := sputs cellDefault s.cells a bs
    badParity := s.badParity.filter fun p => decide (p < a) || decide (a + bs.length ≤ p) }

/-- Bytes of banks from an address on. -/
def State.loadBytes (s : State) (a n : Nat) : Bytes := sgets cellDefault s.cells a n

/-- The first byte of a read whose parity is wrong (R259). -/
def State.parityError (s : State) (a n : Nat) : Option Nat :=
  (List.range n).map (a + ·) |>.find? fun p => s.badParity.contains p

/-- What a bank answers a read. -/
inductive BankRead where
  | refused
  | parity
  | ok (data : Bytes)
  deriving DecidableEq, Repr

/-- A receiver owns the bank an address lies in (R254). -/
def State.owns (s : State) (receiver : Nat) (a : Nat) : Bool :=
  match bankOf a with
  | some b => decide (s.banks[b].owner = receiver)
  | none => false

/-- A bank refuses an access by another than its owner: counted and raised (R254). An address beyond the banks reaches
none, and nothing is counted (R76). -/
def bankRefused (receiver a : Nat) (s : State) : State :=
  match bankOf a with
  | some b => record 0x2011 b receiver (s.countUp 0x1024 0 32)
  | none => s

/-- A parity error is counted, recorded with its address and its reader, and raised (R259). -/
def bankParity (receiver a : Nat) (s : State) : State :=
  let s := s.countUp 0x1022 0 32
  let s := s.setWord 0x1023 (BitVec.ofNat 32 (receiver % 32 * 2 ^ 24 + a % 2 ^ 22))
  record 0x2010 (a / 0x20000) receiver s

/-- A receiver reads n bytes within one bank. -/
def bankRead (receiver a n : Nat) (s : State) : BankRead × State :=
  if s.owns receiver a then
    match s.parityError a n with
    | some p => (.parity, bankParity receiver p s)
    | none => (.ok (s.loadBytes a n), s)
  else (.refused, bankRefused receiver a s)

/-- A bank is powered and filled with zeros with valid parity (R255, R260). -/
def zeroFill (b : BankId) (s : State) : State :=
  { s with
    cells := sclear s.cells (b.val * 0x20000) (b.val * 0x20000 + 0x20000)
    badParity := s.badParity.filter fun p => decide (p / 0x20000 ≠ b.val)
    banks := modAt s.banks b fun k => { k with powered := true, filling := false } }

/-! ### Program queues -/

/-- The depth of a program queue 192–249 (Table 2.4): for a gathered queue, of each sender's credits. -/
def queueDepth (q : Nat) : Nat :=
  if q < 192 then 0 else if q < 224 then 16 else if q < 230 then 4 else if q < 232 then 0 else if q < 240 then 64
  else if q = 240 then 8 else if q < 250 then 16 else 0

/-- The gathered queues (R28). -/
def gathered (q : Nat) : Bool := decide (q = 240) || decide (q = 249)

/-- The place of a program queue in State. -/
def queueIx (q : Nat) : Option (Fin 64) := if h : q - 192 < 64 ∧ 192 ≤ q then some ⟨q - 192, h.1⟩ else none

/-- The entries of a program queue. -/
def State.queue (s : State) (q : Nat) : List QEntry :=
  match queueIx q with
  | some i => s.queues[i]
  | none => []

/-- A program queue replaced. -/
def State.setQueue (s : State) (q : Nat) (l : List QEntry) : State :=
  match queueIx q with
  | some i => { s with queues := modAt s.queues i fun _ => l }
  | none => s

/-- The credits a sender holds for a program queue (R26, R28). -/
def State.credits (s : State) (q : Nat) (sender : Nat) : Nat :=
  queueDepth q - (if gathered q then ((s.queue q).filter (·.core == sender)).length else (s.queue q).length)

/-- The probe counts a handshake completed on the queue it observes (R48): the sending of an entry is one, and its taking is one (DESIGN
CHOICE: log entry 32). -/
def probeHandshake (q : Nat) (s : State) : State :=
  onlyIf (s.field 0x0409 0 8 == q) (fun s => s.countWrap 0x040A 0 32) s

/-- A sender that holds a credit sends one entry. -/
def pushQueue (q sender : Nat) (v : Word) (s : State) : State :=
  probeHandshake q (s.setQueue q (s.queue q ++ [⟨sender, v⟩]))

/-- A receiver takes the head entry of a queue out. -/
def popQueue (q : Nat) (s : State) : State := probeHandshake q (s.setQueue q (s.queue q).tail)

/-- The security block changed. -/
def State.updSec (s : State) (f : Sec → Sec) : State := { s with sec := f s.sec }

/-- A session slot changed. -/
def State.updSession (s : State) (k : Fin 8) (f : Session → Session) : State :=
  s.updSec fun x => { x with sessions := modAt x.sessions k f }

/-- The queue from a session slot to its program (R146). -/
def slotQueue (k : Fin 8) : Nat := 232 + k.val

/-- The messages that remain after `room` words of them have been sent; each stands with the datagrams it came in. -/
def dropWords : Nat → List (Nat × List Word) → List (Nat × List Word)
  | _, [] => []
  | n, m :: ms => if m.2.length ≤ n then dropWords (n - m.2.length) ms else (m.1, m.2.drop n) :: ms

/-- The words the engine holds for a slot go to its queue while it holds credits (R146). -/
def refillSlot (k : Fin 8) (s : State) : State :=
  let room := s.credits (slotQueue k) 23
  let held := s.sec.sessions[k].held
  let s := forAll (fun w s => pushQueue (slotQueue k) 23 w s) ((held.map (·.2)).flatten.take room) s
  s.updSession k fun x => { x with held := dropWords room held }

/-- The slot whose queue this is. -/
def queueSlot (q : Nat) : Option (Fin 8) := if h : q - 232 < 8 ∧ 232 ≤ q then some ⟨q - 232, h.1⟩ else none

/-- A unit sends an entry while it holds a credit; without one, or behind an older entry, the entry waits (R26, R35). -/
def offer (q sender : Nat) (v : Word) (s : State) : State :=
  if 0 < s.credits q sender && !(s.waiting.any (·.1 == q)) then pushQueue q sender v s
  else { s with waiting := s.waiting ++ [(q, ⟨sender, v⟩)] }

/-- The oldest entry that waits for a queue goes, now that a credit has returned (R26). -/
def sendHeld (q : Nat) (s : State) : State :=
  match s.waiting.find? (·.1 == q) with
  | some e =>
    if 0 < s.credits q e.2.core then pushQueue q e.2.core e.2.val { s with waiting := s.waiting.erase e } else s
  | none => s

/-- After an entry of a queue has been taken, what waits for that queue follows (R26), and what the KNP engine holds for it (R146). -/
def afterTake (q : Nat) (s : State) : State :=
  match queueSlot q with
  | some k => refillSlot k (sendHeld q s)
  | none => sendHeld q s

/-- The sender whose entry the receiver of a gathered queue takes next: from the one whose turn it is, in ascending core number and
round again, the first that has an entry (R28). -/
def nextSender (q : Nat) (turn : CoreId) (s : State) : Option CoreId :=
  ((List.finRange 8).map (turn + ·)).find? fun c => (s.queue q).any (·.core == c.val)

/-- The address of CORE_QBIND of a port. -/
def qbindAddr (c : CoreId) (port : Fin 8) : Nat := 0x0810 + 0x40 * c.val + port.val

/-- The queue a port is bound to at the given end (R100): DIR 0 receives, DIR 1 sends. -/
def boundQueue (c : CoreId) (port : Fin 8) (send : Bool) (s : State) : Option Nat :=
  let w := s.word (qbindAddr c port)
  if bit w 31 && (bit w 8 == send) then some (bits w 0 8) else none

/-- Some port of a core is bound to an end of a queue. -/
def coreHolds (c : CoreId) (q : Nat) (send : Bool) (s : State) : Bool :=
  (List.finRange 8).any fun p => boundQueue c p send s == some q

/-- Some port of some core is bound to an end of a queue. -/
def anyHolds (q : Nat) (send : Bool) (s : State) : Bool := (List.finRange 8).any fun c => coreHolds c q send s

/-! ### Transactions in flight (R35, R48) -/

/-- The transactions in flight device-wide: requests at the DRAM channels, replies not yet taken, and open control-space
runs. -/
def inflight (s : State) : Nat :=
  (s.dram.chans.toList.map (·.queue.length)).sum + (s.cores.toList.map fun k => k.farReplies.length + k.csRun.length).sum

/-- A transaction finds room device-wide (R35, R36, R45): stop-class requests may use all 1,536, every other one waits while 1,472 are in
flight. A stop-class request is answered within the step that makes it, so what is in flight between steps is of the other class. -/
def fabricRoom (stop : Bool) (s : State) : Bool := decide (inflight s < if stop then 1536 else 1472)

/-- The cores can act: the core die is powered and not held in reset (Table 3.1). -/
def coresPowered (s : State) : Bool :=
  !s.modes.held && match s.modes.mode with | .dormant | .standby => false | _ => true

/-- A core's request that is not stop-class is admitted: the core can act, and the device-wide bound leaves room; at the bound it waits,
and its sender repeats it (R36). -/
def coreMay (s : State) : Bool := coresPowered s && fabricRoom false s

/-- What a unit of the core die does happens only while the core die runs (R50). -/
def whileOn (f : State → State) (s : State) : State := if coresPowered s then f s else s

/-- FABRIC_INFLIGHT.PEAK keeps the highest count. -/
def notePeak (s : State) : State := s.setField 0x0400 16 11 (max (s.field 0x0400 16 11) (min 2047 (inflight s)))

/-- A unit that failed its static wiring check is disabled (Table 3.9). -/
def unitFailed (k : WiringCheck) (n : Nat) (s : State) : Bool := s.modes.failed.contains (k, n)

/-! ### The rules of words -/

/-- What a block's own rule says of a write that R543 has accepted: it is refused under R545 with what the rule raises;
or the fields take their bits of a value as Table 0.4 states, and the rule's effect follows. -/
inductive Rule where
  | refuse (raises : State → State)
  | accept (val : Word) (after : State → State)

/-- A write with no rule of its own. -/
def Rule.plain (val : Word) : Rule := .accept val id

/-- A write refused with a fault. -/
def Rule.fault (code unit data : Nat) : Rule := .refuse (record code unit data)

/-- A write accepted only where a condition holds, else refused with a fault. -/
def Rule.when (ok : Bool) (code unit data : Nat) (r : Rule) : Rule := if ok then r else .fault code unit data

/-! ### Traps -/

/-- The flags word F (Table 4.2). -/
def Flags.toWord (f : Flags) : Word :=
  BitVec.ofNat 32 (b2n f.z + 2 * b2n f.n + 4 * b2n f.c + 8 * b2n f.v + 16 * b2n f.t + 32 * b2n f.late)

/-- The flags a saved word F restores. -/
def Flags.ofWord (w : Word) : Flags := ⟨bit w 0, bit w 1, bit w 2, bit w 3, bit w 4, bit w 5⟩

/-- The address of a per-core control word (R109). -/
def coreAddr (c : CoreId) (off : Nat) : Nat := 0x0800 + 0x40 * c.val + off

/-- A code address: bits [1:0] of a PC are always 0 (Table 4.1). -/
def codeAddr (w : Word) : Word := w &&& ~~~3

/-- A trap is entered: PC, F and the cause are saved, F.T is set, and the core goes on at its vector (R96, R133). -/
def enterTrap (c : CoreId) (cause : Nat) (pc lo hi : Word) (s : State) : State :=
  let vector := codeAddr (s.word (coreAddr c 3))
  s.updCore c fun k => { k with
    trapCause := BitVec.ofNat 4 cause, trapPc := pc, trapF := k.f.toWord, trapLo := lo, trapHi := hi,
    f := { k.f with t := true }, pc := vector, status := .running, entryWait := false }

/-- A synchronous cause: a trap, or the halt of a core whose handler runs (R96, R97). -/
def syncTrap (c : CoreId) (cause : Nat) (pc lo hi : Word) (s : State) : State :=
  if (s.core c).f.t then
    record 0x1010 c (cause % 16 * 2 ^ 28 + pc.toNat % 2 ^ 22) (s.updCore c fun k => { k with status := .doubleTrap })
  else enterTrap c cause pc lo hi s

/-- A held cause takes its place in cause order (R97). -/
def holdCause (x : Nat × DWord) : List (Nat × DWord) → List (Nat × DWord)
  | [] => [x]
  | y :: ys => if x.1 < y.1 then x :: y :: ys else y :: holdCause x ys

/-- A core can take an asynchronous trap now: it runs or sleeps in WAIT, no handler runs, and no control-space run is
open (R97, R137, R141). -/
def canTrap (k : Core) : Bool :=
  (match k.status with | .running => true | .waiting _ _ => true | _ => false) && !k.f.t && k.csRun.isEmpty

/-- An asynchronous trap is entered: the PC of the instruction that was due is saved; the far causes place the far
address (R80), WATCHDOG places none (R133). For a core that sleeps in WAIT that is the WAIT itself, which RETURN then executes again
(DESIGN CHOICE: log entry 175). -/
def enterAsync (c : CoreId) (x : Nat × DWord) (s : State) : State :=
  let k := s.core c
  let (lo, hi) := if x.1 = 12 then (k.trapLo, (0 : Word)) else (x.2.setWidth 32, (x.2 >>> 32).setWidth 32)
  enterTrap c x.1 k.pc lo hi s

/-- An asynchronous cause arises: it is taken, or held (R97, R104, R137, R141). -/
def asyncTrap (c : CoreId) (cause : Nat) (addr : DWord) (s : State) : State :=
  if canTrap (s.core c) then enterAsync c (cause, addr) s
  else s.updCore c fun k => { k with held := holdCause (cause, addr) k.held }

/-- The first held cause is taken where the core can take it (R97, R137, R141). -/
def takeHeld (c : CoreId) (s : State) : State :=
  match (s.core c).held with
  | [] => s
  | x :: xs => if canTrap (s.core c) then enterAsync c x (s.updCore c fun k => { k with held := xs }) else s

/-- The return from a trap: F and PC come back from the saved words, at the saved PC + 4 with SKIP; a held cause is
taken after it (R96, R97, R132). -/
def returnTrap (c : CoreId) (skip : Bool) (s : State) : State :=
  takeHeld c (s.updCore c fun k => { k with
    f := Flags.ofWord k.trapF, pc := k.trapPc + (if skip then 4 else 0) })

end Sys2Proof.Machine
end

