-- ==== Sys2Proof/Machine/Operands.lean ====
section
/-! DEFINITION. The operand forms of the Epiezil instructions: registers with the G0 rule, pairs, time registers,
immediates, the instruction word each format spells (Table 5.1), locked registers, the fetch, and the one frame in which
every instruction runs: it waits where it must, traps where the fetch or the encoding is wrong, and else has its
effect. -/
namespace Sys2Proof.Machine

/-- A general register: G0 reads 0 (Table 4.1). -/
def Core.reg (k : Core) (r : Reg) : Word := if r = 0 then 0 else k.g[r]

/-- A general register written: a write of G0 is ignored (Table 4.1). -/
def Core.setReg (k : Core) (r : Reg) (v : Word) : Core := if r = 0 then k else { k with g := k.g.set r v }

/-- The pair Gn:Gn+1, Gn+1 holding bits [63:32] (R114). -/
def Core.pair (k : Core) (r : Reg) : DWord := k.reg (r + 1) ++ k.reg r

/-- A pair written, each register by the G0 rule (R114). -/
def Core.setPair (k : Core) (r : Reg) (v : DWord) : Core :=
  (k.setReg r (v.setWidth 32)).setReg (r + 1) ((v >>> 32).setWidth 32)

/-- An odd register does not name a pair (R114). -/
def oddPair (r : Reg) : Bool := decide (r.val % 2 = 1)

/-- A time register written. -/
def Core.setTime (k : Core) (n : TReg) (v : DWord) : Core := { k with t := k.t.set n v }

/-- The core goes on at the next word. -/
def Core.next (k : Core) : Core := { k with pc := k.pc + 4 }

/-- The instruction ends: the core is changed and goes on at the next word. -/
def finish (c : CoreId) (f : Core → Core) (s : State) : State := s.updCore c fun k => (f k).next

/-! ### Instruction words (Table 5.1) -/

/-- The word of format A. -/
def wordA (op : Nat) (rd ra rb rc : Reg) (tn : TReg) : Word :=
  BitVec.ofNat 32 (op * 2 ^ 26 + rd * 2 ^ 22 + ra * 2 ^ 18 + rb * 2 ^ 14 + rc * 2 ^ 10 + tn * 2 ^ 8)

/-- The word of format B. -/
def wordB (op : Nat) (rd ra : Reg) (imm : BitVec 18) : Word :=
  BitVec.ofNat 32 (op * 2 ^ 26 + rd * 2 ^ 22 + ra * 2 ^ 18 + imm.toNat)

/-- The word of format C, with COND or RD in [25:22]. -/
def wordC (op cond : Nat) (imm : BitVec 22) : Word := BitVec.ofNat 32 (op * 2 ^ 26 + cond * 2 ^ 22 + imm.toNat)

/-- The word of format D. -/
def wordD (op : Nat) (rd ra : Reg) (tn : TReg) (imm : BitVec 16) : Word :=
  BitVec.ofNat 32 (op * 2 ^ 26 + rd * 2 ^ 22 + ra * 2 ^ 18 + tn * 2 ^ 16 + imm.toNat)

/-! ### Waiting and fetching -/

/-- A register is the destination of an outstanding far load (R78, R121). -/
def Core.locked (k : Core) (r : Reg) : Bool :=
  k.farOut.any fun q => decide (q.rd = r) || (q.wide && decide (q.rd + 1 = r))

/-- The far loads a core has outstanding (R77). -/
def Core.farLoads (k : Core) : Nat := k.farOut.length

/-- What the fetch at the PC gives: the instruction, a wait of an entry core for its first bank (R255), or a trap. -/
inductive Fetch where
  | ok
  | waits
  | trap (cause : Nat)
  deriving DecidableEq, Repr

/-- The fetch at the PC: its bank owned (R76), its four bytes of right parity (R259). An entry core's first fetch, at ENTRY_PC alone, waits
for its bank (R255). -/
def fetch (c : CoreId) (s : State) : Fetch × State :=
  let k := s.core c
  if s.owns c k.pc.toNat then
    match bankRead c k.pc.toNat 4 s with
    | (.ok _, s) => (.ok, s)
    | (.refused, s) => (.trap 2, s)
    | (.parity, s) => (.trap 3, s)
  else if k.entryWait && decide (k.pc = s.modes.entryPc) then (.waits, s)
  else (.trap 2, bankRefused c k.pc.toNat s)

/-- The core halts with the instruction that it executes: a test engineer's single step ends (Table 6.7), and a HALT that fell in a BTAKE's
fill takes effect (R109). A BTAKE that waits for a fill has not ended. -/
def stepped (c : CoreId) (s : State) : State :=
  onlyIf (s.core c).step (fun s => s.updCore c fun k => match k.status with
    | .filling _ _ => k
    | .doubleTrap => { k with step := false }
    | _ => { k with step := false, status := .halted }) s

/-- The frame of an instruction of core c. A core that does not run, an open control-space run before an instruction of
another kind (`joins` false) or before a trap of the fetch, and a locked register leave the state as it is: the instruction waits, and its
sender repeats it (R128). A wrong fetch or encoding traps (R112, R136). -/
def instr (c : CoreId) (joins illegal : Bool) (uses : List Reg) (word : Word) (body : State → State) (s : State) :
    State :=
  let k := s.core c
  if k.status ≠ .running then s
  else if !joins && !k.csRun.isEmpty then s
  else
    match fetch c s with
    | (.waits, _) => s
    | (.trap cause, s') => if !k.csRun.isEmpty then s else stepped c (syncTrap c cause k.pc k.pc 0 s')
    | (.ok, s') =>
      if illegal then stepped c (syncTrap c 1 k.pc word 0 s')
      else if uses.any k.locked then s
      else stepped c (body (s'.updCore c fun k => { k with entryWait := false }))

/-- The frame of a plain instruction: it ends any control-space run before it. -/
def plain (c : CoreId) (illegal : Bool) (uses : List Reg) (word : Word) (body : State → State) (s : State) : State :=
  instr c false illegal uses word body s

end Sys2Proof.Machine
end

