-- ==== Sys2Proof/Machine/Flags.lean ====
section
/-! DEFINITION. Every flag computation of the Epiezil cores (Table 5.4, Table 5.5, R119): the value an operation gives,
together with the flags it leaves. -/
namespace Sys2Proof.Machine

/-- N and Z of a 32-bit result. -/
def Flags.nz (f : Flags) (v : Word) : Flags := { f with n := v.msb, z := decide (v = 0) }

/-- N and Z of a 64-bit result. -/
def Flags.nz64 (f : Flags) (v : DWord) : Flags := { f with n := v.msb, z := decide (v = 0) }

/-- Z alone. -/
def Flags.setZ (f : Flags) (z : Bool) : Flags := { f with z := z }

/-- ra + rb: C carries out, V is signed overflow. -/
def addFlags (f : Flags) (a b : Word) : Word × Flags :=
  let r := a + b
  (r, { f.nz r with c := decide (2 ^ 32 ≤ a.toNat + b.toNat), v := (a.msb == b.msb) && (r.msb != a.msb) })

/-- ra − rb: C is 1 if ra ≥ rb unsigned, V is signed overflow. -/
def subFlags (f : Flags) (a b : Word) : Word × Flags :=
  let r := a - b
  (r, { f.nz r with c := decide (b.toNat ≤ a.toNat), v := (a.msb != b.msb) && (r.msb != a.msb) })

/-- A logic result: N and Z. -/
def logicFlags (f : Flags) (r : Word) : Word × Flags := (r, f.nz r)

/-- Left shift by 0–63: C is the last bit out, unchanged for 0. -/
def shlFlags (f : Flags) (a : Word) (n : Nat) : Word × Flags :=
  let r := a <<< n
  (r, { f.nz r with c := if n = 0 then f.c else decide (n ≤ 32) && a.getLsbD (32 - n) })

/-- Right shift with zero fill by 0–63. -/
def shrFlags (f : Flags) (a : Word) (n : Nat) : Word × Flags :=
  let r := a >>> n
  (r, { f.nz r with c := if n = 0 then f.c else a.getLsbD (n - 1) })

/-- Right shift with sign fill by 0–63: the bits beyond the word are the sign. -/
def sarFlags (f : Flags) (a : Word) (n : Nat) : Word × Flags :=
  let r := a.sshiftRight n
  (r, { f.nz r with c := if n = 0 then f.c else if n ≤ 32 then a.getLsbD (n - 1) else a.msb })

/-- Saturation of an exact value to a signed 32-bit word, with V. -/
def satFlags (f : Flags) (x : Int) : Word × Flags :=
  let y := satS 32 x
  let r := wordOf y
  (r, { f.nz r with v := decide (y ≠ x) })

/-- The rounded, saturated Q1.31 product (R118). -/
def mulqFlags (f : Flags) (a b : Word) : Word × Flags := satFlags f (roundShift (a.toInt * b.toInt) 31)

/-- The rounded, saturated extract of a pair: the rounding add wraps at 64 bits (R118). -/
def extqFlags (f : Flags) (p : DWord) (sh : Nat) : Word × Flags :=
  let q : DWord := if sh = 0 then p else p + BitVec.ofNat 64 (2 ^ (sh - 1))
  satFlags f (q.toInt >>> sh)

/-- The multiply-accumulate into a pair, wrapping: V is signed overflow (Table 5.4). -/
def macFlags (f : Flags) (p : DWord) (a b : Word) : DWord × Flags :=
  let x := p.toInt + a.toInt * b.toInt
  let r : DWord := BitVec.ofInt 64 x
  (r, { f.nz64 r with v := decide (r.toInt ≠ x) })

/-- The multiply-accumulate into a pair, saturating: V is 1 if saturated (Table 5.4). -/
def macsFlags (f : Flags) (p : DWord) (a b : Word) : DWord × Flags :=
  let x := p.toInt + a.toInt * b.toInt
  let y := satS 64 x
  let r : DWord := BitVec.ofInt 64 y
  (r, { f.nz64 r with v := decide (y ≠ x) })

/-- The conditions of Table 5.5. -/
def condHolds (f : Flags) (cond : BitVec 4) : Bool :=
  match cond.toNat with
  | 0 => f.z
  | 1 => !f.z
  | 2 => f.c
  | 3 => !f.c
  | 4 => f.n
  | 5 => !f.n
  | 6 => f.v
  | 7 => !f.v
  | 8 => f.c && !f.z
  | 9 => !f.c || f.z
  | 10 => f.n == f.v
  | 11 => f.n != f.v
  | 12 => !f.z && (f.n == f.v)
  | 13 => f.z || (f.n != f.v)
  | 14 => true
  | _ => f.late

end Sys2Proof.Machine
end

