-- ==== Sys2Proof/Machine/CoreSync.lean ====
section
/-! DEFINITION. Queues, events and time of the Epiezil cores (R83, R84, R101, R123–R125), and traps and control (R96,
R132). -/
namespace Sys2Proof.Machine

open Host (Outcome)

/-! ### Queues -/

/-- An instruction on a queue port: the port is IMM16[2:0] and every other bit is zero; a port that is unbound or bound
at the other end traps QUEUE_UNBOUND with its number (R123, R133). -/
def onPort (op : Nat) (c : CoreId) (rd : Reg) (imm : BitVec 16) (send : Bool) (body : Nat → State → State) (s : State) :
    State :=
  plain c (decide (8 ≤ imm.toNat)) [rd] (wordD op rd 0 0 imm) (fun s =>
    let p : Fin 8 := Fin.ofNat 8 imm.toNat
    match boundQueue c p send s with
    | some q => body q s
    | none => syncTrap c 7 (s.core c).pc (BitVec.ofNat 32 p.val) 0 s) s

/-- SEND: rd is sent on the port; without a credit it waits (R26, R123). -/
def execSend (c : CoreId) (rd : Reg) (imm : BitVec 16) (s : State) : Outcome State Fault Refusal :=
  .next (onPort 0x25 c rd imm true (fun q s =>
    if s.credits q c = 0 then s else finish c id (pushQueue q c ((s.core c).reg rd) s)) s)

/-- TAKE: the head entry goes into rd; without an entry it waits (R26, R123). What the KNP engine holds for the queue
follows (R146). -/
def execTake (c : CoreId) (rd : Reg) (imm : BitVec 16) (s : State) : Outcome State Fault Refusal :=
  .next (onPort 0x26 c rd imm false (fun q s =>
    match s.queue q with
    | [] => s
    | e :: _ => finish c (fun k => k.setReg rd e.val) (afterTake q (popQueue q s))) s)

/-- PEEK: the head entry is copied into rd and Z := 0; without an entry Z := 1 (R123). -/
def execPeek (c : CoreId) (rd : Reg) (imm : BitVec 16) (s : State) : Outcome State Fault Refusal :=
  .next (onPort 0x27 c rd imm false (fun q s =>
    match s.queue q with
    | [] => finish c (fun k => { k with f := k.f.setZ true }) s
    | e :: _ => finish c (fun k => { k.setReg rd e.val with f := k.f.setZ false }) s) s)

/-! ### Events -/

/-- A queue port is ready: bound to receive and an entry is there, or bound to send and a credit is held (Table 4.3). -/
def portReady (c : CoreId) (p : Fin 8) (s : State) : Bool :=
  match boundQueue c p false s, boundQueue c p true s with
  | some q, _ => !(s.queue q).isEmpty
  | _, some q => decide (0 < s.credits q c)
  | none, none => false

/-- The tacks a core has pending. -/
def State.tackCount (s : State) (c : CoreId) : Nat := (s.tacks.filter fun t => decide (t.core = c)).length

/-- Event n of Table 4.3 is pending on core c: the level events by their condition, the latched events as raised. -/
def eventPending (c : CoreId) (s : State) (n : Nat) : Bool :=
  let k := s.core c
  if n < 8 then portReady c (Fin.ofNat 8 n) s
  else if 16 ≤ n && n < 20 then decide ((k.t[Fin.ofNat 4 (n - 16)]).toNat ≤ s.deviceTime.toNat)
  else if n = 20 then k.farOut.isEmpty
  else if n = 21 then decide (s.tackCount c < 64)
  else n < 25 && bit k.events n

/-- The event set of a core as a word: CORE_EVENT_PENDING (Table 4.3). -/
def eventWord (c : CoreId) (s : State) : Word :=
  (List.range 25).foldl (fun w n => setBit w n (eventPending c s n)) 0

/-- The lowest pending event of a mask (R84). -/
def firstEvent (c : CoreId) (mask : Word) (s : State) : Option Nat :=
  (List.range 25).find? fun n => bit mask n && eventPending c s n

/-- A WAIT ends with an event: its number goes to the register, a latched event is cleared (R84). -/
def endWait (c : CoreId) (rd : Reg) (n : Nat) (s : State) : State :=
  finish c (fun k => { k.setReg rd (BitVec.ofNat 32 n) with events := setBit k.events n false, status := .running }) s

/-- WAIT: with an event of the mask pending it ends at once, else the core sleeps; a mask of zero or with a reserved
bit traps ILLEGAL (R84, R124). -/
def execWait (c : CoreId) (rd ra : Reg) (s : State) : Outcome State Fault Refusal :=
  let w := wordA 0x28 rd ra 0 0 0
  .next (plain c false [rd, ra] w (fun s =>
    let k := s.core c
    let mask := k.reg ra
    if mask = 0 || decide (2 ^ 25 ≤ mask.toNat) then syncTrap c 1 k.pc w 0 s
    else match firstEvent c mask s with
      | some n => endWait c rd n s
      | none => s.updCore c fun k => { k with status := .waiting mask rd }) s)

/-- WAIT_WAKE: a sleeping core wakes when a masked event is pending (R84, R102). -/
def execWaitWake (c : CoreId) (s : State) : Outcome State Fault Refusal :=
  .next (match (s.core c).status with
    | .waiting mask rd =>
      match firstEvent c mask s with
      | some n => endWait c rd n s
      | none => s
    | _ => s)

/-- EVENT: SE bit IMM16[2:0] of core IMM16[10:8] is raised; it is lost where that core is being reset (R101, R124,
R140). -/
def execEvent (c : CoreId) (imm : BitVec 16) (s : State) : Outcome State Fault Refusal :=
  let n := imm.toNat
  .next (plain c (decide (n % 256 / 8 ≠ 0) || decide (2048 ≤ n)) [] (wordD 0x29 0 0 0 imm) (fun s =>
    let target : CoreId := Fin.ofNat 8 (n / 256)
    let s := onlyIf (!s.blockOut (target.castLE (by decide))) (raiseEvent (8 + n % 8) target) s
    finish c id s) s)

/-! ### Time -/

/-- The device time as read: bits [2:0] are 0 (R75, Table 4.2). -/
def State.now (s : State) : DWord := s.deviceTime &&& ~~~7

/-- TNOW: Tn takes the device time (R125). -/
def execTnow (c : CoreId) (tn : TReg) (s : State) : Outcome State Fault Refusal :=
  .next (plain c false [] (wordD 0x2D 0 0 tn 0) (fun s => finish c (fun k => k.setTime tn s.now) s) s)

/-- TADD: sext(ra) nanoseconds are added to Tn, wrapping (R125). -/
def execTadd (c : CoreId) (tn : TReg) (ra : Reg) (s : State) : Outcome State Fault Refusal :=
  .next (plain c false [ra] (wordD 0x2E 0 ra tn 0)
    (finish c fun k => k.setTime tn (k.t[tn] + (k.reg ra).signExtend 64)) s)

/-- TGET: pair rd takes Tn (R125). -/
def execTget (c : CoreId) (rd : Reg) (tn : TReg) (s : State) : Outcome State Fault Refusal :=
  .next (plain c (oddPair rd) [rd, rd + 1] (wordD 0x2F rd 0 tn 0) (finish c fun k => k.setPair rd k.t[tn]) s)

/-- TPUT: Tn takes pair ra (R125). -/
def execTput (c : CoreId) (tn : TReg) (ra : Reg) (s : State) : Outcome State Fault Refusal :=
  .next (plain c (oddPair ra) [ra, ra + 1] (wordD 0x30 0 ra tn 0) (finish c fun k => k.setTime tn (k.pair ra)) s)

/-! ### Traps and control -/

/-- TRAP: the handler is entered with cause SOFTWARE and the code in CORE_TRAP_ADDR_LO (R132). -/
def execTrap (c : CoreId) (imm : BitVec 22) (s : State) : Outcome State Fault Refusal :=
  .next (plain c false [] (wordC 0x3B 0 imm) (fun s => syncTrap c 9 (s.core c).pc (imm.setWidth 32) 0 s) s)

/-- RETURN: F and PC come back from the saved words, at the saved PC + 4 with SKIP; F.T = 0 or a nonzero IMM22[21:1]
traps ILLEGAL (R96, R132). -/
def execReturnFromTrap (c : CoreId) (imm : BitVec 22) (s : State) : Outcome State Fault Refusal :=
  .next (plain c (decide (2 ≤ imm.toNat) || !(s.core c).f.t) [] (wordC 0x3C 0 imm)
    (returnTrap c (decide (imm = 1))) s)

/-- NOP does nothing (R132). -/
def execNop (c : CoreId) (s : State) : Outcome State Fault Refusal :=
  .next (plain c false [] (wordC 0x3D 0 0) (finish c id) s)

/-- HALT halts the core until START is written (R132). -/
def execHalt (c : CoreId) (s : State) : Outcome State Fault Refusal :=
  .next (plain c false [] (wordC 0x3E 0 0) (fun s => s.updCore c fun k => { k.next with status := .halted }) s)

/-! ### Words that are no instruction (R112, R142) -/

/-- Bits hi to lo of a word, as a mask. -/
def fieldMask (hi lo : Nat) : Nat := 2 ^ (hi + 1) - 2 ^ lo

/-- The bits of its word that an opcode uses beside OP, by the formats of Table 5.1 and the operands of each instruction; none for an opcode
that is illegal (Table 5.11). -/
def usedBits (op : Nat) : Option Nat :=
  let rd := fieldMask 25 22
  let ra := fieldMask 21 18
  let rb := fieldMask 17 14
  let rc := fieldMask 13 10
  let tn := fieldMask 9 8
  let sub := fieldMask 17 16
  let imm18 := fieldMask 17 0
  let imm22 := fieldMask 21 0
  let imm16 := fieldMask 15 0
  if op = 0 || 0x3F ≤ op then none
  else if op < 0x09 then some (rd + ra + rb)                           -- ADD to SAR
  else if op < 0x0D then some (rd + ra + imm18)                        -- ADDI to XORI
  else if op < 0x10 then some (rd + ra + fieldMask 4 0)                -- SHLI, SHRI, SARI
  else if op = 0x10 then some (rd + imm18)                             -- LUI
  else if op < 0x16 then some (rd + ra + rb)                           -- MUL to MACS
  else if op = 0x16 then some (rd + ra + fieldMask 5 0)                -- EXTQ
  else if op = 0x17 then some (ra + rb)                                -- CMP
  else if op = 0x18 then some (ra + imm18)                             -- CMPI
  else if op < 0x1B then some (rd + imm22)                             -- Bcc, BL
  else if op = 0x1B then some ra                                       -- JR
  else if op < 0x21 then some (rd + ra + imm18)                        -- LDW to STB
  else if op < 0x25 then some (rd + ra + imm16)                        -- FLDW to FSTD
  else if op < 0x28 then some (rd + fieldMask 2 0)                     -- SEND, TAKE, PEEK
  else if op = 0x28 then some (rd + ra)                                -- WAIT
  else if op = 0x29 then some (fieldMask 10 8 + fieldMask 2 0)         -- EVENT
  else if op = 0x2A then some (rd + ra + rb + tn)                      -- TACK
  else if op = 0x2B then some (rd + ra + rb + rc + tn)                 -- TACKP
  else if op = 0x2C then some (rd + ra)                                -- UNTACK
  else if op = 0x2D then some sub                                      -- TNOW
  else if op = 0x2E || op = 0x30 then some (ra + sub)                  -- TADD, TPUT
  else if op = 0x2F then some (rd + sub)                               -- TGET
  else if op < 0x35 then some (rd + ra + imm16)                        -- CGET to CCLR
  else if op = 0x35 then some (rd + fieldMask 4 0)                     -- BGIVE
  else if op = 0x36 then some (rd + ra)                                -- BTAKE
  else if op < 0x39 then some (rd + ra + rb)                           -- SWAP, ADDM
  else if op < 0x3B then some (rd + ra)                                -- CLAIM, YIELD
  else if op = 0x3B then some imm22                                    -- TRAP
  else if op = 0x3C then some 1                                        -- RETURN
  else some 0                                                          -- NOP, HALT

/-- A word that no instruction has: an illegal opcode, or a bit set in a field that its instruction does not use (R112). -/
def illegalWord (w : Word) : Bool :=
  match usedBits (bits w 26 6) with
  | some m => decide (w.toNat % 2 ^ 26 &&& (2 ^ 26 - 1 - m) ≠ 0)
  | none => true

/-- ILLEGAL_OPCODE: a word that is no instruction traps with cause ILLEGAL and is placed in CORE_TRAP_ADDR_LO (R112, R133); a word that
is one is no such event. -/
def execIllegalOpcode (c : CoreId) (word : Word) (s : State) : Outcome State Fault Refusal :=
  .next (if illegalWord word then plain c true [] word id s else s)

end Sys2Proof.Machine
end

