-- ==== Sys2Proof/Machine/Codec.lean ====
section
/-! DEFINITION. The block codings of the frame store, of Holros slices and of the trace (Table 11.3, R273, R363), and the code of the KSL lanes (R303): bits
packed most significant first, the packed raw block and the delta code, and their reading back. -/
namespace Sys2Proof.Machine

/-- Fields of (width, value), first field most significant, as one number with its width. -/
def packFields : List (Nat × Nat) → Nat × Nat
  | [] => (0, 0)
  | (w, v) :: r =>
    let (n, x) := packFields r
    (w + n, v % 2 ^ w * 2 ^ n + x)

/-- The bytes of a number of n bits, most significant first, padded with zeros to a byte boundary. -/
def bitsToBytes (n v : Nat) : Bytes :=
  let bytes := (n + 7) / 8
  let x := v * 2 ^ (bytes * 8 - n)
  (List.range bytes).map fun i => BitVec.ofNat 8 (x / 2 ^ (8 * (bytes - 1 - i)))

/-- Fields packed into bytes. -/
def packBytes (fs : List (Nat × Nat)) : Bytes :=
  let (n, v) := packFields fs
  bitsToBytes n v

/-- The number that bytes spell, most significant first. -/
def beNat (bs : Bytes) : Nat := bs.foldl (fun x b => x * 256 + b.toNat) 0

/-- n bits of a run of bytes from bit `at_` on, bit 0 the most significant of the first byte. -/
def takeBits (bs : Bytes) (at_ n : Nat) : Nat :=
  let total := bs.length * 8
  beNat bs / 2 ^ (total - (at_ + n)) % 2 ^ n

/-- The differences of neighbours. -/
def differences : List Int → List Int
  | a :: b :: r => (b - a) :: differences (b :: r)
  | _ => []

/-- The least width that holds an integer in two's complement; 0 for 0. -/
def widthOf (fuel : Nat) (d : Int) : Nat :=
  if d = 0 then 0
  else ((List.range fuel).find? fun w => decide (-(2 ^ w : Nat) ≤ d) && decide (d < (2 ^ w : Nat))).getD fuel + 1

/-- The fields of the delta code of a plane: WIDTH in wb bits, FIRST in vb bits, the differences (R273). -/
def deltaPlane (wb vb : Nat) (xs : List Int) : List (Nat × Nat) :=
  let ds := differences xs
  let w := (ds.map (widthOf 40)).foldl max 0
  (wb, w) :: (vb, (xs.headD 0 % 2 ^ vb).toNat) :: ds.map fun d => (w, (d % 2 ^ w).toNat)

/-- A lossless block of planes: a header byte, then the delta code where it is shorter than the packed raw block (R273). -/
def losslessBlock (wb vb : Nat) (planes : List (List Int)) : Bytes :=
  let raw := packBytes (planes.flatten.map fun x => (vb, (x % 2 ^ vb).toNat))
  let delta := packBytes (planes.map (deltaPlane wb vb)).flatten
  if delta.length < raw.length then 1 :: delta else 0 :: raw

/-- n − 1 values after the first, each the one before plus a difference of w bits. -/
def undelta (bs : Bytes) (w : Nat) : Nat → Nat → Int → List Int
  | 0, _, _ => []
  | n + 1, at_, prev =>
    let x := prev + (if w = 0 then 0 else signed w (takeBits bs at_ w))
    x :: undelta bs w n (at_ + w) x

/-- The planes of the given lengths read back from a delta code. -/
def readDelta (wb vb : Nat) (bs : Bytes) : List Nat → Nat → List (List Int)
  | [], _ => []
  | n :: ns, at_ =>
    let w := takeBits bs at_ wb
    let first : Int := takeBits bs (at_ + wb) vb
    (first :: undelta bs w (n - 1) (at_ + wb + vb) first) :: readDelta wb vb bs ns (at_ + wb + vb + (n - 1) * w)

/-- The planes of the given lengths read back from a packed raw block. -/
def readRaw (vb : Nat) (bs : Bytes) : List Nat → Nat → List (List Int)
  | [], _ => []
  | n :: ns, at_ =>
    ((List.range n).map fun i => (takeBits bs (at_ + i * vb) vb : Int)) :: readRaw vb bs ns (at_ + n * vb)

/-- A lossless block read back. -/
def readLossless (wb vb : Nat) (lens : List Nat) (bs : Bytes) : List (List Int) :=
  match bs with
  | [] => []
  | h :: r => if h = 1 then readDelta wb vb r lens 0 else readRaw vb r lens 0

/-- The bits of a delta code whose planes have the given lengths. -/
def deltaBits (wb vb : Nat) (bs : Bytes) : List Nat → Nat → Nat
  | [], at_ => at_
  | n :: ns, at_ => deltaBits wb vb bs ns (at_ + wb + vb + (n - 1) * takeBits bs at_ wb)

/-- The length of a lossless block in bytes, its header included (R273). -/
def losslessLen (wb vb : Nat) (lens : List Nat) (bs : Bytes) : Nat :=
  match bs with
  | [] => 0
  | h :: r => 1 + (if h = 1 then deltaBits wb vb r lens 0 + 7 else lens.sum * vb + 7) / 8

/-! ### CRC-16 -/

/-- One bit of the CRC-16 (CCITT), polynomial x¹⁶ + x¹² + x⁵ + 1, the bit most significant first. -/
def crc16Bit (r : Nat) (b : Bool) : Nat :=
  let x := r * 2 % 65536
  if decide (32768 ≤ r) != b then x ^^^ 0x1021 else x

/-- The CRC-16 (CCITT) over bytes (R304). -/
def crc16 (bs : Bytes) : Nat :=
  bs.foldl (fun r b => (List.range 8).foldl (fun r i => crc16Bit r (b.getLsbD (7 - i))) r) (Config.crc16Init % 65536)

/-- A number as n big-endian bytes. -/
def beBytes (n v : Nat) : Bytes := (leBytes n v).reverse

/-! ### 8b/10b (R303)

The code of IEEE 802.3 clause 36, which R303 names. A code group is written with bit a at the left in the tables, and has bit a as its bit
0. -/

/-- abcdei of the 32 data values at negative running disparity, bit a leftmost. -/
def table6 : List (BitVec 6) :=
  [0b100111, 0b011101, 0b101101, 0b110001, 0b110101, 0b101001, 0b011001, 0b111000,
   0b111001, 0b100101, 0b010101, 0b110100, 0b001101, 0b101100, 0b011100, 0b010111,
   0b011011, 0b100011, 0b010011, 0b110010, 0b001011, 0b101010, 0b011010, 0b111010,
   0b110011, 0b100110, 0b010110, 0b110110, 0b001110, 0b101110, 0b011110, 0b101011]

/-- fghj of the eight values of a data symbol at negative running disparity, bit f leftmost. -/
def table4 : List (BitVec 4) := [0b1011, 0b1001, 0b0101, 0b1100, 0b1101, 0b1010, 0b0110, 0b1110]

/-- fghj of the eight values of a K symbol at negative running disparity, bit f leftmost. -/
def tableK4 : List (BitVec 4) := [0b1011, 0b0110, 0b1010, 0b1100, 0b1101, 0b0101, 0b1001, 0b0111]

/-- The ones of a sub-block. -/
def onesIn {n : Nat} (b : BitVec n) : Nat := (List.range n).foldl (fun t i => t + b2n (b.getLsbD i)) 0

/-- A sub-block at a running disparity (positive: true) and the disparity after it: one of unequal ones and zeros is complemented at
positive disparity and changes it; an equal one stands, but for the two that have an alternate of their own. -/
def subBlock {n : Nat} (b : BitVec n) (alternate rd : Bool) : BitVec n × Bool :=
  if 2 * onesIn b = n then (if rd && alternate then ~~~b else b, rd) else (if rd then ~~~b else b, !rd)

/-- The code group of a symbol at a running disparity, and the disparity after it. -/
def encode8b10b (x : KslSymbol) (rd : Bool) : BitVec 10 × Bool :=
  let (k, v) := match x with | .k b => (true, b.toNat) | .d b => (false, b.toNat)
  let lo := v % 32
  let hi := v / 32
  let (six, rd6) := subBlock (if k && decide (lo = 28) then 0b001111 else table6.getD lo 0) (decide (lo = 7)) rd
  let alt7 := !k && decide (hi = 7) && (if rd6 then [11, 13, 14] else [17, 18, 20]).contains lo
  let (four, rd4) :=
    if k then (if rd6 then ~~~(tableK4.getD hi 0) else tableK4.getD hi 0, if hi = 0 || hi = 4 || hi = 7 then !rd6 else rd6)
    else if alt7 then subBlock 0b0111 false rd6
    else subBlock (table4.getD hi 0) (decide (hi = 3)) rd6
  ((six ++ four).reverse, rd4)

/-- The code groups of some symbols at a running disparity, and the disparity after them. -/
def encodeKsl (rd : Bool) : List KslSymbol → List (BitVec 10) × Bool
  | [] => ([], rd)
  | x :: xs =>
    let (g, rd) := encode8b10b x rd
    let (gs, rd) := encodeKsl rd xs
    (g :: gs, rd)

end Sys2Proof.Machine
end

