-- ==== Sys2Proof/Machine/Crypto.lean ====
section
/-! DEFINITION. The cryptography the spec names by its standards: SHA-256 (FIPS 180-4) and HMAC-SHA-256 (FIPS 198-1) for
session keys, tags and responses (R150, R160), and ECDSA on P-256 (FIPS 186-4) for image signatures (R154). -/
namespace Sys2Proof.Machine

/-! ### SHA-256 -/

/-- The round constants. -/
def shaK : List Word := [
  0x428A2F98, 0x71374491, 0xB5C0FBCF, 0xE9B5DBA5, 0x3956C25B, 0x59F111F1, 0x923F82A4, 0xAB1C5ED5,
  0xD807AA98, 0x12835B01, 0x243185BE, 0x550C7DC3, 0x72BE5D74, 0x80DEB1FE, 0x9BDC06A7, 0xC19BF174,
  0xE49B69C1, 0xEFBE4786, 0x0FC19DC6, 0x240CA1CC, 0x2DE92C6F, 0x4A7484AA, 0x5CB0A9DC, 0x76F988DA,
  0x983E5152, 0xA831C66D, 0xB00327C8, 0xBF597FC7, 0xC6E00BF3, 0xD5A79147, 0x06CA6351, 0x14292967,
  0x27B70A85, 0x2E1B2138, 0x4D2C6DFC, 0x53380D13, 0x650A7354, 0x766A0ABB, 0x81C2C92E, 0x92722C85,
  0xA2BFE8A1, 0xA81A664B, 0xC24B8B70, 0xC76C51A3, 0xD192E819, 0xD6990624, 0xF40E3585, 0x106AA070,
  0x19A4C116, 0x1E376C08, 0x2748774C, 0x34B0BCB5, 0x391C0CB3, 0x4ED8AA4A, 0x5B9CCA4F, 0x682E6FF3,
  0x748F82EE, 0x78A5636F, 0x84C87814, 0x8CC70208, 0x90BEFFFA, 0xA4506CEB, 0xBEF9A3F7, 0xC67178F2]

/-- The initial hash value. -/
def shaInit : List Word := [
  0x6A09E667, 0xBB67AE85, 0x3C6EF372, 0xA54FF53A, 0x510E527F, 0x9B05688C, 0x1F83D9AB, 0x5BE0CD19]

/-- Rotation to the right. -/
def rotr (w : Word) (n : Nat) : Word := (w >>> n) ||| (w <<< (32 - n))

/-- The next `n` words of the message schedule, given the next sixteen. -/
def shaSchedule : Nat → List Word → List Word
  | 0, _ => []
  | n + 1, ws =>
    match ws with
    | w0 :: rest =>
      let w1 := ws.getD 1 0
      let w9 := ws.getD 9 0
      let w14 := ws.getD 14 0
      let s0 := rotr w1 7 ^^^ rotr w1 18 ^^^ (w1 >>> 3)
      let s1 := rotr w14 17 ^^^ rotr w14 19 ^^^ (w14 >>> 10)
      w0 :: shaSchedule n (rest ++ [w0 + s0 + w9 + s1])
    | [] => []

/-- One round on the working variables a to h. -/
def shaRound (v : List Word) (kw : Word × Word) : List Word :=
  match v with
  | [a, b, c, d, e, f, g, h] =>
    let s1 := rotr e 6 ^^^ rotr e 11 ^^^ rotr e 25
    let t1 := h + s1 + ((e &&& f) ^^^ (~~~e &&& g)) + kw.1 + kw.2
    let s0 := rotr a 2 ^^^ rotr a 13 ^^^ rotr a 22
    let t2 := s0 + ((a &&& b) ^^^ (a &&& c) ^^^ (b &&& c))
    [t1 + t2, a, b, c, d + t1, e, f, g]
  | _ => v

/-- The number that big-endian bytes spell. -/
def fromBe (bs : Bytes) : Nat := bs.foldl (fun n b => n * 256 + b.toNat) 0

/-- Bytes as big-endian words, `n` of them; bytes beyond the end are 0. -/
def beWords : Nat → Bytes → List Word
  | 0, _ => []
  | n + 1, bs =>
    let four := bs.take 4
    BitVec.ofNat 32 (fromBe (four ++ List.replicate (4 - four.length) 0)) :: beWords n (bs.drop 4)

/-- The hash after a block of 64 bytes. -/
def shaBlock (h : List Word) (block : Bytes) : List Word :=
  List.zipWith (· + ·) h ((shaK.zip (shaSchedule 64 (beWords 16 block))).foldl shaRound h)

/-- The blocks of a padded message, `n` of them. -/
def shaBlocks : Nat → List Word → Bytes → List Word
  | 0, h, _ => h
  | n + 1, h, bs => shaBlocks n (shaBlock h (bs.take 64)) (bs.drop 64)

/-- SHA-256. -/
def sha256 (msg : Bytes) : Bytes :=
  let zeros := (64 - (msg.length + 9) % 64) % 64
  let padded := msg ++ [0x80] ++ List.replicate zeros 0 ++ beBytes 8 (8 * msg.length)
  ((shaBlocks (padded.length / 64) shaInit padded).map fun w => beBytes 4 w.toNat).flatten

/-- HMAC-SHA-256. -/
def hmac (key msg : Bytes) : Bytes :=
  let k := if 64 < key.length then sha256 key else key
  let k := k ++ List.replicate (64 - k.length) 0
  sha256 (k.map (· ^^^ 0x5C) ++ sha256 (k.map (· ^^^ 0x36) ++ msg))

/-! ### ECDSA on P-256 -/

/-- The field's prime. -/
def p256P : Nat := 0xffffffff00000001000000000000000000000000ffffffffffffffffffffffff
/-- The order of the base point. -/
def p256N : Nat := 0xffffffff00000000ffffffffffffffffbce6faada7179e84f3b9cac2fc632551
/-- The curve's b; its a is −3. -/
def p256B : Nat := 0x5ac635d8aa3a93e7b3ebbd55769886bc651d06b0cc53b0f63bce3c3e27d2604b
/-- The base point. -/
def p256G : Nat × Nat :=
  (0x6b17d1f2e12c4247f8bce6e563a440f277037d812deb33a0f4a13945d898c296,
   0x4fe342e2fe1a7f9b8ee7eb4a7c0f9e162bce33576b315ececbb6406837bf51f5)

/-- x raised to a power modulo m, by the exponent's low `fuel` bits. -/
def powMod (m : Nat) : Nat → Nat → Nat → Nat
  | 0, _, _ => 1 % m
  | fuel + 1, x, e => (if e % 2 = 1 then x else 1) * powMod m fuel (x * x % m) (e / 2) % m

/-- The inverse modulo a prime below 2²⁵⁶. -/
def invMod (m x : Nat) : Nat := powMod m 256 (x % m) (m - 2)

/-- The sum of two points; none is the point at infinity. -/
def ecAdd (a b : Option (Nat × Nat)) : Option (Nat × Nat) :=
  match a, b with
  | none, q => q
  | p, none => p
  | some (x1, y1), some (x2, y2) =>
    let p := p256P
    if x1 = x2 ∧ (y1 + y2) % p = 0 then none
    else
      let l := if x1 = x2 then (3 * x1 * x1 + (p - 3)) * invMod p (2 * y1) % p
        else (y2 + p - y1) * invMod p (x2 + p - x1) % p
      let x3 := (l * l + 2 * p - x1 - x2) % p
      some (x3, (l * (x1 + p - x3) + (p - y1)) % p)

/-- A multiple of a point, by the multiplier's low `fuel` bits. -/
def ecMul : Nat → Nat → Option (Nat × Nat) → Option (Nat × Nat)
  | 0, _, _ => none
  | fuel + 1, k, q => ecAdd (if k % 2 = 1 then q else none) (ecMul fuel (k / 2) (ecAdd q q))

/-- ECDSA P-256 over SHA-256: the key is x then y and the signature r then s, each of 32 big-endian bytes (R149, R154). -/
def ecdsaVerify (key msg sig : Bytes) : Bool :=
  let x := fromBe (key.take 32)
  let y := fromBe ((key.drop 32).take 32)
  let r := fromBe (sig.take 32)
  let s := fromBe ((sig.drop 32).take 32)
  let n := p256N
  let p := p256P
  if key.length ≠ 64 || sig.length ≠ 64 || decide (r = 0) || decide (n ≤ r) || decide (s = 0) || decide (n ≤ s) ||
      decide (p ≤ x) || decide (p ≤ y) || decide (y * y % p ≠ (x * x * x + (p - 3) * x + p256B) % p) then false
  else
    let w := invMod n s
    match ecAdd (ecMul 256 (fromBe (sha256 msg) * w % n) (some p256G)) (ecMul 256 (r * w % n) (some (x, y))) with
    | some (x1, _) => decide (x1 % n = r)
    | none => false

end Sys2Proof.Machine
end

