-- ==== Sys2Proof/Machine/Session.lean ====
section
/-! DEFINITION. What every part of the KNP engine shares (chapter 6): the life cycle, session keys and tags (R149, R150), the
datagrams the device sends (R144), its errors (R169), and the words that pass to the programs (R146). -/
namespace Sys2Proof.Machine

/-- The device is Sealed and not reopened (R10, R157). -/
def sealedNow (s : State) : Bool := decide (s.fuses.life = .sealed) && !s.sec.reopened

/-- The device's own feature map (R152): bits 0–20, without POLDER_WINDOW on the KX1640-N, and 48–63 unless Sealed and not
reopened. -/
def deviceMap (s : State) : DWord :=
  let base : Nat := if s.fuses.polder then 0x1FFFFF else 0x1DFFFF
  BitVec.ofNat 64 (if sealedNow s then base else base + 0xFFFF * 2 ^ 48)

/-! ### Keys and tags -/

/-- The header of a datagram as its 16 bytes (Table 6.1). -/
def headerBytes (d : Datagram) : Bytes :=
  beBytes 2 d.magic.toNat ++ [d.version, d.type] ++ beBytes 2 d.session.toNat ++ beBytes 2 d.flags.toNat ++
    beBytes 4 d.seq.toNat ++ beBytes 2 d.length.toNat ++ beBytes 2 d.frag.toNat

/-- The session key (R150): the four bytes "KNP1", the host nonce, the device nonce, under the owner secret. -/
def sessionKey (x : Session) (s : State) : Bytes :=
  hmac s.fuses.secret ([0x4B, 0x4E, 0x50, 0x31] ++ x.host ++ x.nonce)

/-- The tag of a datagram on a session (R150). -/
def tagOf (x : Session) (d : Datagram) (s : State) : Bytes := (hmac (sessionKey x s) (headerBytes d ++ d.payload)).take 16

/-! ### What the device sends -/

/-- The bytes of a message in runs of 1,400, at least one run (R144). -/
def runs : Nat → Bytes → List Bytes
  | 0, _ => []
  | n + 1, bs => bs.take 1400 :: (if bs.length ≤ 1400 then [] else runs n (bs.drop 1400))

/-- A message is sent on a session, in fragments where it is longer than 1,400 bytes, each under its own SEQ, with a tag
unless the part is Blank (R144, R145, R150). -/
def sendMsg (k : Fin 8) (type : Nat) (reply : Bool) (payload : Bytes) (s : State) : State :=
  let x := s.sec.sessions[k]
  let rs := runs 64 payload
  let tagged := decide (s.fuses.life ≠ .blank)
  let mk := fun (p : Bytes × Nat) =>
    let more := decide (p.2 + 1 < rs.length)
    let d : Datagram := ⟨x.port, BitVec.ofNat 16 (s.field 0x6008 0 16), 0x4B4E, 1, BitVec.ofNat 8 type, x.id,
      BitVec.ofNat 16 (b2n tagged + 2 * b2n more + 4 * b2n reply), x.seq + BitVec.ofNat 32 p.2,
      BitVec.ofNat 16 p.1.length, BitVec.ofNat 16 p.2, p.1, []⟩
    if tagged then { d with tag := tagOf x d s } else d
  (s.updSec fun y => { y with sent := y.sent ++ rs.zipIdx.map mk }).updSession k fun x =>
    { x with seq := x.seq + BitVec.ofNat 32 rs.length }

/-- A datagram sent outside a session: its SEQ is a value of the device's choice (R151). -/
def sendLone (port : Bool) (type : Nat) (payload : Bytes) (s : State) : State :=
  (s.updSec fun y => { y with sent := y.sent ++ [⟨port, BitVec.ofNat 16 (s.field 0x6008 0 16), 0x4B4E, 1, BitVec.ofNat 8 type, 0, 4, BitVec.ofNat 32 s.freeVal,
    BitVec.ofNat 16 payload.length, 0, payload, []⟩] }).bump

/-- The payload of ERROR: the code and the TYPE refused (Table 6.2). -/
def errorPayload (code type : Nat) : Bytes := beBytes 2 code ++ beBytes 1 type

/-- ERROR on a session. -/
def sendError (k : Fin 8) (code type : Nat) (s : State) : State := sendMsg k 0x3F true (errorPayload code type) s

/-- A session fault is raised and sent on its session (R169, Table 23.7): the slot is its UNIT, the TYPE its DATA. -/
def sessionFault (k : Fin 8) (code type : Nat) (s : State) : State := sendError k code type (record code k.val type s)

/-! ### Words to the programs of a session -/

/-- The words of a message to or from a program: a first word with TYPE in [31:24], the slot in [23:20] and the length in bytes in
[19:0], then the payload, big-endian (R143, R146; the places in the first word are a DESIGN CHOICE: log entry 36). -/
def messageWords (type : Nat) (k : Fin 8) (len : Nat) (payload : List Word) : List Word :=
  BitVec.ofNat 32 (type % 256 * 2 ^ 24 + k.val * 2 ^ 20 + len % 2 ^ 20) :: payload

/-- The datagrams whose messages the engine holds for a slot (R146). -/
def heldDatagrams (k : Fin 8) (s : State) : Nat := (s.sec.sessions[k].held.map (·.1)).sum

/-- A message is handed to the program of a slot, with the number of datagrams it came in: the fragments it was put together from, or one
(R145, R146). -/
def toProgram (type came : Nat) (k : Fin 8) (len : Nat) (payload : List Word) (s : State) : State :=
  refillSlot k (s.updSession k fun x => { x with held := x.held ++ [(came, messageWords type k len payload)] })

end Sys2Proof.Machine
end

