-- ==== Sys2Proof/Machine/Authority.lean ====
section
/-! DEFINITION. The authority unit (R92–R95, R105): tokens, the admission of orders and the merge of each 125 µs cycle,
with CLAIM and YIELD. -/
namespace Sys2Proof.Machine

open Host (Outcome)

/-! ### Tokens -/

/-- AUTH_LEVEL of a source (R92, R110). -/
def authLevel (source : Nat) (s : State) : Nat := s.field (0x0A00 + source) 0 3

/-- The source that holds an object's token. -/
def tokenHolder (obj : BitVec 16) (s : State) : Option Nat := s.tokens.lookup obj

/-- The core of a source below 8. -/
def sourceCore (source : Nat) : Option CoreId := if h : source < 8 then some ⟨source, h⟩ else none

/-- The slot of a source from 8 to 15. -/
def sourceSlot (source : Nat) : Option (Fin 8) := if h : source - 8 < 8 ∧ 8 ≤ source then some ⟨source - 8, h.1⟩ else none

/-- An object's token passes to a source. -/
def giveToken (obj : BitVec 16) (source : Nat) (s : State) : State :=
  { s with tokens := (obj, source) :: s.tokens.filter fun t => decide (t.1 ≠ obj) }

/-- The tokens of a source are released (R93). -/
def releaseTokens (source : Nat) (s : State) : State := { s with tokens := s.tokens.filter fun t => decide (t.2 ≠ source) }

/-- CLAIM at the authority unit: the token is taken when it is free or held at a lower level, and a core that held it gets event 24; else
the holder's source is returned (R93, R131). An object outside Table 4.5 has a token like any other (DESIGN CHOICE: log entry 143). -/
def claimToken (obj : BitVec 16) (source : Nat) (s : State) : Word × State :=
  match tokenHolder obj s with
  | none => (0, giveToken obj source s)
  | some h =>
    if h = source then (0, s)
    else if authLevel h s < authLevel source s then
      (0, match sourceCore h with
        | some c => raiseEvent 24 c (giveToken obj source s)
        | none => giveToken obj source s)
    else (BitVec.ofNat 32 (0x80000000 + h), s)

/-- YIELD at the authority unit: a token the source holds is released (R93, R131). -/
def yieldToken (obj : BitVec 16) (source : Nat) (s : State) : Word × State :=
  if tokenHolder obj s = some source then (0, { s with tokens := s.tokens.filter fun t => decide (t.1 ≠ obj) }) else (1, s)

/-- The frame of CLAIM and YIELD: the object in ra[15:0], the source in ra[20:16], the other bits zero; the source must be
the core's own or a session slot, else ILLEGAL; the result goes to rd with Z (R131). Other bits that are not zero trap ILLEGAL as a wrong source does
(DESIGN CHOICE: log entry 177). At the device-wide bound the request waits (R36). -/
def tokenOp (op : Nat) (c : CoreId) (rd ra : Reg) (f : BitVec 16 → Nat → State → Word × State) (s : State) : State :=
  let w := wordA op rd ra 0 0 0
  plain c false [rd, ra] w (fun s =>
    let k := s.core c
    let v := k.reg ra
    let source := bits v 16 5
    if decide (bits v 21 11 ≠ 0) || !(decide (source = c.val) || (decide (8 ≤ source) && decide (source < 16))) then
      syncTrap c 1 k.pc w 0 s
    else if !fabricRoom false s then s
    else
      let (r, s) := f (v.setWidth 16) source s
      finish c (fun k => { k.setReg rd r with f := k.f.setZ (decide (r = 0)) }) s) s

/-- CLAIM (R93, R131). -/
def execClaim (c : CoreId) (rd ra : Reg) (s : State) : Outcome State Fault Refusal := .next (tokenOp 0x39 c rd ra claimToken s)

/-- YIELD (R93, R131). -/
def execYield (c : CoreId) (rd ra : Reg) (s : State) : Outcome State Fault Refusal := .next (tokenOp 0x3A c rd ra yieldToken s)

/-! ### Orders -/

/-- The index of an object lies in its class (R92). -/
def objectFits (obj : BitVec 16) : Bool :=
  let i := obj.toNat % 4096
  match obj.toNat / 4096 with
  | 0 => decide (i < 4) | 1 => decide (i < 16) | 2 => decide (i < 64) | 3 => decide (i = 0) | 4 => decide (i < 24) | _ => false

/-- The merge cycle of a device time (R94). -/
def cycleOf (t : DWord) : Nat := t.toNat / 125000

/-- The reply word of an order (Table 4.5). -/
def replyWord (o : Order) (accept : Bool) : Word :=
  BitVec.ofNat 32 ((if accept then 0 else 2 ^ 31) + o.cycle % 2 ^ 15 * 2 ^ 16 + o.obj.toNat)

/-- The session of a slot is the one an order came on, and still open. -/
def orderSession (o : Order) (s : State) : Option (Fin 8) :=
  match o.sender, sourceSlot o.source with
  | none, some k => if s.sec.sessions[k].phase ≠ .closed && s.sec.sessions[k].id.toNat == o.session then some k else none
  | _, _ => none

/-- An order is answered: on queue 241 + n to core n, discarded while that end is unbound and waiting where it has no credit (R26, R92,
R99); to a session in an
ANSWER of the engine. A conflict is counted and recorded (R94, R110). -/
def answerOrder (o : Order) (accept : Bool) (s : State) : State :=
  let s := onlyIf (!accept) (fun s => record 0x1014 o.obj.toNat o.source (s.countUp 0x0A11 0 32)) s
  match o.sender with
  | some c => onlyIf (anyHolds (241 + c.val) false s) (offer (241 + c.val) 11 (replyWord o accept)) s
  | none =>
    match orderSession o s with
    | some k => sendMsg k 0x12 true (beBytes 4 (replyWord o accept).toNat) s
    | none => s

/-- An accepted order reaches its object's program; an order of a session goes to its slot's queue while that session is
still open (R94, R146). -/
def deliverOrder (o : Order) (s : State) : State :=
  let s := { s with delivered := s.delivered ++ [o] }
  match orderSession o s with
  | some k =>
    let head := BitVec.ofNat 32 (o.kind * 2 ^ 28 + o.source * 2 ^ 23 + o.payload.length * 2 ^ 16 + o.obj.toNat)
    toProgram 0x10 o.came k (8 + 4 * o.payload.length) (head :: o.speed :: o.payload) s
  | none => s

/-- An order whose header has passed is judged: with AUTHORITY_MERGE a stop-class order is accepted and takes effect at once
and every order joins its cycle (R94); without it only the token holder's order is accepted (R95). -/
def judgeOrder (o : Order) (s : State) : State :=
  if s.agreed.getLsbD 2 then
    let s := onlyIf (decide (o.kind = 0)) (fun s => deliverOrder o (answerOrder o true s)) s
    { s with orders := s.orders ++ [o] }
  else if tokenHolder o.obj s = some o.source then
    let s := answerOrder o true s
    if o.kind = 0 then deliverOrder o s else { s with accepted := s.accepted ++ [o] }
  else answerOrder o false s

/-- SPEED is 0 but in a motion order (Table 4.5). -/
def speedFits (o : Order) : Bool := decide (o.kind = 2) || decide (o.speed = 0)

/-- An order is admitted, its header judged first (R92). -/
def admitOrder (o : Order) (fits : Bool) (s : State) : State :=
  if fits && decide (o.kind < 4) && objectFits o.obj && speedFits o then judgeOrder o s else answerOrder o false s

/-- A core acts for a session slot: it serves the slot's queue (R92, R146). -/
def actsFor (c : CoreId) (source : Nat) (s : State) : Bool :=
  decide (source = c.val) || match sourceSlot source with
    | some k => coreHolds c (slotQueue k) false s
    | none => false

/-- The order that the first words of a core spell, and how many words it takes (Table 4.5); none while it is incomplete. -/
def readOrder (c : CoreId) (ws : List Word) (s : State) : Option (Order × Bool × Nat) :=
  match ws with
  | h :: v :: rest =>
    let n := bits h 16 7
    if rest.length < n then none
    else
      let o : Order := ⟨bits h 28 4, bits h 23 5, some c, h.setWidth 16, v, rest.take n, s.clock, cycleOf s.deviceTime, 0, 0⟩
      some (o, decide (n ≤ 64) && actsFor c o.source s, n + 2)
  | _ => none

/-- The order that a payload of bytes spells for a source, and whether PLEN agrees with the payload's length (R92). -/
def payloadOrder (source session came : Nat) (payload : Bytes) (s : State) : Order × Bool :=
  let ws := beWords ((payload.length + 3) / 4) payload
  let h := ws.getD 0 0
  let n := bits h 16 7
  (⟨bits h 28 4, source, none, h.setWidth 16, ws.getD 1 0, ws.drop 2, s.clock, cycleOf s.deviceTime, session, came⟩,
    decide (n ≤ 64) && decide (payload.length = 8 + 4 * n))

/-- The first entry of a sender leaves a gathered queue (R28). -/
def popFrom (q : Nat) (c : CoreId) (s : State) : Option (Word × State) :=
  match (s.queue q).find? (·.core == c.val) with
  | some e => some (e.val, probeHandshake q (s.setQueue q ((s.queue q).eraseP (·.core == c.val))))
  | none => none

/-- The authority unit takes one entry of a core and, where an order is then complete, admits it. -/
def takeOrderWord (c : CoreId) (s : State) : State :=
  match popFrom 240 c s with
  | some (w, s) =>
    let ws := s.assembly[c] ++ [w]
    match readOrder c ws s with
    | some (o, fits, n) => admitOrder o fits { s with assembly := modAt s.assembly c fun _ => ws.drop n }
    | none => { s with assembly := modAt s.assembly c fun _ => ws }
  | none => s

/-- The entries of queue 240 are taken one at a time, each from the sender whose turn it is (R28), until nothing of core c waits or an order
of core c has been taken. -/
def takeOrders (c : CoreId) : Nat → State → State
  | 0, s => s
  | n + 1, s =>
    match nextSender 240 s.orderTurn s with
    | some d =>
      if (s.queue 240).any (·.core == c.val) then
        let had := s.assembly[c].length
        let s := takeOrderWord d { s with orderTurn := d + 1 }
        if d = c && decide (s.assembly[c].length ≤ had) then s else takeOrders c n s
      else s
    | none => s

/-- ORDER_SUBMIT: the authority unit takes the words of core c on queue 240, in turn with the other senders, up to a whole
order, and admits it (R28, R92). -/
def execOrderSubmit (c : CoreId) (s : State) : Outcome State Fault Refusal := .next (takeOrders c (s.queue 240).length s)

/-! ### The merge -/

/-- The candidates that remain of the orders of one object, by kind and speed (R94). -/
def byKind (os : List Order) : List Order :=
  if os.any (·.kind == 0) then os.filter fun o => decide (o.kind ≤ 1)
  else if os.any (·.kind == 1) then os.filter fun o => decide (o.kind = 1)
  else if os.all (·.kind == 2) then os.filter fun o => os.all fun p => decide (o.speed.toNat ≤ p.speed.toNat)
  else os

/-- The earliest admitted of some orders; on equal admission, the one of the lowest SOURCE (R94). -/
def earliest (os : List Order) : Option Order :=
  os.find? fun o => os.all fun p => decide (o.time < p.time) || (decide (o.time = p.time) && decide (o.source ≤ p.source))

/-- The winner among the orders of one object (R94, R105). -/
def mergeWinner (os : List Order) (s : State) : Option Order :=
  let c1 := byKind os
  let c2 := c1.filter fun o => c1.all fun p => decide (authLevel p.source s ≤ authLevel o.source s)
  match os.head? with
  | some o =>
    let held := c2.filter fun p => tokenHolder o.obj s == some p.source
    earliest (if held.isEmpty then c2 else held)
  | none => none

/-- The orders of one object are decided: the winner is accepted and delivered, every other but a stop-class order is
answered CONFLICT (R94). -/
def mergeObject (obj : BitVec 16) (s : State) : State :=
  let os := s.orders.zipIdx.filter fun p => decide (p.1.obj = obj)
  let w := mergeWinner (os.map (·.1)) s
  let won := os.find? fun p => some p.1 == w
  forAll (fun p s =>
    if p.1.kind = 0 then s
    else if (won.map (·.2)) = some p.2 then deliverOrder p.1 (answerOrder p.1 true s)
    else answerOrder p.1 false s) os s

/-- A merge cycle ends: the orders accepted under R95 reach their programs, and each object's orders are decided. -/
def endMerge (s : State) : State :=
  let s := forAll deliverOrder s.accepted { s with accepted := [] }
  let objs := (s.orders.map (·.obj)).eraseDups
  let s := forAll mergeObject objs s
  { s with orders := [], merged := cycleOf s.deviceTime }

/-- MERGE_CYCLE_END: at a whole multiple of 125 µs of device time the cycle ends (R94). -/
def execMergeCycleEnd (s : State) : Outcome State Fault Refusal :=
  .next (if cycleOf s.deviceTime ≠ s.merged then endMerge s else s)

end Sys2Proof.Machine
end

