-- ==== Sys2Proof/Machine/Stops.lean ====
section
/-! DEFINITION. What makes the machinery safe: gates and brakes off, the mode arbiter with its demands (R50–R53, R66,
R67), stop-class announcements (R207, R208), the category 0 order (R438), the loss of an edge die (R18, R21, R55). -/
namespace Sys2Proof.Machine

/-! ### Addresses of the words of axes, dies, slots -/

/-- A word of axis An in the axes block (R405). -/
def axisAddr (a : AxisId) (off : Nat) : Nat := 0x3800 + 0x40 * a.val + off
/-- A word of axis An in the machinery block (R451). -/
def machAddr (a : AxisId) (off : Nat) : Nat := 0x5000 + 0x20 * a.val + off
/-- A word of a loop slot (R374). -/
def slotAddr (n : Nat) (off : Nat) : Nat := 0x4000 + 0x10 * n + off
/-- The number of an edge die among the two. -/
def dieIx : Die → Fin 2 | .west => 0 | .east => 1
/-- The number of an edge die among the dies (R549). -/
def dieNo (d : Fin 2) : Nat := d.val + 1
/-- The edge die of an axis (Table 1.2). -/
def axisDie (a : AxisId) : Fin 2 := if a.val < 2 then 0 else 1
/-- A word of a gate block (R431). -/
def gateAddr (d : Fin 2) (off : Nat) : Nat := 0x4800 + 0x400 * d.val + off
/-- A word of an axis in its gate block (R431). -/
def gateAxisAddr (a : AxisId) (off : Nat) : Nat := gateAddr (axisDie a) (0x10 + 8 * (a.val % 2) + off)
/-- The slot of role r of an axis: 0 position, 1 speed, 2 d, 3 q (R346). -/
def axisSlot (a : AxisId) (r : Fin 4) : Fin 24 := ⟨4 * a.val + r.val, by omega⟩

/-- The four axes. -/
def allAxes : List AxisId := List.finRange 4

/-! ### Local changes -/

/-- An axis's motor field control changed. -/
def State.updAxis (s : State) (a : AxisId) (f : Axis → Axis) : State := { s with axes := modAt s.axes a f }
/-- An axis's machinery changed. -/
def State.updMach (s : State) (a : AxisId) (f : MachAxis → MachAxis) : State :=
  { s with mach := { s.mach with axes := modAt s.mach.axes a f } }
/-- A brake changed. -/
def State.updBrake (s : State) (a : AxisId) (f : Brake → Brake) : State :=
  { s with mach := { s.mach with brakes := modAt s.mach.brakes a f } }
/-- An axis's gate control changed. -/
def State.updGate (s : State) (a : AxisId) (f : GateAxis → GateAxis) : State :=
  { s with gate := { s.gate with axes := modAt s.gate.axes a f } }
/-- A loop slot changed. -/
def State.updSlot (s : State) (n : Fin 24) (f : Slot → Slot) : State :=
  { s with loop := { s.loop with slots := modAt s.loop.slots n f } }
/-- A mode field changed. -/
def State.updModes (s : State) (f : Modes → Modes) : State := { s with modes := f s.modes }

/-! ### What the demands ask -/

/-- A die's gate latch has a bit set (Table 16.7). -/
def latched (d : Fin 2) (s : State) : Bool := decide (s.word (gateAddr d 0) ≠ 0)
/-- A gate latch bit is set in either die (R416). -/
def anyLatched (s : State) : Bool := latched 0 s || latched 1 s
/-- The CAT0 latch of MACH_STATE (R438). -/
def cat0Latch (s : State) : Bool := s.flag 0x5080 8
/-- Device time's own clock domains 1 and 2 stand, or their loss has not been cleared (Table 2.10). -/
def timeLost (s : State) : Bool := s.clockLost.getLsbD 0 || s.clockLost.getLsbD 1 || decide (s.field 0x0406 0 2 ≠ 0)
/-- Something counts as a trip latch for leaving Trip (Table 3.2, R438, R509, R546). -/
def tripLatched (s : State) : Bool := anyLatched s || cat0Latch s || decide (s.field 0x0023 0 2 ≠ 0) || timeLost s
/-- STO is inactive: neither latched nor present (Table 3.2). -/
def stoInactive (s : State) : Bool := decide (s.field 0x4800 24 2 = 0) && decide (s.field 0x4809 24 2 = 0)
/-- HEST_N is low (R208). -/
def hestLow (s : State) : Bool := s.flag 0x2405 3
/-- The gates of an axis are enabled (R416). -/
def gatesEnabled (a : AxisId) (s : State) : Bool := s.flag (gateAxisAddr a 0) 31
/-- The speed of an axis, Q1.31. -/
def axisSpeed (a : AxisId) (s : State) : Int := (s.word (axisAddr a 0x1C)).toInt
/-- STILL as Q1.31, and STILL_T in ns (Table 17.6). -/
def stillSpeed (s : State) : Int := (s.field 0x5084 0 16 : Int) * 65536
/-- STILL_T in ns. -/
def stillTime (s : State) : Nat := s.field 0x5084 16 16 * 1000000
/-- An axis is at standstill: |speed| below STILL for STILL_T, counted from a moment on (R440, R449). -/
def standstill (a : AxisId) (from_ : Nat) (s : State) : Bool :=
  match s.mach.axes[a].stillAt with
  | some t => decide ((max t from_) + stillTime s ≤ s.clock)
  | none => false

/-! ### Gates and brakes off -/

/-- A brake output stops conducting; its coil current must then fall below I_MIN (R441). -/
def brakeOff (a : AxisId) (s : State) : State :=
  s.updBrake a fun b => match b.phase with
    | .set => b
    | .proving => { b with phase := .set, since := s.clock }
    | _ => { b with phase := .set, since := s.clock, falling := true }

/-- A loop slot's output is 0 and its accumulator and filter are cleared (R360); a set-point that a unit set itself ends, since what set it
(an alignment, a start, a release) ends with the gates (R390, R401). -/
def clearSlot (n : Fin 24) (s : State) : State :=
  (s.updSlot n fun x => { x with out := 0, acc := 0, mf := 0, mfPrev := 0, ready := false, spFixed := none }).setWord (slotAddr n 0xC) 0

/-- An alignment or a start state up to HANDOVER runs: the unit drives the current slots itself (R390). -/
def drivesSlots (a : AxisId) (s : State) : Bool :=
  let x := s.axes[a]
  decide (x.alignRow ≠ 0) || (match x.start with | .align | .ramp | .handover => true | _ => false)

/-- The hold of the q slot during a release ends (R441); the set-points of an alignment or a start stay. -/
def endHold (a : AxisId) (s : State) : State :=
  if drivesSlots a s then s else s.updSlot (axisSlot a 3) fun x => { x with spFixed := none }

/-- The axis of a gate channel: axis An uses GD6n to GD6n + 5. -/
def channelAxis (ch : Fin 24) : AxisId := ⟨ch.val / 6, by omega⟩
/-- The configuration word of a gate channel. -/
def channelCfg (ch : Fin 24) : Nat := gateAddr (if ch.val < 12 then 0 else 1) (0x30 + ch.val % 12)
/-- The source current of a code; the sink current is twice that (Table 16.2). -/
def sourceMa (code : Nat) : Nat :=
  [50, 100, 150, 200, 300, 400, 500, 600, 750, 900, 1050, 1200, 1400, 1600, 1800, 2000].getD code 0
/-- An output that is off: its sink at SNK_OFF, or at SOFT_OFF where a trip of its axis turned it off; no current in isolator mode (R408, R415,
R418). -/
def offDrive (ch : Fin 24) (s : State) : GateDrive :=
  if s.flag (channelCfg ch) 31 then .iso 0
  else .sink (2 * sourceMa (s.field (channelCfg ch) (if s.gate.soft.getLsbD ch then 16 else 20) 4))
/-- The outputs of an axis are off. -/
def outsOff (a : AxisId) (s : State) : State :=
  let outs := Vector.ofFn fun ch => if channelAxis ch = a then ⟨offDrive ch s, none⟩ else s.gate.outs[ch]
  { s with gate := { s.gate with outs := outs } }

/-- A start is in progress: one of the states before RUN (Table 15.3). -/
def starting (x : Axis) : Bool := match x.start with | .align | .ramp | .handover | .retry => true | _ => false

/-- The gates of an axis go off: its EN is cleared, no switch conducts, its slots restart from 0, an alignment is interrupted (one that has
failed keeps its code) and a start passes to FAULT with START_FAILED, without consuming a retry (R360, R401, R416, Table 15.3). -/
def axisGatesOff (a : AxisId) (s : State) : State :=
  let s := s.setFlag (gateAxisAddr a 0) 31 false
  let s := forAll (fun r => clearSlot (axisSlot a r)) (List.finRange 4) s
  let x := s.axes[a]
  let s := onlyIf (decide (x.alignRow ≠ 0) && decide (x.alignCode = 0)) (fun s =>
    (s.setField (axisAddr a 1) 24 4 8).setFlag (axisAddr a 1) 20 false) s
  let s := onlyIf (starting x) (record 0x7002 a (s.field (axisAddr a 1) 0 4)) s
  let s := outsOff a ((s.setFlag (axisAddr a 1) 17 false).updGate a fun x => { x with pulses := Vector.replicate 3 {} })
  s.updAxis a fun x => { x with
    alignRow := 0, alignCode := 0, shorting := false, braking := false, vD := 0, vQ := 0, vAl := 0, vBe := 0,
    start := match x.start with | .idle | .run | .blind => .idle | _ => .fault }

/-- Every gate output is off (R415, R416). -/
def allGatesOff (s : State) : State := forAll axisGatesOff allAxes s
/-- Every brake output is not conducting (R415). -/
def allBrakesOff (s : State) : State := forAll brakeOff allAxes s
/-- Gates off and brakes not conducting. -/
def machineryOff (s : State) : State := allBrakesOff (allGatesOff s)

/-- The hardware trip path without desaturation or overcurrent: every output off at SNK_OFF, every brake not conducting (R415). -/
def hardOff (s : State) : State := machineryOff { s with gate := { s.gate with soft := 0 } }

/-! ### The mode arbiter -/

/-- The number of a mode (Table 3.1). -/
def Mode.num : Mode → Nat
  | .dormant => 0 | .standby => 1 | .boot => 2 | .admission => 3 | .run => 4 | .hold => 5 | .quiet => 6
  | .degraded => 7 | .stop => 8 | .trip => 9 | .maintenance => 10 | .update => 11

/-- A stop ends: none is in progress (MACH_STATE.STOP reads 3). -/
def endStop (s : State) : State :=
  ({ s with mach := { s.mach with stop := none } }).setField 0x5080 0 2 3

/-- The JTAG instruction that stays selected outside Maintenance: SAMPLE, EXTEST and the core debug stay on a Blank part alone (Table
6.7). -/
def jtagKept (s : State) : Nat := if s.fuses.life = .blank || s.sec.jtagIr < 2 then s.sec.jtagIr else 0

/-- Run begins: the feedback of an axis is judged anew, and an axis that a lost feedback put on its observer takes its
angle source again (R358, R370). -/
def judgeAnew (x : Axis) : Axis :=
  { x with lost := false, froze := false, frozen := 0, ssiMiss := 0, ssiBadRun := 0, abzIll := 0, disagree := 0,
           byObs := x.byObs && decide (x.start = .run) }

/-- The arbiter changes the mode: MODE_STATE follows, event 22 is raised on every core (R50, R83), and on arrival in a
mode without machinery the gates are off and the brakes not conducting (Table 3.2, R416). After Admission the panel's overdrive reference
holds no frame (R280). Outside Maintenance JTAG selects what it offers
there (R162). -/
def enterMode (m : Mode) (s : State) : State :=
  let ran := s.modes.mode = .run || s.modes.mode = .degraded
  let s := onlyIf ((m = .run || m = .degraded) && !ran) (forAll (fun a s => s.updAxis a judgeAnew) allAxes) s
  let s := raiseAll 22 (s.updModes fun x => { x with mode := m, previous := x.mode, changes := x.changes + 1, entering := none })
  let s := onlyIf (decide (m ≠ .stop)) endStop s
  let s := onlyIf (decide (m ≠ .maintenance)) (fun s => s.updSec fun x => { x with jtagIr := jtagKept s }) s
  match m with
  | .hold | .trip | .update | .standby => machineryOff s
  | .admission => { s with panel := { s.panel with refValid := false, refKept := false, refTail := none } }
  | _ => s

/-- Where a transition to Run leads: to Degraded while the latch is set (R51). -/
def runMode (s : State) : Mode := if s.modes.degraded then .degraded else .run

/-- A demand with no transition from the present mode (R66); 0xFF for a demand that names no mode. -/
def modeRefused (demanded : Nat) (s : State) : State := record 0xE002 0xFFFF (s.modes.mode.num * 256 + demanded) s

/-- A degradation event: the latch is set, and Run becomes Degraded (R51, Table 3.2). -/
def degrade (s : State) : State :=
  let s := s.updModes fun x => { x with degraded := true }
  if s.modes.mode = .run then enterMode .degraded s else s

/-- A category 0 demand at the arbiter (Table 3.2): Trip; held in Boot and Admission (R67); refused where Trip has no
transition from the mode. In Dormant nothing hears it. -/
def demandCat0 (demanded : Nat) (s : State) : State :=
  match s.modes.mode with
  | .run | .hold | .quiet | .degraded | .stop | .maintenance => enterMode .trip s
  | .boot | .admission => s.updModes fun x => { x with cat0Held := true }
  | .trip | .update | .standby => modeRefused demanded s
  | .dormant => s

/-- The stop sequence that begins at a demand (R440). -/
def newStop (cat : Nat) (origin : Mode) (s : State) : StopSeq :=
  ⟨cat, origin, s.clock, Vector.ofFn fun a => axisSpeed a s, Vector.replicate 4 false, none⟩

/-- A stop enables the speed slot of an axis for its ramp, where it is not enabled; its next evaluation copies the shadow as
any enable does (R352, R440). -/
def rampSlot (a : AxisId) (s : State) : State :=
  if s.flag (slotAddr (axisSlot a 1) 0) 31 then s
  else s.updSlot (axisSlot a 1) fun x => { x with apply := some true, fresh := true }

/-- A category 1 or 2 stop demand at the arbiter: from Run or Degraded the device passes to Stop; during a stop the
stronger category wins (R445), and every axis comes to standstill anew in it; in any other mode it is recorded and complete at once (Table 3.2). -/
def demandStop (cat fault : Nat) (s : State) : State :=
  match s.modes.mode with
  | .run | .degraded =>
    let s := (s.setField 0x5080 16 16 fault).setField 0x5080 0 2 cat
    let st := newStop cat s.modes.mode s
    let s := forAll (fun a s => if s.mach.brakes[a].phase = .proving || s.mach.brakes[a].phase = .energised
      then endHold a (brakeOff a s) else s) allAxes s
    let s := forAll rampSlot allAxes s
    enterMode .stop { s with mach := { s.mach with stop := some st } }
  | .stop =>
    match s.mach.stop with
    | some st =>
      if cat < st.cat then
        ({ s with mach := { s.mach with stop := some { st with cat := cat, done := Vector.replicate 4 false } } }
          |>.setField 0x5080 16 16 fault).setField 0x5080 0 2 cat
      else s
    | none => s
  | .dormant | .standby => s
  | _ => s.setField 0x5080 16 16 fault

/-- The object an emergency entry of this node names: the group of the axis, or the whole node (R207, R439). -/
def stopObject (axis : Option AxisId) (s : State) : BitVec 16 :=
  match axis with
  | some a => if s.flag (machAddr a 0) 31 then BitVec.ofNat 16 (0x1000 + s.field (machAddr a 0) 24 4) else 0xFFFF
  | none => 0xFFFF

/-- HEST_N is pulled low by this node (R208). -/
def hestPull (s : State) : State := (s.setFlag 0x2405 2 true).setFlag 0x2405 3 true

/-- The word of a Holros port. -/
def holPortAddr (p : Fin 2) : Nat := 0x2401 + p.val
/-- The state of a Holros port: 0 taut, 1 frayed, 2 cut, 3 down (Table 8.4). -/
def holState (p : Fin 2) (s : State) : Nat := s.field (holPortAddr p) 16 2
/-- A Holros port carries frames: taut or frayed. -/
def holUp (p : Fin 2) (s : State) : Bool := decide (holState p s < 2)
/-- The node's own number in the ring. -/
def holNode (s : State) : Nat := s.field 0x2400 8 4
/-- A node writes group entries, sends bulk and shows Holros video while its ADMIT_MASK bit is set (R200). -/
def holAdmitted (s : State) : Bool := s.hol.numbered && s.hol.admitMask.getLsbD (holNode s)

/-- A new emergency entry of this node, repeated in 8 fields (R207). -/
def ownEntry (cat : BitVec 2) (object reason : BitVec 16) (s : State) : State :=
  let seq := s.hol.ownSeq + 1
  { s with hol := { s.hol with ownSeq := seq, own := some ⟨true, cat, seq, object, reason, true⟩, ownLeft := 9 } }

/-- A stop-class demand of this node is announced: its emergency entry is written and repeated in 8 fields (R207), and
HEST_N is pulled low when HEST_ON_STOP is 1 (R208). A Holros block that is out does neither (Table 2.6). -/
def announce (cat fault : Nat) (axis : Option AxisId) (s : State) : State :=
  if s.blockOut 12 then s
  else onlyIf (s.flag 0x2404 3) hestPull (ownEntry (BitVec.ofNat 2 cat) (stopObject axis s) (BitVec.ofNat 16 fault) s)

/-- A category 1 or 2 stop demand that a unit of this node raises. -/
def raiseStop (cat fault : Nat) (axis : Option AxisId) (s : State) : State :=
  demandStop cat fault (announce cat fault axis s)

/-- The gate-off order of a machinery category 0 demand: gates and brakes off, the CAT0 latch, Trip (R438). -/
def orderCat0 (fault : Nat) (s : State) : State :=
  let s := (s.setField 0x5080 16 16 fault).setFlag 0x5080 8 true
  demandCat0 0xFF (hardOff s)

/-- A category 0 demand that the machinery of this node raises. -/
def raiseCat0 (fault : Nat) (axis : Option AxisId) (s : State) : State := orderCat0 fault (announce 0 fault axis s)

/-- A stop of a category by number: 0 by order, 1 and 2 at the arbiter. -/
def raiseCat (cat fault : Nat) (axis : Option AxisId) (s : State) : State :=
  if cat = 0 then raiseCat0 fault axis s else raiseStop cat fault axis s

/-! ### Edge dies -/

/-- An edge die changed. -/
def State.updDie (s : State) (d : Fin 2) (f : EdgeDie → EdgeDie) : State := { s with dies := modAt s.dies d f }

/-- The axes of an edge die (Table 1.2). -/
def dieAxes (d : Fin 2) : List AxisId := if d = 0 then [0, 1] else [2, 3]

/-- An edge die makes its power stage safe by itself: gates off, brakes not conducting, the state latched; its LED sinks
hold for 10 ms (R55). -/
def dieSafe (d : Fin 2) (s : State) : State :=
  let s := forAll (fun a s => brakeOff a (axisGatesOff a s)) (dieAxes d) s
  if s.dies[d].safe then s else s.updDie d fun x => { x with safe := true, safeAt := s.clock }

/-- An edge die is lost: EDGE_DIE_LOST, its IDENT_DIES bit cleared, its gates off and brakes not conducting, and a
degradation event (R18, R21). A die already lost raises nothing again. -/
def loseDie (d : Fin 2) (why : Nat) (s : State) : State :=
  if s.dies[d].lost then s
  else
    let s := record 0x1020 (dieNo d) why s
    let s := (s.setFlag 0x0008 d.val false).updDie d fun x => { x with lost := true }
    degrade (forAll (fun a s => brakeOff a (axisGatesOff a s)) (dieAxes d) s)

end Sys2Proof.Machine
end

