-- ==== Sys2Proof/Machine/Mach.lean ====
section
/-! DEFINITION. Winches, groups and emergency stops (chapter 17): group set-points and supervision, the stop sequences,
brakes, and the rules of the machinery words. Slack, snatch and hems run at the grid (Machine/Loop.lean). -/
namespace Sys2Proof.Machine

open Host (Outcome)

/-! ### Configuration -/

/-- An axis is a group member: VALID. -/
def grouped (a : AxisId) (s : State) : Bool := s.flag (machAddr a 0) 31
/-- GROUP and MEMBER of an axis. -/
def groupOf (a : AxisId) (s : State) : Nat := s.field (machAddr a 0) 24 4
/-- MEMBER of an axis. -/
def memberOf (a : AxisId) (s : State) : Nat := s.field (machAddr a 0) 16 3
/-- RATIO of an axis, Q2.14. -/
def ratioOf (a : AxisId) (s : State) : Int := sbits (s.word (machAddr a 3)) 0 16
/-- The axis is not enabled (AXIS_CTRL.EN). -/
def axisDisabled (a : AxisId) (s : State) : Bool := !s.flag (axisAddr a 0) 31
/-- ALIGN_OK of an axis. -/
def alignOk (a : AxisId) (s : State) : Bool := s.flag (axisAddr a 1) 20
/-- The position of an axis in µm: count × MACH_POS_SCALE / 1,000, to nearest (R433). -/
def posUm (a : AxisId) (s : State) : Int :=
  roundDivI (s.axes[a].pos * (s.word (machAddr a 1)).toNat) 1000

/-! ### Group entries (R434–R436) -/

/-- LEADER and MODE of a group entry (Table 17.1). -/
def entryLeads (e : GroupEntry) : Bool := e.flags.getLsbD 0
/-- MODE of a group entry: true position lock. -/
def entryLocks (e : GroupEntry) : Bool := e.flags.getLsbD 1

/-- The axes of this node in a group. -/
def groupAxes (g : Nat) (s : State) : List AxisId := allAxes.filter fun a => grouped a s && decide (groupOf a s = g)
/-- The groups this node holds a member of. -/
def ownGroups (s : State) : List Nat := ((allAxes.filter fun a => grouped a s).map fun a => groupOf a s).eraseDups

/-- A valid entry in a node's slot is that of a member. -/
def entryNames (node : Nat) (e : GroupEntry) (m : Member) : Bool :=
  e.valid && decide (m.node = node) && decide (m.entry.group = e.group) && decide (m.entry.member = e.member)

/-- A received entry of a group is noted for its member; a lost member stays lost (R436). -/
def noteEntry (node : Nat) (ms : List Member) (e : GroupEntry) : List Member :=
  if ms.any (entryNames node e) then
    ms.map fun x => if entryNames node e x then { x with entry := e, absent := 0 } else x
  else if e.valid then ms ++ [⟨node, e, 0, false⟩]
  else ms

/-- A node's slot of the cycle: its entries, and one more absent cycle of its members without one (R436). A slot that
carries a budget tells nothing of them. -/
def noteSlot (node : Nat) (x : NodeSlot) (ms : List Member) : List Member :=
  if x.present && x.budget.isSome then ms
  else
    let es := if x.present then [x.entryA, x.entryB] else []
    es.foldl (noteEntry node) (ms.map fun m =>
      if m.node = node && !es.any (fun e => entryNames node e m) then { m with absent := m.absent + 1 } else m)

/-- All slots of a cycle, from node n on. -/
def noteSlots : Nat → List NodeSlot → List Member → List Member
  | _, [], ms => ms
  | n, x :: xs, ms => noteSlots (n + 1) xs (noteSlot n x ms)

/-- ABSENT_N as the group's first member on this node sets it, 1–16 (R436). -/
def absentN (g : Nat) (s : State) : Nat :=
  match groupAxes g s with
  | a :: _ => clampN 1 16 (s.field (machAddr a 0) 0 5)
  | [] => 16

/-- The members of a group absent beyond ABSENT_N are lost: GROUP_MEMBER_LOST and a category 1 stop; a stop that runs goes
on without the member (R436, R446). -/
def loseMembers (g : Nat) (s : State) : State :=
  let gone (m : Member) : Bool := decide (m.entry.group.val = g) && !m.lost && decide (absentN g s < m.absent)
  match s.mach.members.filter gone with
  | [] => s
  | l =>
    let s := { s with mach := { s.mach with
      members := s.mach.members.map fun m => if gone m then { m with lost := true } else m } }
    let s := forAll (fun m => record 0xA001 g m.entry.member) l s
    onlyIf s.mach.stop.isNone (raiseStop 1 0xA001 (groupAxes g s).head?) s

/-- A group is enabled again: with all its members present, the lost ones return (R436). -/
def regroup (g : Nat) (s : State) : State :=
  if s.mach.members.all fun m => decide (m.entry.group.val ≠ g) || decide (m.absent = 0) then
    { s with mach := { s.mach with members := s.mach.members.filter fun m => decide (m.entry.group.val ≠ g) } }
  else s

/-- The present members of a group: those not lost. -/
def present (g : Nat) (s : State) : List Member :=
  s.mach.members.filter fun m => decide (m.entry.group.val = g) && !m.lost

/-- The entries of a group disagree: on MODE, with two leaders or none, or a shared MEMBER index (R435). -/
def clashes (p : List Member) : Bool :=
  let es := p.map (·.entry)
  !es.isEmpty && (decide ((es.filter entryLeads).length ≠ 1) ||
    (es.any entryLocks && es.any fun e => !entryLocks e) ||
    decide ((es.map (·.member)).eraseDups.length ≠ es.length))

/-- IQ / RATIO of a member, Q1.31: its RATIO is its word here, and not known for a member elsewhere. -/
def memberTau (m : Member) (s : State) : Int :=
  let ratio := match (groupAxes m.entry.group s).find? fun a => decide (memberOf a s = m.entry.member.val) with
    | some a => ratioOf a s
    | none => Config.remoteRatio m.entry.group m.entry.member
  if ratio = 0 then 0 else Int.fdiv (m.entry.iq * 2 ^ 30) ratio

/-- The mean of integers, to the floor. -/
def meanI (xs : List Int) : Int := if xs.isEmpty then 0 else Int.fdiv (xs.foldl (· + ·) 0) xs.length

/-- The set-points of Table 17.2 of one axis of a group. -/
def groupSetPoint (p : List Member) (leader : Member) (a : AxisId) (s : State) : State :=
  let tau := meanI (p.map fun m => memberTau m s)
  let n : Int := p.length
  let own := p.find? fun m => decide (m.entry.member.val = memberOf a s)
  match own with
  | none => s
  | some me =>
    let s := s.updMach a fun x => { x with own := !entryLocks leader.entry && entryLeads me.entry }
    if entryLocks leader.entry then
      let kpos : Int := s.field (machAddr a 2) 16 16
      let ktrq := sbits (s.word (machAddr a 2)) 0 16
      let sum := (p.map fun m => m.entry.pos).foldl (· + ·) 0
      let corr := if n = 0 then 0 else roundDivI (kpos * 2 ^ 23 * (sum - n * me.entry.pos)) (n.toNat * 1000000)
      let speed := satS 32 (leader.entry.vcmd * 65536 + corr)
      let dq := (ratioOf a s * ktrq * (tau - memberTau me s)) >>> 29
      let u := (s.loop.slots[axisSlot a 1]).out
      s.updMach a fun x => { x with spSpeed := some speed, corr := corr, spQ := some (satS 32 (u + dq)) }
    else if entryLeads me.entry then s.updMach a fun x => { x with spSpeed := none, spQ := none, corr := 0 }
    else
      let q := satS 32 ((ratioOf a s * memberTau leader s) >>> 14)
      s.updMach a fun x => { x with spSpeed := none, spQ := some q, corr := 0 }

/-- One group at a cycle start: lost members, disagreement, skew, set-points (R434–R436). -/
def groupCycle (g : Nat) (s : State) : State :=
  let s := loseMembers g s
  let p := present g s
  let axes := groupAxes g s
  if clashes p then
    let s := if s.mach.clashed.contains g then s
      else record 0xA003 g 0 { s with mach := { s.mach with clashed := g :: s.mach.clashed } }
    forAll (fun a s => s.updMach a fun x => { x with spSpeed := some 0 }) axes s
  else
    let s := { s with mach := { s.mach with clashed := s.mach.clashed.filter (· ≠ g) } }
    let sum := (p.map fun m => m.entry.pos).foldl (· + ·) 0
    let n : Int := p.length
    let limit : Int := match axes with
      | a :: _ => s.field (machAddr a 3) 16 16 * 1000
      | [] => 0
    let skew := p.any fun m => decide (n * limit < (n * m.entry.pos - sum).natAbs)
    let s := if skew then
        if s.mach.skewed.contains g then s
        else raiseStop 1 0xA002 axes.head? (record 0xA002 g 0 { s with mach := { s.mach with skewed := g :: s.mach.skewed } })
      else { s with mach := { s.mach with skewed := s.mach.skewed.filter (· ≠ g) } }
    match p.find? fun m => entryLeads m.entry with
    | some l => forAll (groupSetPoint p l) axes s
    | none => s

/-- A group entry that is not valid. -/
def noEntry : GroupEntry := ⟨false, 0, 0, 0, 0, 0, 0, 3, 0⟩

/-- A slot that is absent for its cycle (R196). -/
def absentSlot : NodeSlot := ⟨false, noEntry, noEntry, none⟩

/-- MACH_GROUP_CYCLE: at a cycle start the group set-points follow from the entries of the cycle before; without a valid slot-table frame of
that cycle every slot is absent for it (R196, R216, R434). -/
def execMachGroupCycle (s : State) : Outcome State Fault Refusal :=
  if s.blockOut 20 then .next s
  else
    let slots := if s.hol.slotsNew then s.hol.slots else List.replicate 16 absentSlot
    let s := { s with
      mach := { s.mach with members := noteSlots 0 slots s.mach.members }
      hol := { s.hol with slotsNew := false } }
    .next (forAll groupCycle (ownGroups s) s)

/-! ### Stops (R438–R440, R445) -/

/-- STOP_DEMAND: a category 1 or 2 stop demand that the machinery block of this node raises (R438, R440). -/
def execStopDemand (cat : Fin 2) (why : StopCause) (s : State) : Outcome State Fault Refusal :=
  .next (if s.blockOut 20 then s else raiseStop (cat.val + 1) why.fault.toNat why.axis s)

/-- CAT0_DEMAND: a machinery category 0 demand (R438). -/
def execCat0Demand (why : StopCause) (s : State) : Outcome State Fault Refusal :=
  .next (if s.blockOut 20 then s else raiseCat0 why.fault.toNat why.axis s)

/-- T_SET of an axis's brake in ns. -/
def brakeSetTime (a : AxisId) (s : State) : Nat := s.field (machAddr a 8) 16 8 * 1000000

/-- The position slot of an axis holds the position reached (Table 17.3, category 2). -/
def holdPosition (a : AxisId) (s : State) : State :=
  s.setWord (slotAddr (4 * a.val) 7) (wordOf (s.loop.slots[axisSlot a 0]).fb)

/-- STOP_STANDSTILL: an axis is at standstill. In category 1 its brake output stops conducting while torque holds; in
category 2 its position slot holds the position reached. With the last axis a category 2 stop is complete, and a
category 1 stop waits for T_SET (R440, Table 17.3). -/
def execStopStandstill (a : AxisId) (s : State) : Outcome State Fault Refusal :=
  .next (match s.mach.stop with
    | none => s
    | some st =>
      if st.done[a] || !standstill a st.since s then s
      else
        let done := modAt st.done a fun _ => true
        let all := done.toList.all id
        let st := { st with done := done, setAt := if all then some s.clock else none }
        let s := { s with mach := { s.mach with stop := some st } }
        if st.cat = 1 then brakeOff a s
        else
          let s := holdPosition a s
          if all then enterMode (if s.modes.degraded then .degraded else st.origin) s else s)

/-- STOP_SET_TIMER: T_SET has passed after the brakes are set; the gates go off, in Hold (Table 17.3). -/
def execStopSetTimer (s : State) : Outcome State Fault Refusal :=
  .next (match s.mach.stop with
    | some st =>
      match st.setAt with
      | some t =>
        let wait := (allAxes.map fun a => brakeSetTime a s).foldl max 0
        if st.cat = 1 && decide (t + wait ≤ s.clock) then enterMode .hold s else s
      | none => s
    | none => s)

/-- The time an axis may take to standstill: |v₀| / DECEL + STOP_MARGIN, in ns; no end with DECEL 0 (R440). -/
def stopLimit (a : AxisId) (v0 : Int) (s : State) : Option Nat :=
  let d := s.field (machAddr a 4) 16 16
  if d = 0 then none else some (v0.natAbs * 256000000000 / (2 ^ 31 * d) + s.field (machAddr a 4) 0 16 * 1000000)

/-- MACH_STOP_ESCALATED: standstill not reached in time; the stop escalates to category 0 (R440). -/
def execMachStopEscalated (a : AxisId) (s : State) : Outcome State Fault Refusal :=
  .next (match s.mach.stop with
    | some st =>
      match stopLimit a st.speed[a] s with
      | some t =>
        if !st.done[a] && decide (st.since + t ≤ s.clock) then raiseCat0 0xA006 (some a) (record 0xA006 a 0 s) else s
      | none => s
    | none => s)

/-- The axis a MACH_STOP_CMD names, where it names one. -/
def onlyAxis (mask : Nat) : Option AxisId :=
  match allAxes.filter fun a => mask.testBit a.val with
  | [a] => some a
  | _ => none

/-! ### Brakes (R441, R447) -/

/-- BRAKE_RELEASE is accepted: in Run or Degraded, gates enabled, ALIGN_OK, no stop, and no alignment (R441, R447). -/
def canRelease (a : AxisId) (s : State) : Bool :=
  (decide (s.modes.mode = .run) || decide (s.modes.mode = .degraded)) && gatesEnabled a s && alignOk a s &&
    s.mach.stop.isNone && !unitFailed .brakeCoil a s && decide (s.sec.jtagIr ≠ 3) && !s.blockOut (if axisDie a = 0 then 18 else 19)

/-- A release begins: the q slot holds HOLD_IQ for T_PROVE (R441). -/
def beginRelease (a : AxisId) (s : State) : State :=
  if s.mach.brakes[a].phase = .set then
    let s := s.updBrake a fun b => { b with phase := .proving, since := s.clock }
    s.updSlot (axisSlot a 3) fun x => { x with spFixed := some (s.word (machAddr a 10)).toInt }
  else s

/-- BRAKE_PROVE_DONE: T_PROVE has passed; BRKn conducts (R441). -/
def execBrakeProveDone (a : AxisId) (s : State) : Outcome State Fault Refusal :=
  let b := s.mach.brakes[a]
  .next (if b.phase = .proving && decide (b.since + s.field (machAddr a 8) 0 8 * 1000000 ≤ s.clock) then
      s.updBrake a fun b => { b with phase := .energised, since := s.clock }
    else s)

/-- The coil current of a brake as measured, in 10 mA. -/
def coilMeasured (a : AxisId) (coil : Nat) (s : State) : State :=
  (s.updBrake a fun b => { b with coil := coil }).setField (machAddr a 14) 0 8 (min coil 255)

/-- BRAKE_RELEASE_CONFIRM: the coil current has reached I_MIN and the brake is released, or T_REL has passed and the
release has failed (R441). -/
def execBrakeReleaseConfirm (a : AxisId) (coil : Nat) (s : State) : Outcome State Fault Refusal :=
  let s := coilMeasured a coil s
  let b := s.mach.brakes[a]
  .next (if b.phase = .energised then
      if s.field (machAddr a 8) 8 8 ≤ coil then endHold a (s.updBrake a fun b => { b with phase := .released, since := s.clock })
      else if b.since + s.field (machAddr a 8) 24 8 * 1000000 ≤ s.clock then
        record 0xA007 a 0 (endHold a (brakeOff a s))
      else s
    else s)

/-- BRAKE_SHORT: a coil current above 1.2 A turns BRKn off (R441). -/
def execBrakeShort (a : AxisId) (coil : Nat) (s : State) : Outcome State Fault Refusal :=
  let s := coilMeasured a coil s
  let b := s.mach.brakes[a]
  .next (if decide (120 < coil) && (b.phase = .energised || b.phase = .released) then
      record 0xA008 a 0 (endHold a (brakeOff a s))
    else s)

/-- BRAKE_SET_TIMEOUT: T_SET after BRKn stopped conducting the current must be below I_MIN; otherwise BRAKE_STUCK
(R441). -/
def execBrakeSetTimeout (a : AxisId) (coil : Nat) (s : State) : Outcome State Fault Refusal :=
  let s := coilMeasured a coil s
  let b := s.mach.brakes[a]
  .next (if b.falling && decide (b.since + brakeSetTime a s ≤ s.clock) then
      let s := s.updBrake a fun b => { b with falling := false }
      if s.field (machAddr a 8) 8 8 ≤ coil then record 0xA009 a 0 s else s
    else s)

/-! ### The rules of the machinery words -/

/-- A MACH_STOP_CMD write (R438): category 3 names no stop. -/
def stopCommand (val : Word) (s : State) : State :=
  match bits val 8 2 with
  | 0 => raiseCat0 0 (onlyAxis (bits val 0 4)) s
  | 3 => s
  | c => raiseStop c 0 (onlyAxis (bits val 0 4)) s

/-- The rule of a machinery word (R432, R441, R451). -/
def machRule (addr : Nat) (val : Word) (s : State) : Rule :=
  if addr < 0x5080 then
    let a : AxisId := Fin.ofNat 4 ((addr - 0x5000) / 0x20)
    let idle := Rule.when (axisDisabled a s) 0xA00C a 0
    match (addr - 0x5000) % 0x20 with
    | 0x0 =>
      let others := (allAxes.filter fun b => decide (b ≠ a) && grouped b s).length
      let fresh := bit val 31 && !grouped a s
      idle (.when (!(bit val 31) || decide (others < 2)) 0xA00C a 0 (.accept val (onlyIf fresh (regroup (bits val 24 4)))))
    | 0x1 | 0x5 | 0x6 | 0x7 => idle (.plain val)
    | 0x9 =>
      if bit val 0 then .when (canRelease a s) 0xA00C a 0 (.accept val (beginRelease a))
      else .accept val fun s => endHold a (brakeOff a s)
    | _ => .plain val
  else match addr with
    | 0x5081 => .accept val (stopCommand val)
    | 0x5082 => .accept val (onlyIf (bit val 0) fun s => s.setFlag 0x5080 8 false)
    | _ => .plain val

end Sys2Proof.Machine
end

