-- ==== Sys2Proof/Machine/PanelStore.lean ====
section
/-! DEFINITION. The frame store of the panel engine: slot geometry, buffer and region sizes (R269), and the move of the
store after the loss of a DRAM channel (R291). -/
namespace Sys2Proof.Machine

/-- A feature is in the device's agreed set (R89). -/
def State.feature (s : State) (n : Nat) : Bool := s.agreed.getLsbD n

/-- A word of a panel slot (R292). -/
def slotWord (k : Fin 2) (off : Nat) : Nat := 0x2810 + 0x10 * k.val + off

/-- A 64-bit DRAM address in two words. -/
def State.addr64 (s : State) (a : Nat) : Nat := (s.word (a + 1)).toNat * 2 ^ 32 + (s.word a).toNat

/-- A 64-bit address stored in two words. -/
def State.setAddr64 (s : State) (a v : Nat) : State :=
  (s.setWord a (BitVec.ofNat 32 v)).setWord (a + 1) (BitVec.ofNat 32 (v / 2 ^ 32))

/-- A panel slot changed. -/
def State.updPanelSlot (s : State) (k : Fin 2) (f : PanelSlot → PanelSlot) : State :=
  { s with panel := { s.panel with slots := modAt s.panel.slots k f } }

/-- The panel engine changed. -/
def State.updPanel (s : State) (f : Panel → Panel) : State := { s with panel := f s.panel }

/-- The storage mode: 2 acts as 1 without FRAME_LOSSY_STORE, and 3 as 1 (R266, Table 11.7). -/
def storeMode (s : State) : Nat :=
  match s.field 0x2801 0 2 with
  | 0 => 0
  | 2 => if s.feature 5 then 2 else 1
  | _ => 1

/-- FRAMES, 2 to 4 (Table 11.5). -/
def storeFrames (s : State) : Nat := clampN 2 4 (s.field 0x2801 8 3)

/-- NET_STREAM of a stream: group, source, port, width and height, sampling and depth, enable (Table 7.6). -/
def streamWord (st : Fin 2) (i : Nat) (s : State) : Word := s.word (0x1C20 + 6 * st.val + i)

/-- The group word of a stream is an IPv4 multicast address, which IGMPv3 joins: 224.0.0.0 to 239.255.255.255 (R179). -/
def streamIsV4 (st : Fin 2) (s : State) : Bool := decide (bits (streamWord st 0 s) 28 4 = 14)

/-- The address that a word of a stream names: an IPv4 address, or in a stream whose group is no IPv4 multicast address the IPv6 one that
the word stands for (R179; log entry 185). -/
def streamAddr (st : Fin 2) (w : Word) (s : State) : IpAddr :=
  if streamIsV4 st s then .v4 w
  else match Config.streamV6 w.toNat with | some a => .v6 (BitVec.ofNat 128 a) | none => .v4 w

/-- The group of a stream. -/
def streamGroup (st : Fin 2) (s : State) : IpAddr := streamAddr st (streamWord st 0 s) s

/-- The source of a stream, where one is set: its join is source-specific (R179). -/
def streamSource (st : Fin 2) (s : State) : Option IpAddr := if streamWord st 1 s = 0 then none else some (streamAddr st (streamWord st 1 s) s)

/-- A slot is enabled. -/
def panelOn (k : Fin 2) (s : State) : Bool := s.flag (slotWord k 0) 31

/-- The sampling of a slot's source is 4:4:4: of the stream's words, of the playback format, or of the FORMAT of the Holros frames it
receives (R268). -/
def slot444 (k : Fin 2) (s : State) : Bool :=
  match s.field (slotWord k 0) 0 2 with
  | 3 => s.flag 0x2832 0
  | 2 => (s.panel.slots[k]).is444
  | n => s.flag (0x1C20 + 6 * n + 4) 0

/-- The block slot size S (Table 11.2). -/
def blockSize (mode : Nat) (is444 : Bool) : Nat :=
  if mode = 2 then (if is444 then 48 else 32) else if is444 then 96 else 64

/-- N_s: the blocks of one buffer (R269). -/
def slotBlocks (k : Fin 2) (s : State) : Nat :=
  s.field (slotWord k 2) 16 12 * ((s.field (slotWord k 2) 0 13 + 15) / 16)

/-- B_s for a mode. -/
def bufferSize (k : Fin 2) (mode : Nat) (s : State) : Nat := slotBlocks k s * blockSize mode (slot444 k s)

/-- The region size of a slot: its buffers, and their metadata in lossless mode (R269). -/
def regionSize (k : Fin 2) (mode frames : Nat) (s : State) : Nat :=
  if panelOn k s then frames * bufferSize k mode s + (if mode = 1 then frames * slotBlocks k s else 0) else 0

/-- Rounded up to a multiple of 4 KiB. -/
def up4k (n : Nat) : Nat := (n + 4095) / 4096 * 4096

/-- Where a slot's region starts (R269). -/
def regionBase (k : Fin 2) (s : State) : Nat :=
  s.addr64 0x2802 + (if k = 0 then 0 else up4k (regionSize 0 (storeMode s) (storeFrames s) s))

/-- What the store needs with a mode and a buffer count: both regions, the overdrive reference and the compensation
table, each from a 4 KiB boundary (R269, R276, R280). -/
def storeNeeds (mode frames : Nat) (s : State) : Nat × Nat × Nat :=
  let pixels := s.field 0x2800 0 13 * s.field 0x2800 16 12
  (up4k (regionSize 0 mode frames s) + up4k (regionSize 1 mode frames s), up4k ((pixels + 2) / 3 * 8), up4k (pixels * 4))

/-- The modes and buffer counts that R291 tries, in order. -/
def storeTries (s : State) : List (Nat × Nat) :=
  let m := storeMode s
  let f := storeFrames s
  let m2 := if s.feature 5 then 2 else m
  (m, f) :: (if s.feature 5 then [(2, f)] else []) ++ ((List.range (f - 2)).map fun i => (m2, f - 1 - i))

/-- A frame of a slot is incomplete: it is never shown and its buffer is reused (R270). -/
def frameLost (k : Fin 2) (b : Fin 4) (s : State) : State :=
  let s := record 0x5001 k 0 (s.countUp (slotWord k 7) 0 32)
  s.updPanelSlot k fun x => { x with bufs := modAt x.bufs b fun _ => {} }

/-- The answer to a write of a frame reaches its buffer (R270): while it still holds that frame, one write less is unanswered, or the
frame is incomplete. -/
def frameWritten (k : Fin 2) (b : Fin 4) (frame : Nat) (st : Status) (s : State) : State :=
  let x := (s.panel.slots[k]).bufs[b]
  if x.frame ≠ frame || x.state ≠ .written then s
  else if st = .ok then s.updPanelSlot k fun y => { y with bufs := modAt y.bufs b fun z => { z with asked := z.asked - 1 } }
  else frameLost k b s

/-- The answer to a read reaches scan-out; what was answered RESET_ABORT is asked for again. -/
def fetchAnswered (addr len : Nat) (st : Status) (data : Bytes) (s : State) : State :=
  let mine (e : PanelRead) : Bool := decide (e.addr = addr) && decide (e.len = len)
  let take (l : List PanelRead) : List PanelRead :=
    if st = .resetAbort then l.filter fun e => !mine e
    else l.map fun e => if mine e then { e with answer := some (st, data) } else e
  s.updPanel fun p => { p with fetched := take p.fetched }

/-- A slot holds no frame: its buffers are free, nothing is received or shown, and SLOT_STATUS says so (R269, R292). -/
def emptySlot (k : Fin 2) (s : State) : State :=
  let s := s.updPanelSlot k fun x => { x with bufs := Vector.replicate 4 {}, cur := none, blocks := [], broken := false, shown := none }
  (s.setField (slotWord k 6) 0 2 0).setField (slotWord k 6) 8 2 0

/-- On a map collapse the engine moves its stores to PANEL_FALLBACK_BASE, or loses them (R291). -/
def panelCollapse (s : State) : State :=
  let room := s.field 0x2806 0 16 * 2 ^ 20
  let fits (x : Nat × Nat) : Bool :=
    let n := storeNeeds x.1 x.2 s
    decide (n.1 + n.2.1 + n.2.2 ≤ room)
  let clear (s : State) : State := (forAll emptySlot [0, 1] s).updPanel fun p => { p with
    refValid := false, refKept := false, refTail := none, fetched := [] }
  match (storeTries s).find? fits with
  | some (mode, frames) =>
    let n := storeNeeds mode frames s
    let base := s.addr64 0x2804
    let s := clear s
    let s := (s.setField 0x2801 0 2 mode).setField 0x2801 8 3 frames
    let s := ((s.setAddr64 0x2802 base).setAddr64 0x280E (base + n.1)).setAddr64 0x2808 (base + n.1 + n.2.1)
    record 0x5005 0xFFFF mode (s.setFlag 0x2801 4 true)
  | none => record 0x5006 0xFFFF 0 ((clear s).updPanel fun p => { p with lost := true })

end Sys2Proof.Machine
end

