-- ==== Sys2Proof/Machine/Dram.lean ====
section
/-! DEFINITION. External DRAM (chapter 9): the address map, requests and the pick of the next one, ECC and poisoned lines,
refresh and temperature, self-refresh, training, channel loss, sparing and migration. -/
namespace Sys2Proof.Machine

open Host (Outcome)

/-! ### Geometry and words -/

/-- A word of a DRAM channel (R252). -/
def chanAddr (ch : Fin 2) (off : Nat) : Nat := 0x1400 + 0x400 * ch.val + off
/-- The block of a channel (Table 2.6). -/
def chanBlock (ch : Fin 2) : Fin 25 := if ch = 0 then 8 else 9
/-- A channel of the controller. -/
def State.chan (s : State) (ch : Fin 2) : DramChan := s.dram.chans[ch]
/-- A channel changed. -/
def State.updChan (s : State) (ch : Fin 2) (f : DramChan → DramChan) : State :=
  { s with dram := { s.dram with chans := modAt s.dram.chans ch f } }
/-- DRAM_STATUS.STATE. -/
def chanState (ch : Fin 2) (s : State) : Nat := s.field (chanAddr ch 0x11) 3 3
/-- DRAM_STATUS.STATE set. -/
def setChanState (ch : Fin 2) (v : Nat) (s : State) : State := s.setField (chanAddr ch 0x11) 3 3 v
/-- DRAM_STATUS.SPEED. -/
def chanSpeed (ch : Fin 2) (s : State) : Nat := s.field (chanAddr ch 0x11) 0 3
/-- BGB: bank group bits (R223). -/
def bgBits (ch : Fin 2) (s : State) : Nat := if s.field (chanAddr ch 0x10) 0 2 = 1 then 1 else 2
/-- The rank size in bytes (R223). -/
def rankSize (ch : Fin 2) (s : State) : Nat := 2 ^ (15 + bgBits ch s + (s.chan ch).rowBits)
/-- The mapped capacity C of a channel (R224). -/
def capacity (ch : Fin 2) (s : State) : Nat := (s.chan ch).ranks * rankSize ch s
/-- The map top (R225). -/
def mapTop (s : State) : Nat := capacity 0 s + capacity 1 s
/-- DRAM_MAP_TOP follows. -/
def refreshTop (s : State) : State := s.setWord 0x1401 (BitVec.ofNat 32 (mapTop s / 2 ^ 20))

/-- The chip select of a logical rank (R224). -/
def csOf (ch : Fin 2) (rank : Nat) (s : State) : Nat := s.field (chanAddr ch 0x11) (8 + 2 * (rank % 4)) 2
/-- The logical rank on a chip select, among the mapped ones. -/
def rankOn (ch : Fin 2) (cs : Nat) (s : State) : Option Nat :=
  (List.range (s.chan ch).ranks).find? fun r => csOf ch r s == cs
/-- The spare's chip select. -/
def spareCs (ch : Fin 2) (s : State) : Nat := s.field (chanAddr ch 0x10) 8 2

/-- The channel and channel address of a DRAM address; none at or above the map top (R225, R226). -/
def routeDram (A : Nat) (s : State) : Option (Fin 2 × Nat) :=
  let c0 := capacity 0 s
  let c1 := capacity 1 s
  let m := min c0 c1
  let g := s.dram.grain
  if c0 + c1 ≤ A then none
  else if s.dram.interleave && decide (A < 2 * m) then
    some (Fin.ofNat 2 (A / 2 ^ g), A / 2 ^ (g + 1) * 2 ^ g + A % 2 ^ g)
  else if s.dram.interleave then some (if c0 < c1 then 1 else 0, A - m)
  else if A < c0 then some (0, A)
  else some (1, A - c0)

/-- The bank and the row of a channel address, and the logical rank (R225). -/
def decodeAddr (ch : Fin 2) (a : Nat) (s : State) : Nat × Nat × Nat :=
  let b := bgBits ch s
  let group := a / 64 % 2 ^ b
  let bank := a / 2 ^ (6 + b + 7) % 4
  let rowb := (s.chan ch).rowBits
  let row := a / 2 ^ (6 + b + 9) % 2 ^ rowb
  let rank := a / 2 ^ (6 + b + 9 + rowb)
  (rank * 16 + bank * 4 + group, row, rank)

/-- Where the bytes of a channel address lie: the chip select and the key of its first byte; none while its line is the
one being migrated (R241). -/
def physical (ch : Fin 2) (a : Nat) (s : State) : Option (Nat × Nat) :=
  let size := rankSize ch s
  let rank := a / size
  let off := a % size
  let at_ (cs : Nat) : Option (Nat × Nat) := some (cs, cs * 2 ^ 34 + off)
  match (s.chan ch).mig with
  | some (r, front) =>
    if r ≠ rank || front < off / 64 then at_ (csOf ch rank s)
    else if off / 64 < front then at_ (spareCs ch s)
    else none
  | none => at_ (csOf ch rank s)

/-! ### Contents -/

/-- What an unlisted byte of a channel reads as: 0 (R230), or a free value after a loss of contents (Table 2.10). -/
def dramDefault (epoch : Option Nat) (key : Nat) : Byte :=
  match epoch with
  | none => 0
  | some e => Config.freeByte e key

/-- Bytes of a channel from a key on. -/
def readCells (ch : Fin 2) (key n : Nat) (s : State) : Bytes :=
  sgets (dramDefault (s.chan ch).epoch) (s.chan ch).cells key n

/-- Bytes of a channel stored from a key on. -/
def writeCells (ch : Fin 2) (key : Nat) (bs : Bytes) (s : State) : State :=
  s.updChan ch fun x => { x with cells := sputs (dramDefault x.epoch) x.cells key bs }

/-- A line is marked poisoned: what has been written of it before counts no more (R229). -/
def poisonLine (ch : Fin 2) (key : Nat) (s : State) : State :=
  s.updChan ch fun x => if x.poisoned.contains (key / 64) then x
    else { x with poisoned := (key / 64) :: x.poisoned, mended := x.mended.filter fun w => decide (w / 8 ≠ key / 64) }

/-- A line is poisoned. -/
def linePoisoned (ch : Fin 2) (key : Nat) (s : State) : Bool := (s.chan ch).poisoned.contains (key / 64)

/-- What the check bits of a line show by themselves (R228). -/
def lineError (ch : Fin 2) (key : Nat) (s : State) : Ecc := ((s.chan ch).errs.lookup (key / 64)).getD .clean

/-- What the check bits of a line show is kept, or written back. -/
def setLineError (ch : Fin 2) (key : Nat) (e : Ecc) (s : State) : State :=
  s.updChan ch fun x =>
    let rest := x.errs.filter fun p => decide (p.1 ≠ key / 64)
    { x with errs := if e = .clean then rest else (key / 64, e) :: rest }

/-- A line is good again: it has been written whole (R229). -/
def cleanLine (ch : Fin 2) (key : Nat) (s : State) : State :=
  s.updChan ch fun x => { x with
    poisoned := x.poisoned.filter (· ≠ key / 64), mended := x.mended.filter fun w => decide (w / 8 ≠ key / 64)
    errs := x.errs.filter fun p => decide (p.1 ≠ key / 64) }

/-- Whole words of a bad line are written: once each of its eight has been, the line has been written again and is good
(R229). -/
def mendWords (ch : Fin 2) (key n : Nat) (s : State) : State :=
  if linePoisoned ch key s || decide (lineError ch key s ≠ .clean) then
    let words := (s.chan ch).mended ++ (List.range (n / 8)).map fun i => key / 8 + i
    if (List.range 8).all fun i => words.contains (key / 64 * 8 + i) then cleanLine ch key s
    else s.updChan ch fun x => { x with mended := words.eraseDups }
  else s

/-- The contents of a channel are lost and read as free values (Table 2.10). -/
def loseContents (ch : Fin 2) (s : State) : State :=
  (s.updChan ch fun x => { x with cells := [], poisoned := [], mended := [], errs := [], epoch := some s.free }).bump

/-! ### Zero-initialisation (R230) -/

/-- A line's place in the order of initialisation: rank by rank. -/
def lineIndex (ch : Fin 2) (key : Nat) (s : State) : Nat := key / 2 ^ 34 * (rankSize ch s / 64) + key % 2 ^ 34 / 64

/-- A line holds contents: initialisation is skipped or has passed it, or it has been written. -/
def lineReady (ch : Fin 2) (key : Nat) (s : State) : Bool :=
  let x := s.chan ch
  x.zeroed || decide (lineIndex ch key s < x.front) || x.ahead.contains (lineIndex ch key s)

/-- Bytes are stored to a line; above the front it is written whole, as zeros merged with them. -/
def storeLine (ch : Fin 2) (key : Nat) (bs : Bytes) (s : State) : State :=
  if lineReady ch key s then writeCells ch key bs s
  else
    let s := writeCells ch key bs (writeCells ch (key / 64 * 64) (List.replicate 64 0) s)
    s.updChan ch fun x => { x with ahead := lineIndex ch key s :: x.ahead }

/-! ### Errors, sparing and loss -/

/-- The error words: address, syndrome, kind and chip select. -/
def noteError (ch : Fin 2) (a syn cs : Nat) (cmd ue : Bool) (s : State) : State :=
  let s := s.setAddr64 (chanAddr ch 0x1A) a
  s.setWord (chanAddr ch 0x1C) (BitVec.ofNat 32 (syn % 256 * 256 + b2n cmd * 8 + b2n ue * 4 + cs % 4))

/-- A corrected error: counted, and reported at most once per second per channel (Table 9.6). -/
def correctedError (ch : Fin 2) (a syn cs : Nat) (s : State) : State :=
  recordLimited 0x2001 ch cs (noteError ch a syn cs false false (s.countUp (chanAddr ch 0x18) 0 32))

/-- A channel serves requests: in service or migrating, its block not out. -/
def chanServes (ch : Fin 2) (s : State) : Bool :=
  !s.blockOut (chanBlock ch) && (decide (chanState ch s = 1) || decide (chanState ch s = 3))

/-- A channel leaves self-refresh. -/
def leaveSr (ch : Fin 2) (s : State) : State :=
  let s := (s.updChan ch fun x => { x with sr := .none }).setFlag (chanAddr ch 0x15) 20 false
  setChanState ch (if (s.chan ch).mig.isSome then 3 else 1) s

/-- A spare is held that no migration has used up. -/
def spareFree (ch : Fin 2) (s : State) : Bool :=
  let x := s.chan ch
  x.spare && x.spareOk && !x.spareUsed

/-- A logical rank is failing (R240): it is migrated to an unused spare, or stays mapped unspared. A rank that is
already migrating goes on (R244). The copy's first request abandons a self-refresh entry, or makes a channel in self-refresh exit
(R236); a channel that trains migrates once it is in service. -/
def rankFailing (ch : Fin 2) (rank : Nat) (s : State) : State :=
  let x := s.chan ch
  let cs := csOf ch rank s
  if x.mig.any (·.1 == rank) then s
  else if spareFree ch s && x.mig.isNone then
    let s := (s.updChan ch fun x => { x with mig := some (rank, 0), migAt := s.clock }).setField (chanAddr ch 0x1E) 8 24 0
    let s := s.updChan ch fun x => { x with sr := match x.sr with | .entering => .none | p => p }
    if chanServes ch s then setChanState ch 3 s
    else if chanState ch s = 2 && !s.blockOut (chanBlock ch) then leaveSr ch s
    else s
  else degrade (record 0x2006 ch cs s)

/-- An uncorrectable data error: counted, recorded, and its rank failing (R228, R231). -/
def uncorrectable (ch : Fin 2) (a syn cs rank : Nat) (s : State) : State :=
  let s := noteError ch a syn cs false true (s.countUp (chanAddr ch 0x19) 0 32)
  rankFailing ch rank (record 0x2002 ch cs s)

/-- A reply goes to whoever waits: a core's arrives among its far replies; an engine's POISON is counted at its delivery; a frame
buffer and scan-out take theirs. -/
def replyDram (r : DramReq) (st : Status) (data : Bytes) (s : State) : State :=
  match r.from_ with
  | .core c q => s.updCore c fun k => { k with farReplies := k.farReplies ++ [⟨q, st, data⟩] }
  | .engine => onlyIf (decide (st = .poison)) poisonReply s
  | .buffer k b frame => frameWritten k b frame st (onlyIf (decide (st = .poison)) poisonReply s)
  | .fetch addr len => fetchAnswered addr len st data (onlyIf (decide (st = .poison)) poisonReply s)
  | .upkeep _ => s

/-- The block number of the requester behind a port (Table 9.2). -/
def portBlock (port : Nat) (ch : Fin 2) : Nat :=
  match port with
  | 0 | 1 | 2 => 13 | 3 => 12 | 4 => 10 | 5 => 24 | 7 => 17 | 8 => chanBlock ch | _ => 11

/-- The requester of a request, as a fault names it. -/
def requesterOf (r : DramReq) (ch : Fin 2) : Nat :=
  match r.from_ with
  | .core c _ => c
  | _ => portBlock r.port ch

/-- Bytes at a DRAM location are left undefined: free values (R31). -/
def undefineBytes (ch : Fin 2) (a n : Nat) (s : State) : State :=
  match physical ch a s with
  | some (_, key) => (writeCells ch key (leBytes n s.freeVal) s).bump
  | none => s

/-- A request is answered RESET_ABORT; a write leaves its target undefined (R31, R42). -/
def abortDram (ch : Fin 2) (r : DramReq) (s : State) : State :=
  let s := abortReply (requesterOf r ch) (chanBlock ch) s
  let s := if r.write then undefineBytes ch r.addr r.data.length s else s
  replyDram r .resetAbort [] s

/-- The controller's own request, which has nobody to answer. -/
def DramReq.own (r : DramReq) : Bool := match r.from_ with | .upkeep _ => true | _ => false

/-- Every request of a channel is answered, by f, and the queue is empty; the controller's own work is dropped. -/
def flushChan (ch : Fin 2) (f : DramReq → State → State) (s : State) : State :=
  let q := (s.chan ch).queue.filter fun r => !r.own
  forAll f q (s.updChan ch fun x => { x with queue := [], idleAt := s.clock })

/-- A channel serves nothing: its requests are answered POISON, no rank of it is in service, and the map no longer counts it. -/
def outOfService (ch : Fin 2) (s : State) : State :=
  let s := flushChan ch (fun r => replyDram r .poison []) s
  let s := setChanState ch 4 (s.updChan ch fun x => { x with ranks := 0, mig := none, retrain := [], sr := .none })
  refreshTop ((s.setField (chanAddr ch 0x11) 16 4 0).setFlag (chanAddr ch 0x15) 20 false)

/-- A channel goes out of service because no speed works, or after Admission (R237, R239): the degraded latch, DRAM_CHANNEL_LOST, its
requests answered POISON; after Admission the map collapses onto the survivor. -/
def loseChannel (ch : Fin 2) (s : State) : State :=
  let s := outOfService ch (degrade (record 0x2005 ch 0 s))
  match s.modes.mode with
  | .boot | .admission => s
  | _ => panelCollapse (s.setFlag 0x1400 8 true)

/-- A channel whose training finds no usable topology goes out of service; after Admission as a lost channel (R222, R223, R239). -/
def noTopology (ch : Fin 2) (s : State) : State :=
  match s.modes.mode with
  | .boot | .admission => outOfService ch s
  | _ => loseChannel ch s

/-! ### Requests (R225, R226, R242) -/

/-- A channel has room for a request: 256 reads, 128 writes (Table 9.5). -/
def chanRoom (ch : Fin 2) (write : Bool) (s : State) : Bool :=
  let n := ((s.chan ch).queue.filter fun r => r.write == write).length
  decide (n < if write then 128 else 256)

/-- A request reaches a channel: its closed sluice answers RESET_ABORT (R547), an out-of-service channel POISON; else it
is queued, and abandons a self-refresh entry that has not committed (R236). -/
def admitDram (ch : Fin 2) (r : DramReq) (s : State) : State :=
  if s.blockOut (chanBlock ch) then abortDram ch r s
  else notePeak (s.updChan ch fun x => { x with
    queue := x.queue ++ [r], sr := match x.sr with | .entering => .none | p => p })

/-- The lines an engine's request touches: each piece's address and length. -/
def linePieces (A len : Nat) : List (Nat × Nat) :=
  (List.range ((A % 64 + len + 63) / 64)).map fun i =>
    let lo := max A ((A / 64 + i) * 64)
    let hi := min (A + len) ((A / 64 + i + 1) * 64)
    (lo, hi - lo)

/-- One piece of a request through a port: POISON above the map top, where a write is discarded; else it is admitted. -/
def requestPiece (from_ : DramFrom) (port : Nat) (write : Bool) (A len : Nat) (data : Bytes) (s : State) : State :=
  match routeDram A s with
  | some (ch, a) => admitDram ch ⟨from_, port, write, a, len, data, s.clock, false, 0⟩ s
  | none => replyDram ⟨from_, port, write, A, len, data, s.clock, false, 0⟩ .poison [] (record 0x200A port 0 s)

/-- The requests of one kind that wait at a channel. -/
def chanCount (ch : Fin 2) (write : Bool) (s : State) : Nat := ((s.chan ch).queue.filter fun r => r.write == write).length

/-- A piece of a request finds room: a transaction device-wide, and an entry at its channel (R35, R36, R242). -/
def pieceRoom (write : Bool) (A : Nat) (s : State) : Bool :=
  match routeDram A s with
  | some (ch, _) => fabricRoom false s && chanRoom ch write s
  | none => fabricRoom false s

/-- All pieces of a request find room together (R242). -/
def allRoom (write : Bool) (ps : List (Nat × Nat)) (s : State) : Bool :=
  let into (ch : Fin 2) : Nat := (ps.filter fun p => match routeDram p.1 s with | some (c, _) => decide (c = ch) | none => false).length
  decide (inflight s + ps.length ≤ 1472) &&
    (List.finRange 2).all fun ch => decide (chanCount ch write s + into ch ≤ if write then 128 else 256)

/-- A request waits behind a port (R26). -/
def pushPort (port : Fin 12) (r : PortReq) (s : State) : State :=
  { s with dram := { s.dram with ports := modAt s.dram.ports port fun l => l ++ [r] } }

/-- A piece of an engine's request goes to its channel, or waits behind its port: for room, or for older pieces (R35). -/
def sendPiece (port : Fin 12) (r : PortReq) (s : State) : State :=
  if s.dram.ports[port].isEmpty && pieceRoom r.write r.addr s then requestPiece r.from_ port r.write r.addr r.len r.data s
  else pushPort port r s

/-- The oldest piece that waits behind a port goes to its channel where it finds room. -/
def sendWaiting (port : Fin 12) (s : State) : State :=
  match s.dram.ports[port] with
  | [] => s
  | r :: rest =>
    if pieceRoom r.write r.addr s then
      requestPiece r.from_ port r.write r.addr r.len r.data
        { s with dram := { s.dram with ports := modAt s.dram.ports port fun _ => rest } }
    else s

/-- The pieces of a write, one for each line. -/
def writePieces (from_ : DramFrom) (A : Nat) (data : Bytes) : List PortReq :=
  (linePieces A data.length).map fun p => ⟨from_, true, p.1, p.2, (data.drop (p.1 - A)).take p.2⟩

/-- The pieces of a read, one for each line. -/
def readPieces (A len : Nat) : List PortReq := (linePieces A len).map fun p => ⟨.engine, false, p.1, p.2, []⟩

/-- An engine's request through its port: one for each line. -/
def enginePieces (port : Fin 12) (ps : List PortReq) (s : State) : State := forAll (sendPiece port) ps s

/-- A core's oldest waiting far access reaches its channel where it finds room, behind the stores that a reset core has left at the port
(R77, R99, R242). -/
def sendFar (c : CoreId) (s : State) : State :=
  match (s.core c).farWait with
  | [] => s
  | q :: rest =>
    if s.dram.ports[6].isEmpty && pieceRoom q.store q.addr.toNat s then
      requestPiece (.core c q) 6 q.store q.addr.toNat (if q.wide then 8 else 4) q.data (s.updCore c fun k => { k with farWait := rest })
    else s

/-! ### The pick and the service (R233, R228, R229) -/

/-- The target of a port in ns, 100 to 1,000,000. -/
def portTarget (ch : Fin 2) (port : Nat) (s : State) : Nat :=
  clampN 100 1000000 (s.field (chanAddr ch (0x20 + port % 12)) 0 20)

/-- The urgency of a request. -/
def urgency (ch : Fin 2) (r : DramReq) (s : State) : Nat := min 7 (8 * (s.clock - r.at_) / portTarget ch r.port s)

/-- The request hits an open row. -/
def rowHit (ch : Fin 2) (r : DramReq) (s : State) : Bool :=
  let (bank, row, _) := decodeAddr ch r.addr s
  (s.chan ch).rows.contains (bank, row)

/-- Two requests are accesses to one line. Zero-initialisation does not order them: what it finds written it leaves (R230). -/
def sameLine (e r : DramReq) : Bool :=
  decide (e.from_ ≠ .upkeep .init) && decide (r.from_ ≠ .upkeep .init) && decide (e.addr / 64 = r.addr / 64)

/-- The requests that may be served now, with their places: first of their line, not on the line being migrated, and a
write only while writes drain or a read of its line waits behind it. A line's copy goes before the requests that wait for it (R241). -/
def servable (ch : Fin 2) (s : State) : List (Nat × DramReq) :=
  let q := (s.chan ch).queue
  let drain := decide (96 ≤ (q.filter (·.write)).length) ||
    !(q.any fun r => !r.write && decide (2 ≤ urgency ch r s))
  (q.zipIdx.map fun p => (p.2, p.1)).filter fun p =>
    (!p.2.write || drain || (q.drop p.1).any fun e => !e.write && sameLine e p.2) &&
      (decide (p.2.from_ = .upkeep .init) || decide (p.2.from_ = .upkeep .copy) ||
        ((physical ch p.2.addr s).isSome && !((q.take p.1).any fun e => sameLine e p.2)))

/-- The place of the request that a channel picks next: highest urgency; then the oldest that 8 row hits have passed over; then a row
hit; then the oldest (R233). -/
def pickDram (ch : Fin 2) (s : State) : Option Nat :=
  let c := servable ch s
  let top := (c.map fun p => urgency ch p.2 s).foldl max 0
  let best := c.filter fun p => decide (urgency ch p.2 s = top)
  match best with
  | [] => none
  | (i, _) :: _ =>
    match best.find? fun p => decide (8 ≤ p.2.passed) with
    | some p => some p.1
    | none => match best.find? fun p => rowHit ch p.2 s with
      | some p => some p.1
      | none => some i

/-- The picked request leaves the queue; the older ones of its urgency that a row hit passes are counted, and its row is
open. -/
def takeDram (ch : Fin 2) (i : Nat) (r : DramReq) (s : State) : State :=
  let hit := rowHit ch r s
  let (bank, row, _) := decodeAddr ch r.addr s
  let u := urgency ch r s
  let q := ((s.chan ch).queue.zipIdx.map fun p =>
    if hit && decide (p.2 < i) && decide (urgency ch p.1 s = u) then { p.1 with passed := p.1.passed + 1 } else p.1).eraseIdx i
  s.updChan ch fun x => { x with
    queue := q, idleAt := s.clock, rows := (bank, row) :: x.rows.filter fun e => decide (e.1 ≠ bank) }

/-- What a read of a line finds: the error that the command tells, or the one its check bits hold. -/
def foundError (ch : Fin 2) (key : Nat) (ecc : Ecc) (s : State) : Ecc := if ecc = .clean then lineError ch key s else ecc

/-- A read at a channel is judged by the ECC (R228): the status, and the state with what is counted. A corrected line is written back
where `wb` says so; what is not written back stays in the line. -/
def judgeRead (wb : Bool) (ch : Fin 2) (a key cs rank : Nat) (ecc : Ecc) (s : State) : Status × State :=
  if linePoisoned ch key s then (.poison, s)
  else match foundError ch key ecc s with
    | .clean => (.ok, s)
    | .single syn => (.ok, correctedError ch a syn.toNat cs (setLineError ch key (if wb then .clean else .single syn) s))
    | .double syn => (.poison, uncorrectable ch a syn.toNat cs rank (setLineError ch key (.double syn) s))

/-- DRAM_ECC.WRITEBACK. -/
def writeBack (ch : Fin 2) (s : State) : Bool := s.flag (chanAddr ch 0x17) 0

/-! ### The controller's own work through port P8 (R230, R231, R241) -/

/-- RANK_OK: the chip selects of the mapped ranks that are in service (R252). -/
def noteRanks (ch : Fin 2) (ok : Nat → Bool) (s : State) : State :=
  let on (cs : Nat) : Bool := ok cs && (rankOn ch cs s).isSome
  s.setField (chanAddr ch 0x11) 16 4 (maskWord 4 on).toNat

/-- The key of a line by its place in the order of initialisation. -/
def lineKey (ch : Fin 2) (i : Nat) (s : State) : Nat :=
  let per := rankSize ch s / 64
  i / per * 2 ^ 34 + i % per * 64

/-- Zero-initialisation has written every line of the fitted ranks, or is skipped (R230). -/
def initDone (ch : Fin 2) (s : State) : Bool :=
  let x := s.chan ch
  x.zeroed || decide (x.fitted * rankSize ch s / 64 ≤ x.front)

/-- The time from one line of the patrol scrub to the next, in ns: every mapped line once in HOURS hours, 0 as 1 (R231). -/
def scrubGap (ch : Fin 2) (s : State) : Nat :=
  max 1 (s.field (chanAddr ch 0x16) 0 16) * 3600000000000 / (capacity ch s / 64)

/-- A line is copied from the failing rank to the spare; an uncorrectable one is written as poisoned (R241, R244). A line above the
initialisation front has nothing to copy (R230). -/
def copyLine (ch : Fin 2) (rank line : Nat) (ecc : Ecc) (s : State) : State :=
  let cs := csOf ch rank s
  let from_ := cs * 2 ^ 34 + line * 64
  let dest := spareCs ch s * 2 ^ 34 + line * 64
  let a := rank * rankSize ch s + line * 64
  if lineReady ch from_ s then
    let (st, s) := judgeRead (writeBack ch s) ch a from_ cs rank ecc s
    if st = .ok then cleanLine ch dest (storeLine ch dest (readCells ch from_ 64 s) s)
    else poisonLine ch dest (storeLine ch dest (List.replicate 64 0) s)
  else s

/-- The last line is copied: the logical rank maps to the spare's chip select (R241). -/
def migrationDone (ch : Fin 2) (rank : Nat) (s : State) : State :=
  let s := s.setField (chanAddr ch 0x11) (8 + 2 * (rank % 4)) 2 (spareCs ch s)
  let s := noteRanks ch (fun _ => true) (s.updChan ch fun x => { x with mig := none, spareUsed := true })
  record 0x2007 ch (spareCs ch s) (setChanState ch 1 s)

/-- The data rate of a speed code, in MT/s (R237). -/
def dataRate (speed : Nat) : Nat := match speed with | 0 => 3200 | 1 => 2666 | 2 => 2400 | 3 => 1866 | _ => 1600

/-- The least time between two line copies, in ns: a read and a write of a burst of 8 transfers in SHARE percent of the channel's time,
SHARE from 5 to 50 (R241, Table 9.5). -/
def copyGap (ch : Fin 2) (s : State) : Nat :=
  2 * 8 * 1000 * 100 / (dataRate (chanSpeed ch s) * clampN 5 50 (s.field (chanAddr ch 0x1E) 0 8))

/-- The request that a work has for its next line, as far as one is due: whether it writes, and its address. Initialisation goes over the
fitted ranks (R230), the scrub over the mapped lines by HOURS (R231), a migration over the failing rank by SHARE (R241). -/
def upkeepDue (ch : Fin 2) (w : Upkeep) (s : State) : Option (Bool × Nat) :=
  let x := s.chan ch
  match w with
  | .init => if initDone ch s then none else some (true, x.front * 64)
  | .scrub =>
    if s.flag (chanAddr ch 0x16) 16 && decide (capacity ch s ≠ 0) && decide (x.scrubAt ≤ s.clock) then
      some (false, x.scrub * 64 % capacity ch s) else none
  | .copy =>
    match x.mig with
    | some (rank, line) => if x.migAt ≤ s.clock then some (false, rank * rankSize ch s + line * 64) else none
    | none => none

/-- A work's request reaches its channel, as any request of a port: it finds room, abandons a self-refresh entry, or waits for its end
(R233, R236). One of each work waits at a time, and none begins while Standby is being entered (DESIGN CHOICE: log entry 183). -/
def askUpkeep (ch : Fin 2) (w : Upkeep) (s : State) : State :=
  match upkeepDue ch w s with
  | some (write, a) =>
    let on := decide (chanState ch s = 1) || decide (chanState ch s = 2) || decide (chanState ch s = 3)
    let waits := (s.chan ch).queue.any fun r => decide (r.from_ = .upkeep w)
    if on && !s.blockOut (chanBlock ch) && s.modes.entering.isNone && !waits && fabricRoom false s && chanRoom ch write s then
      admitDram ch ⟨.upkeep w, 8, write, a, 64, if write then List.replicate 64 0 else [], s.clock, false, 0⟩ s
    else s
  | none => s

/-- A line is initialised with zeros; one written before it keeps its data (R230). -/
def initLine (ch : Fin 2) (i : Nat) (s : State) : State :=
  let x := s.chan ch
  if i ≠ x.front then s
  else
    let s := if x.ahead.contains i then s else writeCells ch (lineKey ch i s) (List.replicate 64 0) s
    s.updChan ch fun x => { x with front := i + 1, ahead := x.ahead.filter (· ≠ i) }

/-- The scrub reads a line, corrects it and writes it back (R231). -/
def scrubLine (ch : Fin 2) (a : Nat) (ecc : Ecc) (s : State) : State :=
  match physical ch a s with
  | some (cs, key) =>
    let s := s.updChan ch fun x => { x with scrub := (a / 64 + 1) % (capacity ch s / 64), scrubAt := s.clock + scrubGap ch s }
    if lineReady ch key s then (judgeRead true ch a key cs (a / rankSize ch s) ecc s).2 else s
  | none => s

/-- The line at the migration's front is copied and the front advances; with the last line the migration is done (R241). -/
def copyNext (ch : Fin 2) (a : Nat) (ecc : Ecc) (s : State) : State :=
  match (s.chan ch).mig with
  | some (rank, line) =>
    if a ≠ rank * rankSize ch s + line * 64 then s
    else
      let s := copyLine ch rank line ecc s
      let s := (s.updChan ch fun x => { x with mig := some (rank, line + 1), migAt := s.clock + copyGap ch s }).setField (chanAddr ch 0x1E) 8 24 ((line + 1) * 64 / 2 ^ 20)
      if rankSize ch s / 64 ≤ line + 1 then migrationDone ch rank s else s
  | none => s

/-- The controller's own request is served. -/
def serveUpkeep (ch : Fin 2) (w : Upkeep) (r : DramReq) (ecc : Ecc) (s : State) : State :=
  match w with
  | .init => initLine ch (r.addr / 64) s
  | .scrub => scrubLine ch r.addr ecc s
  | .copy => copyNext ch r.addr ecc s

/-! ### The service (R228, R229) -/

/-- A request is served: a read answered, or a write made; a write narrower than 64 bits is a read-modify-write whose
read is checked (R228). Above the initialisation front a read returns zero without an access, and nothing is checked (R230). -/
def serveAccess (ch : Fin 2) (r : DramReq) (ecc : Ecc) (s : State) : State :=
  match physical ch r.addr s with
  | none => s
  | some (cs, key) =>
    let rank := r.addr / rankSize ch s
    if r.write then
      let n := r.data.length
      let partial_ := decide (r.addr % 8 ≠ 0) || decide (n % 8 ≠ 0)
      if decide (r.addr % 64 = 0) && n = 64 then replyDram r .ok [] (cleanLine ch key (storeLine ch key r.data s))
      else if partial_ && lineReady ch key s then
        let (st, s) := judgeRead (writeBack ch s) ch r.addr key cs rank ecc s
        if st = .ok then replyDram r .ok [] (storeLine ch key r.data s)
        else replyDram r .poison [] (poisonLine ch key s)
      else replyDram r .ok [] (mendWords ch key n (storeLine ch key r.data s))
    else if lineReady ch key s then
      let (st, s) := judgeRead (writeBack ch s) ch r.addr key cs rank ecc s
      replyDram r st (if st = .ok then readCells ch key r.len s else []) s
    else replyDram r .ok (List.replicate r.len 0) s

/-- Postponed refreshes are made up once no request at the threshold waits (R234). -/
def makeUpRefresh (ch : Fin 2) (s : State) : State :=
  let urg := s.field (chanAddr ch 0x13) 1 3
  if (s.chan ch).queue.any fun r => decide (urg ≤ urgency ch r s) then s else s.setField (chanAddr ch 0x13) 4 4 0

/-- A request is served. -/
def serveDram (ch : Fin 2) (r : DramReq) (ecc : Ecc) (s : State) : State :=
  match r.from_ with
  | .upkeep w => serveUpkeep ch w r ecc s
  | _ => serveAccess ch r ecc s

/-- The channel serves the request at a place of its queue, where that is its pick (R233). -/
def servePick (ch : Fin 2) (idx : Nat) (ecc : Ecc) (s : State) : State :=
  if chanServes ch s && pickDram ch s == some idx then
    match (s.chan ch).queue[idx]? with
    | some r => makeUpRefresh ch (serveDram ch r ecc (takeDram ch idx r s))
    | none => s
  else s

/-- DRAM_SERVE: the channel serves the request it picks; a place that is not its pick is not served. -/
def execDramServe (ch : Fin 2) (idx : Nat) (ecc : Ecc) (s : State) : Outcome State Fault Refusal :=
  .next (servePick ch idx ecc s)

/-- A work of the controller's own asks for its next line where one is due, and the line is served as soon as the channel picks it. -/
def runUpkeep (ch : Fin 2) (w : Upkeep) (ecc : Ecc) (s : State) : State :=
  let s := askUpkeep ch w s
  match (s.chan ch).queue.findIdx? fun r => decide (r.from_ = .upkeep w) with
  | some i => servePick ch i ecc s
  | none => s

/-- DRAM_ZERO_INIT: background initialisation writes its next line with zeros (R230). -/
def execDramZeroInit (ch : Fin 2) (s : State) : Outcome State Fault Refusal := .next (runUpkeep ch .init .clean s)

/-- DRAM_SCRUB_LINE: the patrol scrub reads its next line when it is due (R231). -/
def execDramScrubLine (ch : Fin 2) (ecc : Ecc) (s : State) : Outcome State Fault Refusal := .next (runUpkeep ch .scrub ecc s)

/-- DRAM_MIGRATE_LINE: the next line of the failing rank is copied, within the share (R241). -/
def execDramMigrateLine (ch : Fin 2) (ecc : Ecc) (s : State) : Outcome State Fault Refusal := .next (runUpkeep ch .copy ecc s)

/-- DRAM_OVERDUE: a request's time has reached its port's target; it is counted once, and SR_EXIT_LATE is recorded where
it waits for self-refresh to end (R233, R236). -/
def execDramOverdue (ch : Fin 2) (idx : Nat) (s : State) : Outcome State Fault Refusal :=
  .next (match (s.chan ch).queue[idx]? with
    | some r =>
      if r.overdue || s.clock - r.at_ < portTarget ch r.port s then s
      else
        let s := s.updChan ch fun x => { x with
          queue := x.queue.zipIdx.map fun p => if p.2 = idx then { p.1 with overdue := true } else p.1 }
        let s := recordLimited 0x2009 r.port ch (s.countUp (chanAddr ch (0x30 + r.port % 12)) 0 32)
        onlyIf (decide (chanState ch s = 2)) (record 0x2008 ch (r.port % 12)) s
    | none => s)

/-! ### Refresh and temperature (R234, R235) -/

/-- The ranks of a channel that are refreshed and retrained: the mapped ones, and after them the spare that is held. A rank that
has been migrated away is no longer among them (R241). -/
def rankCount (ch : Fin 2) (s : State) : Nat := (s.chan ch).ranks + b2n (spareFree ch s)

/-- DRAM_REFRESH_DUE: a rank's refresh falls due: it is issued, which closes the rank's rows, or postponed while an urgent request
waits; with eight outstanding, refreshes are issued until fewer are. -/
def execDramRefreshDue (ch : Fin 2) (rank : Fin 4) (s : State) : Outcome State Fault Refusal :=
  .next (if !chanServes ch s || rankCount ch s ≤ rank.val then s
    else
      let w := chanAddr ch 0x13
      let n := s.field w 4 4
      let postponing := s.flag w 0 && s.feature 4
      let urgent := (s.chan ch).queue.any fun r => decide (s.field w 1 3 ≤ urgency ch r s)
      let issued (s : State) : State := s.updChan ch fun x => { x with rows := x.rows.filter fun e => decide (e.1 / 16 ≠ rank.val) }
      if postponing && urgent then
        if n < 8 then s.setField w 4 4 (n + 1) else (issued s).setField w 4 4 7
      else (issued s).setField w 4 4 0)

/-- A temperature reading: above 85 °C halves the interval at once; two at or below restore it (R235). -/
def tempReading (ch : Fin 2) (hot : Bool) (s : State) : State :=
  let cool := if hot then 0 else (s.chan ch).cool + 1
  let s := s.updChan ch fun x => { x with cool := cool }
  if hot then s.setFlag (chanAddr ch 0x13) 8 true
  else if 2 ≤ cool then s.setFlag (chanAddr ch 0x13) 8 false else s

/-- Every rank is to be retrained, the held spare too (R238). -/
def startRetrain (ch : Fin 2) (s : State) : State :=
  if chanState ch s = 1 || chanState ch s = 3 then s.updChan ch fun x => { x with retrain := List.range (rankCount ch s) } else s

/-- DRAM_MPR_POLL: the hottest rank's MPR range is read every 32 ms with SOURCE 0; a change of range retrains (R235,
R238). -/
def execDramMprPoll (ch : Fin 2) (range : Fin 3) (s : State) : Outcome State Fault Refusal :=
  .next (if !chanServes ch s || s.flag (chanAddr ch 0x14) 0 then s
    else
      let old := s.field (chanAddr ch 0x14) 16 2
      let s := tempReading ch (decide (range = 2)) (s.setField (chanAddr ch 0x14) 16 2 range)
      onlyIf (decide (old ≠ range.val)) (startRetrain ch) s)

/-- A board reading of DRAM_TEMP with SOURCE 1 (R235, R238). -/
def boardReading (ch : Fin 2) (s : State) : State :=
  let c := sbits (s.word (chanAddr ch 0x14)) 8 8
  let s := s.updChan ch fun x => { x with tempAt := s.clock, stale := false }
  if !s.flag (chanAddr ch 0x14) 0 then s
  else
    let s := tempReading ch (decide (85 < c)) s
    let s := if 95 < c then record 0x200B ch (c % 2 ^ 32).toNat s else s
    if 20 ≤ (c - (s.chan ch).trainC).natAbs then startRetrain ch s else s

/-- DRAM_TEMP_STALE: no board reading for 100 ms; the interval halves (R235). -/
def execDramTempStale (ch : Fin 2) (s : State) : Outcome State Fault Refusal :=
  let x := s.chan ch
  .next (if s.flag (chanAddr ch 0x14) 0 && !x.stale && decide (x.tempAt + 100000000 ≤ s.clock) &&
      !s.blockOut (chanBlock ch) then
      let s := (s.updChan ch fun x => { x with stale := true, cool := 0 }).setFlag (chanAddr ch 0x13) 8 true
      record 0x200C ch (sbits (s.word (chanAddr ch 0x14)) 8 8 % 2 ^ 32).toNat s
    else s)

/-! ### Self-refresh (R236) -/

/-- DRAM_SR_IDLE: a channel without a request for IDLE_US begins its entry into self-refresh; so does a channel at
Standby entry. A migration's copies and zero-initialisation are requests of port P8 (R230, R241). -/
def execDramSrIdle (ch : Fin 2) (s : State) : Outcome State Fault Refusal :=
  let x := s.chan ch
  let w := s.word (chanAddr ch 0x15)
  let idle := bit w 0 && decide (x.idleAt + bits w 4 16 * 1000 ≤ s.clock) && x.mig.isNone && initDone ch s
  .next (if chanServes ch s && x.queue.isEmpty && decide (x.sr = .none) && (idle || s.modes.entering.isSome) then
      s.updChan ch fun x => { x with sr := .entering }
    else s)

/-- DRAM_SR_COMMIT: precharge-all is issued; the entry is committed. -/
def execDramSrCommit (ch : Fin 2) (s : State) : Outcome State Fault Refusal :=
  .next (if (s.chan ch).sr = .entering && chanServes ch s then
      setChanState ch 2 ((s.updChan ch fun x => { x with sr := .committed, rows := [] }).setFlag (chanAddr ch 0x15) 20 true)
    else s)

/-- DRAM_SR_EXIT: a request waits behind the commit, and the channel exits. -/
def execDramSrExit (ch : Fin 2) (s : State) : Outcome State Fault Refusal :=
  .next (if chanState ch s = 2 && !s.blockOut (chanBlock ch) && !(s.chan ch).queue.isEmpty then leaveSr ch s else s)

/-- A channel's block goes out: its requests are answered RESET_ABORT and it enters self-refresh with its contents
(Table 2.6, R248). -/
def chanOut (ch : Fin 2) (s : State) : State :=
  let s := flushChan ch (abortDram ch) s
  if chanState ch s = 4 then s
  else
    let s := (s.updChan ch fun x => { x with sr := .committed, rows := [], retrain := [] }).setFlag (chanAddr ch 0x15) 20 true
    setChanState ch 2 s

/-- A channel's block is readmitted: it trains again, and a migration restarts from line 0 (R248). -/
def chanReadmit (ch : Fin 2) (s : State) : State :=
  if chanState ch s = 4 then s
  else
    let s := (s.updChan ch fun x => { x with sr := .none, mig := x.mig.map fun m => (m.1, 0) }).setFlag (chanAddr ch 0x15) 20 false
    setChanState ch 0 s

/-! ### Training (R223, R237, R238) -/

/-- The mapped ranks: the fitted ones, the spare apart, within 16 GiB (R224). -/
def mappedRanks (ch : Fin 2) (spare : Bool) (s : State) : Nat :=
  let f := (s.chan ch).fitted
  min (if spare then f - 1 else f) (2 ^ 34 / rankSize ch s)

/-- The channel steps down to the next speed, or is lost below 1,600 MT/s (R237). -/
def stepDown (ch : Fin 2) (s : State) : State :=
  let v := chanSpeed ch s
  if 4 ≤ v then loseChannel ch s
  else setChanState ch 0 (record 0x2004 ch (v + 1) (s.setField (chanAddr ch 0x11) 0 3 (v + 1)))

/-- The topology that training found is written to DRAM_GEOM (R223): device width and density of the ranks, from CS0. ROWB has
four bits and shows the low four of 15, 16 or 17. -/
def noteGeometry (ch : Fin 2) (dev dens n : Nat) (s : State) : State :=
  let w := chanAddr ch 0x10
  let s := (((s.setField w 0 2 dev).setField w 2 2 (n - 1)).setField w 4 4 (15 + dens)).setField w 8 2 (n - 1)
  s.updChan ch fun x => { x with fitted := n, rowBits := 15 + dens }

/-- The held spare finds no setting: it is unavailable, and a migration to it ends with its rank unspared (R237, R240). -/
def spareFails (ch : Fin 2) (s : State) : State :=
  let s := record 0x200D ch (spareCs ch s) (s.updChan ch fun x => { x with spareOk := false })
  match (s.chan ch).mig with
  | some (rank, _) => rankFailing ch rank (setChanState ch 1 (s.updChan ch fun x => { x with mig := none }))
  | none => s

/-- One training attempt of a channel ends: what it found on each chip select, and which ranks found a setting. -/
def trainChannel (ch : Fin 2) (found : List (Fin 2 × Fin 3)) (works : List Bool) (s : State) : State :=
  let first := !(s.chan ch).started
  let s := if first then
      (s.updChan ch fun x => { x with started := true }).setField (chanAddr ch 0x11) 0 3
        (min 4 (s.field (chanAddr ch 0x12) 0 3))
    else s
  match found.take 4 with
  | [] => noTopology ch ((s.setField (chanAddr ch 0x10) 0 2 3).updChan ch fun x => { x with fitted := 0 })
  | (dev, dens) :: rest =>
    if rest.any fun r => decide (r ≠ (dev, dens)) then
      noTopology ch (record 0x200E ch 0 s)
    else
      let n := rest.length + 1
      let s := noteGeometry ch dev.val dens.val n s
      let wants := s.flag (chanAddr ch 0x10) 10 && s.feature 3 && decide (2 ≤ n) && !(s.chan ch).spareUsed
      let ok (cs : Nat) : Bool := works.getD cs false
      let ranks := mappedRanks ch ((s.chan ch).spare && (s.chan ch).started) s
      let bad := (List.range ranks).any fun r =>
        let cs := csOf ch r s
        !ok cs && !(wants && decide (cs = n - 1))
      if bad then stepDown ch s
      else
        let c := sbits (s.word (chanAddr ch 0x14)) 8 8
        let s := s.updChan ch fun x => { x with ranks := ranks, trainC := c, idleAt := s.clock }
        let s := onlyIf (wants && !ok (n - 1)) (spareFails ch) s
        refreshTop (noteRanks ch ok (setChanState ch (if (s.chan ch).mig.isSome then 3 else 1) s))

/-- Training of a channel at its present speed completes (R237). -/
def endTraining (ch : Fin 2) (found : List (Fin 2 × Fin 3)) (works : List Bool) (s : State) : State :=
  let trains := !(match s.modes.mode with | .dormant | .standby | .boot => true | _ => false)
  if trains && chanState ch s = 0 && !s.blockOut (chanBlock ch) then trainChannel ch found works s else s

/-- DRAM_MAP and the spare selection take effect when Admission completes (R227). -/
def latchMap (s : State) : State :=
  let s := { s with dram := { s.dram with
    interleave := s.flag 0x1400 4, grain := 8 + min 8 (s.field 0x1400 0 4) } }
  let one (ch : Fin 2) (s : State) : State :=
    let spare := s.flag (chanAddr ch 0x10) 10 && s.feature 3 && decide (2 ≤ (s.chan ch).fitted)
    if chanState ch s = 4 then s
    else
      let s := s.updChan ch fun x => { x with spare := spare }
      let n := if chanState ch s = 0 then (s.chan ch).ranks else mappedRanks ch spare s
      noteRanks ch (fun cs => s.flag (chanAddr ch 0x11) (16 + cs)) (s.updChan ch fun x => { x with ranks := n })
  refreshTop (one 1 (one 0 s))

/-- DRAM_RETRAIN_SLICE: a slice of retraining ends for a rank; a rank without a setting steps the channel down, the spare becomes
unavailable (R237, R238). -/
def execDramRetrainSlice (ch : Fin 2) (rank : Fin 4) (ok : Bool) (s : State) : Outcome State Fault Refusal :=
  .next (if !chanServes ch s || !(s.chan ch).retrain.contains rank.val then s
    else if ok then
      let c := sbits (s.word (chanAddr ch 0x14)) 8 8
      s.updChan ch fun x => { x with retrain := x.retrain.filter (· ≠ rank.val), trainC := c }
    else if (s.chan ch).ranks ≤ rank.val then spareFails ch (s.updChan ch fun x => { x with retrain := x.retrain.filter (· ≠ rank.val) })
    else stepDown ch (s.updChan ch fun x => { x with retrain := [] }))

/-! ### Command errors, initialisation, scrub, migration -/

/-- The channel address of a lost command on a chip select: the report does not carry it, so it is any of that rank's (R252; log entry 184). -/
def alertAddr (ch : Fin 2) (cs : Nat) (s : State) : Nat :=
  match rankOn ch cs s with
  | some r => r * rankSize ch s + s.freeVal % rankSize ch s
  | none => s.freeVal

/-- DRAM_ALERT: a parity report on a rank. The command is reissued; a second report within 1 ms is an uncorrectable
command error (R232). -/
def execDramAlert (ch : Fin 2) (cs : Fin 4) (s : State) : Outcome State Fault Refusal :=
  .next (if !chanServes ch s then s
    else
      let again := match (s.chan ch).alerts.lookup cs.val with
        | some t => decide (s.clock - t < 1000000)
        | none => false
      let s := s.updChan ch fun x => { x with alerts := (cs.val, s.clock) :: x.alerts.filter fun e => decide (e.1 ≠ cs.val) }
      if again then
        let s := record 0x2003 ch cs ((noteError ch (alertAddr ch cs.val s) 0 cs.val true true s).bump)
        match rankOn ch cs.val s with
        | some r => rankFailing ch r s
        | none => s
      else s)

/-! ### The rules of the DRAM words -/

/-- The rule of a DRAM word. -/
def dramRule (addr : Nat) (val : Word) (_s : State) : Rule :=
  let ch : Fin 2 := if addr < 0x1800 then 0 else 1
  match (addr - 0x1400) % 0x400 with
  | 0x14 => .accept val (boardReading ch)
  | 0x1D => .accept val (onlyIf (bit val 2) fun s =>
      if bits val 0 2 < (s.chan ch).ranks then rankFailing ch (bits val 0 2) s else s)
  | 0x1F => .accept val (onlyIf (bit val 0) (startRetrain ch))
  | _ => .plain val

end Sys2Proof.Machine
end

