-- ==== Sys2Proof/Machine/Led.lean ====
section
/-! DEFINITION. Lamp and LED drive (chapter 13): the chain of a channel at a reload, fades, the die budget, matrix mode,
thermal derating, open and short detection with the diagnostic stretch, group-dark functions, and the rules of the LED
words. Times within a period are in half nanoseconds, since a tick is 2.5 ns. -/
namespace Sys2Proof.Machine

open Host (Outcome)

/-! ### Places -/

/-- A word of an LED block (R345). -/
def ledAddr (d : Fin 2) (off : Nat) : Nat := 0x3000 + 0x400 * d.val + off
/-- The LED block of a channel. -/
def ledDie (ch : Fin 64) : Fin 2 := if ch.val < 32 then 0 else 1
/-- A word of a channel (R345). -/
def ledChAddr (ch : Fin 64) (off : Nat) : Nat := ledAddr (ledDie ch) (0x40 + 4 * (ch.val % 32) + off)
/-- The block number of an LED block (Table 2.6). -/
def ledBlock (d : Fin 2) : Fin 25 := if d = 0 then 14 else 15
/-- The channels of a die. -/
def ledChans (d : Fin 2) : List (Fin 64) := (List.finRange 64).filter fun c => ledDie c = d
/-- A channel changed. -/
def State.updLed (s : State) (ch : Fin 64) (f : LedCh → LedCh) : State :=
  { s with led := { s.led with chans := modAt s.led.chans ch f } }
/-- An LED block changed. -/
def State.updLedDie (s : State) (d : Fin 2) (f : LedDie → LedDie) : State :=
  { s with led := { s.led with dies := modAt s.led.dies d f } }
/-- A channel. -/
def State.ledCh (s : State) (ch : Fin 64) : LedCh := s.led.chans[ch]

/-! ### Periods and windows (R322, R331) -/

/-- D: values outside 8–16 act as the nearer bound (Table 13.4). -/
def ledDepth (d : Fin 2) (s : State) : Nat := clampN 8 16 (s.field (ledAddr d 0) 0 5)
/-- The receiver code of a block's frame bank (Table 10.1). -/
def ledReceiver (d : Fin 2) : Nat := 9 + d.val
/-- The frame bank. -/
def ledBank (d : Fin 2) (s : State) : BankId := Fin.ofNat 32 (s.field (ledAddr d 0x14) 16 5)
/-- Matrix mode is asked for and agreed (R331). -/
def matrixAsked (d : Fin 2) (s : State) : Bool := s.flag (ledAddr d 0) 24 && s.feature 9
/-- The frame bank belongs to the block (R332). -/
def matrixOwned (d : Fin 2) (s : State) : Bool := decide (s.banks[ledBank d s].owner = ledReceiver d)
/-- Matrix mode runs. -/
def matrixRuns (d : Fin 2) (s : State) : Bool := matrixAsked d s && matrixOwned d s
/-- One count, in half nanoseconds: PDIV + 1 ticks of 2.5 ns. -/
def ledCount (d : Fin 2) (s : State) : Nat := 5 * (s.field (ledAddr d 0) 8 4 + 1)
/-- t_m in half nanoseconds; 0 without matrix mode (R331). -/
def matrixDead (d : Fin 2) (s : State) : Nat := if matrixRuns d s then max 2 (s.field (ledAddr d 0x14) 0 8) * 80 else 0
/-- Tp in half nanoseconds. -/
def ledTp (d : Fin 2) (s : State) : Nat := 2 ^ ledDepth d s * ledCount d s + matrixDead d s
/-- The present period index (R328). -/
def ledPeriod (d : Fin 2) (s : State) : Nat := 2 * s.deviceTime.toNat / ledTp d s
/-- Where a channel's window begins in its period. -/
def ledPhase (ch : Fin 64) (s : State) : Nat :=
  if matrixRuns (ledDie ch) s then 0 else bits (s.ledCh ch).cfg 24 6 * ledTp (ledDie ch) s / 64
/-- The window of a channel that has begun; none before the first. -/
def ledWindow (ch : Fin 64) (s : State) : Option Nat :=
  let now := 2 * s.deviceTime.toNat
  if ledPhase ch s ≤ now then some ((now - ledPhase ch s) / ledTp (ledDie ch) s) else none

/-! ### Curves (R324) -/

/-- The largest y below 2ⁿ whose (2 y − 1)ᵉ × den is at most 2ᵉ × num, found by bits from the top: the quotient's e-th
root, rounded to nearest, halves up. -/
def rootNear (num den e : Nat) : Nat → Nat → Nat
  | 0, y => y
  | n + 1, y =>
    let z := y + 2 ^ n
    rootNear num den e n (if (2 * z - 1) ^ e * den ≤ 2 ^ e * num then z else y)

/-- The full scale of y. -/
def ledFull : Nat := 2 ^ 24 - 1

/-- The gamma curve, rounded to nearest: (2²⁴ − 1) × (L / 65,535)^(GAMMA / 10). -/
def gammaIdeal (gamma l : Nat) : Nat := rootNear (ledFull ^ 10 * l ^ gamma) (65535 ^ gamma) 10 24 0

/-- The logarithmic curve, rounded to nearest: (2²⁴ − 1) × 1,000^(L / 65,535 − 1). -/
def logIdeal (l : Nat) : Nat := rootNear (ledFull ^ 65535) (1000 ^ (65535 - l)) 65535 24 0

/-- A value that the spec leaves open within a bound around an ideal value: the free value limited to the bound. -/
def within (ideal bound free : Nat) : Nat := clampN (ideal - bound) (ideal + bound) free

/-- The curve's y (Table 13.2). Curves 1 and 2 are fixed only within their bound: within it y is a free value. -/
def ledCurve (cfg : Word) (l : Nat) : Nat :=
  match bits cfg 0 2 with
  | 1 =>
    let g := clampN 10 30 (bits cfg 4 5)
    min ledFull (within (gammaIdeal g l) 128 (Config.curve 1 g l))
  | 2 => if l = 0 then 0 else min ledFull (max 16778 (within (logIdeal l) (logIdeal l / 1000) (Config.curve 2 0 l)))
  | _ => l * 256 + l / 256

/-- A quotient rounded to nearest, halves away from zero (R324, R326). -/
def awayDiv (a : Int) (b : Nat) : Int := if a < 0 then -(roundDivI (-a) b) else roundDivI a b

/-! ### The chain at a reload -/

/-- The modes in which the chain runs (R329). -/
def ledRuns (s : State) : Bool :=
  match s.modes.mode with
  | .run | .hold | .quiet | .degraded | .stop | .trip | .maintenance => true
  | _ => false

/-- The edge die drives its sinks: its block is not out, the die is in contact, not in its safe state and not shut down for its temperature
(R55, R329, R509). -/
def ledDriven (d : Fin 2) (s : State) : Bool :=
  !s.blockOut (ledBlock d) && !s.dies[d].lost && !s.dies[d].safe && !s.flag 0x0023 d.val

/-- The sinks of a die that has made itself safe hold their last currents for 10 ms (R55). -/
def ledHolds (d : Fin 2) (s : State) : Bool :=
  s.dies[d].safe && !s.dies[d].ledsOff && decide (s.clock < s.dies[d].safeAt + 10000000)

/-- The sinks of a die go off (R55, R329, Table 2.6). -/
def ledSinksOff (d : Fin 2) (s : State) : State :=
  forAll (fun c s => s.updLed c fun x => { x with g := 0, eff := none, dark := false, pulse := false, units := 0 }) (ledChans d)
    (s.updLedDie d fun x => { x with rows := 0 })

/-- Fades halt at their present L (R329). -/
def haltFades (s : State) : State :=
  { s with led := { s.led with chans := s.led.chans.map fun x => { x with fade := none, go := false } } }

/-- The level of the fade at a moment of its channel; none once it has ended (R326). -/
def fadeLevel (f : LedFade) (t : Nat) : Option Nat :=
  if f.ms * 2000000 ≤ t - f.t0 then none
  else some (f.from_ + awayDiv ((f.target - f.from_ : Int) * (t - f.t0 : Nat)) (f.ms * 2000000)).toNat

/-- The program's level at the window beginning at t: pending writes and GO in admission order, then the fade (R326,
R327, R339). -/
def programLevel (x : LedCh) (word fadeWord : Word) (t : Nat) : Nat × Option LedFade :=
  let l0 := if x.wrote then bits word 0 16 else bits x.level 0 16
  let fade : Option LedFade :=
    if x.go then some ⟨l0, t, bits fadeWord 16 16, max 1 (bits fadeWord 0 16)⟩
    else if x.wrote then none else x.fade
  match fade with
  | none => (bits word 0 16, none)
  | some f =>
    match fadeLevel f t with
    | some l => (l, some f)
    | none => (f.target, none)

/-- The row cycle of matrix mode: at its start a waiting swap takes place (R333), and a die whose clock was lost drives again (R46). -/
def rowStart (d : Fin 2) (k : Nat) (s : State) : State :=
  if k % 16 = 0 && decide (s.led.dies[d].rowCycle ≠ some (k / 16)) then
    let s := onlyIf s.led.dies[d].swap (fun s =>
      (s.setFlag (ledAddr d 0x14) 31 (!s.flag (ledAddr d 0x14) 31)).setWord (ledAddr d 0x16) (BitVec.ofNat 32 (k / 16))) s
    s.updLedDie d fun x => { x with rowCycle := some (k / 16), swap := false, waits := false }
  else s

/-- The pixel of a column in the row of period k, of the shown buffer (R332). A pixel whose parity is wrong comes as POISON, which is counted
(R30, R259); the spec states no reaction of the block, so its value is free. -/
def matrixPixel (ch : Fin 64) (k : Nat) (s : State) : Nat × State :=
  let d := ledDie ch
  let a := (ledBank d s).val * 0x20000 + (if s.flag (ledAddr d 0x14) 31 then 0x400 else 0) +
    2 * (32 * (k % 16) + ch.val % 32)
  match bankRead (ledReceiver d) a 2 s with
  | (.ok bs, s) => (leNat bs, s)
  | (.parity, s) => (s.freeVal % 65536, (poisonReply s).bump)
  | (.refused, s) => (0, s)

/-- A frame bank that is not the block's: the access is refused, and LED_MATRIX_REFUSED is raised as it becomes so (R254,
R332). -/
def matrixRefused (d : Fin 2) (s : State) : State :=
  let s := bankRefused (ledReceiver d) ((ledBank d s).val * 0x20000) s
  if s.led.dies[d].refused then s
  else record 0x6009 (dieNo d) (ledAddr d 0) (s.updLedDie d fun x => { x with refused := true })

/-- Σ of a die: CODE + 1 of its channels whose g is nonzero (R330). -/
def ledSum (d : Fin 2) (s : State) : Nat :=
  (ledChans d).foldl (fun n c => n + (if (s.ledCh c).g = 0 then 0 else bits (s.ledCh c).level 24 8 + 1)) 0

/-- The start of the window that a channel has last reloaded, in half nanoseconds. -/
def windowStart (ch : Fin 64) (s : State) : Option Nat :=
  (s.ledCh ch).window.map fun k => k * ledTp (ledDie ch) s + ledPhase ch s

/-- The die budget at the reload of a channel's window that begins at t: beyond 4,096 every lit channel takes its share (R330). It drives the
channels whose windows begin at that moment; another keeps its current for its whole window (R320). -/
def ledBudget (ch : Fin 64) (t : Nat) (s : State) : State :=
  let d := ledDie ch
  let sum := ledSum d s
  let beyond := decide (4096 < sum)
  let s := (s.setField (ledAddr d 3) 0 14 sum).setFlag (ledAddr d 3) 16 beyond
  let s := forAll (fun c s => s.updLed c fun x => { x with
    eff :=
      let e := if beyond then (bits x.level 24 8 + 1) * 4096 / sum else bits x.level 24 8 + 1
      if x.g = 0 || e = 0 then none else some (e - 1) })
    ((ledChans d).filter fun c => decide (c = ch) || decide (windowStart c s = some t)) s
  onlyIf beyond (recordLimited 0x6006 (dieNo d) sum) s

/-- A channel's function 1–16; 0 for none, and without LED_GROUP_DARK (R337, Table 13.4). -/
def ledFunc (ch : Fin 64) (s : State) : Nat :=
  let f := s.field (ledChAddr ch 3) 8 5
  if s.feature 10 && decide (f ≤ 16) then f else 0

/-- A channel has a latched OPEN or SHORT. -/
def ledLatched (ch : Fin 64) (s : State) : Bool := decide (s.field (ledChAddr ch 3) 16 2 ≠ 0)

/-- DIAG: 3 acts as 2. -/
def ledDiag (ch : Fin 64) (s : State) : Nat := min 2 (s.field (ledChAddr ch 3) 0 2)

/-- A member with a latched bit darkens its function: its bit in LED_GDARK sets, and LED_FUNC_DARK is recorded (R337). -/
def darkenGroup (ch : Fin 64) (s : State) : State :=
  let f := ledFunc ch s
  let d := ledDie ch
  onlyIf (decide (f ≠ 0) && ledLatched ch s && !s.flag (ledAddr d 5) (f - 1)) (fun s =>
    record 0x6007 (dieNo d) f (s.setFlag (ledAddr d 5) (f - 1) true)) s

/-- At a reload the channel's DARK bit follows its function's bit, which a member that has come to the function with a latched bit sets
(R337, R342). -/
def groupDark (ch : Fin 64) (s : State) : State :=
  let f := ledFunc ch s
  if f = 0 then s.setFlag (ledChAddr ch 3) 18 false
  else
    let s := darkenGroup ch s
    s.setFlag (ledChAddr ch 3) 18 (s.flag (ledAddr (ledDie ch) 5) (f - 1))

/-- The longest continuous conduction of a window, in counts (R323). -/
def longestRun (d : Fin 2) (g : Nat) (s : State) : Nat :=
  let full := 2 ^ ledDepth d s
  let segs := 2 ^ s.field (ledAddr d 0) 16 3
  let len := full / segs
  let q := g / segs
  let r := g % segs
  if full ≤ g then full
  else if 0 < r && q + 1 = len then r * len + q
  else q + (if 0 < r then 1 else 0)

/-- A measurement of the sink voltage, in mV: two failing ones in a row latch OPEN or SHORT (R335), which darkens the channel's function
(R337). -/
def measureSink (ch : Fin 64) (mv : Nat) (s : State) : State :=
  let x := s.ledCh ch
  let isOpen := decide (mv < 400)
  let isShort := decide (s.field (ledAddr (ledDie ch) 4) 0 6 * 1000 < mv)
  let o := if isOpen then x.openRun + 1 else 0
  let h := if isShort then x.shortRun + 1 else 0
  let s := s.updLed ch fun x => { x with openRun := min 2 o, shortRun := min 2 h, measured := true }
  let s := onlyIf (decide (2 ≤ o) && !s.flag (ledChAddr ch 3) 16) (fun s =>
    record 0x6001 ch 0 (s.latch (ledChAddr ch 3) 16)) s
  let s := onlyIf (decide (2 ≤ h) && !s.flag (ledChAddr ch 3) 17) (fun s =>
    record 0x6002 ch 0 (s.latch (ledChAddr ch 3) 17)) s
  darkenGroup ch s

/-- What a window conducts and measures: nothing of a dark channel, the diagnostic stretch where it is due (R335–R337,
R343). With DIAG 0 nothing is measured (Table 13.6). -/
def driveSink (ch : Fin 64) (k mv : Nat) (s : State) : State :=
  let d := ledDie ch
  let off := ledLatched ch s && s.flag (ledChAddr ch 3) 4
  let dark := s.flag (ledChAddr ch 3) 18
  let x := s.ledCh ch
  let here := !matrixRuns d s || decide (k % 16 = 0)
  let waits := matrixRuns d s && s.led.dies[d].waits
  let stretch := x.stretch && here && !off && !waits && (!dark || decide (ledDiag ch s = 2))
  let conducts := x.eff.isSome && !off && !dark && !waits
  let ns2 := if conducts then longestRun d x.g s * ledCount d s else 0
  let s := s.updLed ch fun x => { x with
    dark := off || dark, lit := x.lit || decide (0 < x.g), stretch := x.stretch && !here, pulse := stretch }
  let s := onlyIf (stretch && decide (ns2 < 2000)) (fun s => s.updLedDie d fun y => { y with stretchAt := some s.clock }) s
  onlyIf (decide (ledDiag ch s ≠ 0) && (stretch || decide (2000 ≤ ns2))) (measureSink ch mv) s

/-- The reload of a window: the shadow is copied, the chain computes, the die budget is judged, the sink is driven
(R320–R332). -/
def reloadChannel (ch : Fin 64) (k mv : Nat) (s : State) : State :=
  let d := ledDie ch
  let t := k * ledTp d s + ledPhase ch s
  let s := onlyIf (matrixRuns d s) (rowStart d k) s
  let s := onlyIf (matrixAsked d s && !matrixOwned d s) (matrixRefused d) s
  let s := onlyIf (matrixOwned d s) (fun s => s.updLedDie d fun x => { x with refused := false }) s
  let x := s.ledCh ch
  let word := s.word (ledChAddr ch 0)
  let cfg := s.word (ledChAddr ch 1)
  let (lp, fade) := programLevel x word (s.word (ledChAddr ch 2)) t
  let s := onlyIf (x.wrote || x.wroteCfg) (fun s => s.setWord (ledAddr d 2) (BitVec.ofNat 32 k)) s
  let s := s.setField (ledChAddr ch 0) 0 16 lp
  let (l, s) := if matrixRuns d s then matrixPixel ch k s else (if bit cfg 16 then x.net else lp, s)
  let f := s.led.dies[d].factor[Fin.ofNat 4 (bits cfg 20 2)]
  let y := (ledCurve cfg l * f + 2 ^ 14) / 2 ^ 15
  let g := if unitFailed .ledString ch s then 0 else (y * 2 ^ ledDepth d s + 2 ^ 23) / 2 ^ 24
  let s := s.updLed ch fun x => { x with
    level := setBits word 0 16 lp, cfg := cfg, g := g, fade := fade, go := false, wrote := false, wroteCfg := false }
  driveSink ch k mv (groupDark ch (ledBudget ch t s))

/-- Whether the pattern of a duty g conducts at a time of its conduction, in half nanoseconds: q counts of every segment, one more in the
first r (R323). -/
def segmentOn (d : Fin 2) (g t : Nat) (s : State) : Bool :=
  let segs := 2 ^ s.field (ledAddr d 0) 16 3
  let len := 2 ^ ledDepth d s / segs
  let c := t / ledCount d s
  decide (c < 2 ^ ledDepth d s) && decide (c % len < g / segs + b2n (decide (c / len < g % segs)))

/-- The current of a sink at this moment, in 200/256 mA: that of its code while its pattern or a stretch conducts, which in matrix mode begins at
t_m of a period (R321–R323, R330, R331, R336). -/
def sinkUnits (ch : Fin 64) (s : State) : Nat :=
  let d := ledDie ch
  let x := s.ledCh ch
  match ledWindow ch s with
  | none => 0
  | some k =>
    let t := 2 * s.deviceTime.toNat - ledPhase ch s - k * ledTp d s
    let from_ := matrixDead d s
    let stretched := x.pulse && decide (x.window = some k) && decide (t < from_ + 2000)
    let code := match x.eff with | some e => e + 1 | none => bits x.level 24 8 + 1
    let ahead := decide (x.window = some (k + 1))          -- reloaded with a later PHASE, its window has not begun
    if !ledDriven d s || decide (t < from_) || ahead || (matrixRuns d s && s.led.dies[d].waits) then 0
    else if stretched || (x.eff.isSome && !x.dark && segmentOn d x.g (t - from_) s) then code else 0

/-- The sink of a channel takes its present current. -/
def sinkNow (ch : Fin 64) (s : State) : State := s.updLed ch fun x => { x with units := sinkUnits ch s }

/-- The row-switch outputs of a die at this moment (Table 13.3): row k mod 16 from 20 ns before the columns of period k to its end. -/
def rowSwitches (d : Fin 2) (s : State) : BitVec 16 :=
  let now := 2 * s.deviceTime.toNat
  if matrixRuns d s && ledDriven d s && !s.led.dies[d].waits && decide (matrixDead d s ≤ now % ledTp d s + 40) then 1#16 <<< (ledPeriod d s % 16) else 0

/-- The outputs of both LED blocks follow device time (R322, R331); those of a die that has just made itself safe hold (R55). -/
def driveLeds (s : State) : State :=
  { s with led := {
      chans := Vector.ofFn fun ch => { s.ledCh ch with units := if ledHolds (ledDie ch) s then (s.ledCh ch).units else sinkUnits ch s }
      dies := Vector.ofFn fun d => { s.led.dies[d] with rows := rowSwitches d s } } }

/-- LED_RELOAD: at the start of a window that has not been reloaded the channel reloads; in Update and the Admission after
it nothing is copied (R328, R329). `mv` is the sink voltage at the end of the window's longest conduction. -/
def execLedReload (ch : Fin 64) (mv : Nat) (s : State) : Outcome State Fault Refusal :=
  .next (match ledWindow ch s with
    | none => s
    | some k =>
      let done := decide ((s.ledCh ch).window = some k) || decide ((s.ledCh ch).window = some (k + 1))
      if !ledDriven (ledDie ch) s || !ledRuns s || done then s
      else sinkNow ch ((reloadChannel ch k mv s).updLed ch fun x => { x with window := some k }))

/-! ### Derating (R334, R341) -/

/-- ln (n / d) in units of 2⁻⁴⁰, by the series of the inverse hyperbolic tangent; n and d not 0. -/
def lnFix (n d : Nat) : Int :=
  let x := n * 2 ^ 80 / d
  let k : Int := (Nat.log2 x : Int) - 80
  let m := x * 2 ^ 80 / 2 ^ Nat.log2 x              -- in [1, 2), by 2⁸⁰
  let z := (m - 2 ^ 80) * 2 ^ 80 / (m + 2 ^ 80)
  let term (acc : Nat × Nat) (j : Nat) : Nat × Nat :=
    (acc.1 + acc.2 / (2 * j + 1), acc.2 * z / 2 ^ 80 * z / 2 ^ 80)
  let sum := ((List.range 26).foldl term (0, z)).1
  let ln2 : Int := 762123384786                      -- 2⁴⁰ × ln 2
  k * ln2 + ((2 * sum + 2 ^ 39) / 2 ^ 40 : Nat)

/-- T in 0.1 °C, rounded to nearest (R334); none where the formula has no value. -/
def ntcTenths (ohms r26 b : Nat) : Option Int :=
  if ohms = 0 || r26 = 0 then none
  else
    let den : Int := 100 * b * 2 ^ 40 + 29815 * lnFix ohms r26
    if den ≤ 0 then none
    else some (roundDivI (2 * (298150 * b * 2 ^ 40) - 5463 * den) (2 * den.toNat))

/-- The point i of a derating curve: T_i in 0.1 °C and F_i. -/
def deratePoint (d : Fin 2) (i : Nat) (s : State) : Int × Nat :=
  (sbits (s.word (ledAddr d (0x10 + i))) 16 16, s.field (ledAddr d (0x10 + i)) 0 16)

/-- The factor at a temperature up to T_3 (R334). -/
def derateAt (d : Fin 2) (t : Int) (s : State) : Nat :=
  let p := deratePoint d
  let line (i : Nat) : Nat :=
    let (t0, f0) := p i s
    let (t1, f1) := p (i + 1) s
    ((f0 : Int) + awayDiv (((f1 : Int) - f0) * (t - t0)) (t1 - t0).toNat).toNat
  if t ≤ (p 0 s).1 then 0x8000
  else if t ≤ (p 1 s).1 then line 0
  else if t ≤ (p 2 s).1 then line 1
  else if t < (p 3 s).1 then line 2
  else (p 3 s).2

/-- LED_NTC_MEASURE: the input's temperature, its state, its group's factor, with what is raised (R334, R341). -/
def execLedNtcMeasure (input : Fin 8) (ohms : Nat) (s : State) : Outcome State Fault Refusal :=
  let d : Fin 2 := if input.val < 4 then 0 else 1
  let i : Fin 4 := Fin.ofNat 4 input.val
  let param := s.word (ledAddr d (8 + i.val))
  let r26 := bits param 0 16 * 10
  let st := if r26 * 50 < ohms then 1 else if ohms * 50 < r26 then 2 else 0
  let (t, s) : Int × State := match ntcTenths ohms r26 (bits param 16 16) with
    | some t => (satS 16 t, s)
    | none => (signed 16 s.freeVal, s.bump)
  let before := s.led.dies[d].factor[i]
  let shut := if s.led.dies[d].shut[i] then decide (st ≠ 0) || decide ((deratePoint d 3 s).1 - 50 < t)
    else decide (st = 0) && decide ((deratePoint d 3 s).1 < t)
  let f := if shut then 0 else if st ≠ 0 then 0x2000 else derateAt d t s
  .next (if s.blockOut (ledBlock d) || unitFailed .sensor input s then s
    else
      let data := (BitVec.ofInt 32 t).toNat
      let a := ledAddr d (0xC + i.val)
      let s := onlyIf (decide (st ≠ 0) && decide (s.field a 16 2 ≠ st)) (record 0x6003 input st) s
      let s := (s.setField a 16 2 st).setField a 0 16 (BitVec.ofInt 16 t).toNat
      let s := onlyIf (shut && !s.led.dies[d].shut[i]) (record 0x6005 input data) s
      let s := onlyIf (decide (f < 0x8000) && decide (0x8000 ≤ before)) (record 0x6004 input data) s
      s.updLedDie d fun x => { x with shut := x.shut.set i shut, factor := x.factor.set i f })

/-! ### Diagnosis (R336) -/

/-- A diagnostic interval: 250 ms of device time. -/
def diagNs : Nat := 250000000

/-- LED_DIAG_INTERVAL: a new interval begins at a multiple of 250 ms of device time. -/
def execLedDiagInterval (die : Die) (s : State) : Outcome State Fault Refusal :=
  let d := dieIx die
  let n := s.deviceTime.toNat / diagNs
  .next (if s.blockOut (ledBlock d) || decide (s.led.dies[d].interval = some n) then s
    else
      let s := forAll (fun c s => s.updLed c fun x => { x with lit := false, measured := false, stretch := false })
        (ledChans d) s
      s.updLedDie d fun x => { x with interval := some n })

/-- LED_DIAG_STRETCH: 200 ms into an interval without a measurement, the channel's next window is stretched. -/
def execLedDiagStretch (ch : Fin 64) (s : State) : Outcome State Fault Refusal :=
  let x := s.ledCh ch
  let due := decide (200000000 ≤ s.deviceTime.toNat % diagNs) && !x.measured &&
    ((decide (ledDiag ch s = 1) && x.lit) || decide (ledDiag ch s = 2))
  .next (if ledDriven (ledDie ch) s && due then s.updLed ch fun x => { x with stretch := true } else s)

/-! ### The rules of the LED words -/

/-- LED_CFG is fit: at least 4 counts in a segment, at most 64 segments, Tp, with t_m in matrix mode, at least 1.28 µs (R331,
Table 13.4). -/
def ledCfgFits (d : Fin 2) (s : State) : Bool :=
  let segs := s.field (ledAddr d 0) 16 3
  decide (segs ≤ 6) && decide (4 * 2 ^ segs ≤ 2 ^ ledDepth d s) && decide (2560 ≤ ledTp d s)

/-- The points of a derating curve are fit: temperatures ascend, factors do not increase and are at most 0x8000 (R334). -/
def derateFits (d : Fin 2) (s : State) : Bool :=
  let p (i : Nat) := deratePoint d i s
  decide ((p 0).2 ≤ 0x8000) && (List.range 3).all fun i => decide ((p i).1 < (p (i + 1)).1) && decide ((p (i + 1)).2 ≤ (p i).2)

/-- LED_GDARK_CLEAR: each named function is lifted where no member has a latched bit (R337). -/
def gdarkClear (d : Fin 2) (mask : Nat) (s : State) : State :=
  forAll (fun i s =>
    let f := i + 1
    if !mask.testBit i then s
    else if (ledChans d).any fun c => decide (ledFunc c s = f) && ledLatched c s then
      record 0x6008 (dieNo d) f s
    else s.setFlag (ledAddr d 5) i false) (List.range 16) s

/-- LED_MATRIX_DATA: two pixels of the hidden buffer are stored (R332, R345). -/
def matrixData (d : Fin 2) (i : Nat) (val : Word) (s : State) : State :=
  s.storeBytes ((ledBank d s).val * 0x20000 + (if s.flag (ledAddr d 0x14) 31 then 0 else 0x400) + 4 * i) (leBytes 4 val.toNat)

/-- The rule of a word of an LED block (R326–R345). -/
def ledRule (addr : Nat) (val : Word) (s : State) : Rule :=
  let d : Fin 2 := if addr < 0x3400 then 0 else 1
  let off := addr - ledAddr d 0
  if 0x100 ≤ off then
    if matrixOwned d s then .accept val (matrixData d (off - 0x100) val)
    else .refuse fun s => record 0x6009 (dieNo d) addr (bankRefused (ledReceiver d) ((ledBank d s).val * 0x20000) s)
  else if 0x40 ≤ off then
    let ch : Fin 64 := Fin.ofNat 64 (32 * d.val + (off - 0x40) / 4)
    if off % 4 = 0 then .accept val fun s => s.updLed ch fun x => { x with wrote := true, go := false }
    else if off % 4 = 1 then .accept val fun s => s.updLed ch fun x => { x with wroteCfg := true }
    else .plain val
  else match off with
    | 0x00 =>
      if !ledCfgFits d (s.setWord addr val) then .fault 0x600A (dieNo d) addr
      else .when (!bit val 24 || (s.feature 9 && matrixOwned d s)) 0x6009 (dieNo d) addr (.plain val)
    | 0x06 => .accept val (gdarkClear d (bits val 0 16))
    | 0x07 => .accept val (forAll (fun c s =>
        if bit val (c.val % 32) && !s.flag (ledChAddr c 1) 16 then s.updLed c fun x => { x with go := true } else s) (ledChans d))
    | 0x10 | 0x11 | 0x12 | 0x13 =>
      .when (derateFits d (s.setWord addr val)) 0x600A (dieNo d) addr (.plain val)
    | 0x14 => .when (ledCfgFits d (s.setWord addr val)) 0x600A (dieNo d) addr (.plain val)
    | 0x15 => .accept val (onlyIf (bit val 0 && decide (s.field (ledAddr d 0x14) 8 2 ≠ 1)) fun s =>
        s.updLedDie d fun x => { x with swap := true })
    | _ => .plain val

/-- An FSYNC edge that a panel engine accepts is a swap demand where SWAP_SRC selects it (R333). -/
def fsyncSwap (s : State) : State :=
  forAll (fun d s => onlyIf (decide (s.field (ledAddr d 0x14) 8 2 ≠ 0)) (fun s =>
    s.updLedDie d fun x => { x with swap := true }) s) [0, 1] s

/-- An LED block is reset: its words and its channels take their reset values, the sinks of its die are off. -/
def ledOut (d : Fin 2) (s : State) : State :=
  let s := forAll (fun c s => s.updLed c fun _ => {}) (ledChans d) s
  s.updLedDie d fun _ => {}

end Sys2Proof.Machine
end

