-- ==== Sys2Proof/Machine/Net.lean ====
section
/-! DEFINITION. Network ports, the switch and its gates, the servo of device time, and E1.31 (chapter 7): R171–R191.
Stepping device time, which judges pending tacks again, stands with the tacks (Machine/Tacks.lean); stream payload stands with
the panel engine (Machine/Panel.lean). -/
namespace Sys2Proof.Machine

open Host (Outcome)

/-- The switch changed. -/
def State.updNet (s : State) (f : Net → Net) : State := { s with net := f s.net }
/-- The servo changed. -/
def State.updTime (s : State) (f : TimeServo → TimeServo) : State := { s with time := f s.time }
/-- An egress port changed. -/
def State.updEgress (s : State) (p : Fin 3) (f : Egress → Egress) : State :=
  s.updNet fun n => { n with egress := modAt n.egress p f }

/-! ### Ports -/

/-- NET_PORT_CFG of a port. -/
def portCfg (p : Fin 2) (s : State) : Word := s.word (0x1C00 + p.val)
/-- MODE of a port (Table 7.1). -/
def portMode (p : Fin 2) (s : State) : Nat := bits (portCfg p s) 0 2
/-- A port's link is up. -/
def portLink (p : Fin 2) (s : State) : Bool := s.flag 0x1C02 p.val
/-- The link speed code: 0 none, 1 100 Mbit/s, 2 1 Gbit/s, 3 10 Gbit/s. -/
def portSpeed (p : Fin 2) (s : State) : Nat := s.field 0x1C02 (2 + 2 * p.val) 2
/-- The link and speed of a port. -/
def setLink (p : Fin 2) (speed : Nat) (s : State) : State :=
  (s.setFlag 0x1C02 p.val (decide (speed ≠ 0))).setField 0x1C02 (2 + 2 * p.val) 2 speed

/-- TIME_STATE. -/
def timeState (s : State) : Nat := s.field 0x2002 0 2
/-- TIME_STATE set. -/
def setTimeState (v : Nat) (s : State) : State := s.setField 0x2002 0 2 v
/-- TIME_RATE in ppb. -/
def timeRate (s : State) : Int := (s.word 0x2004).toInt

/-- Time-weighted sum of the corrections from a moment on, newest first, up to a later moment (Table 7.2). -/
def rateSum (from_ : Nat) : Nat → List (Nat × Int) → Int
  | _, [] => 0
  | until_, (t, r) :: rest =>
    if until_ ≤ from_ then 0 else r * (until_ - max t from_ : Nat) + rateSum from_ (min until_ t) rest

/-- The rate held in HOLDOVER: its average over the last 16 s, or since LOCKING was entered if that is shorter. -/
def heldRate (s : State) : Int :=
  let since := max s.time.lockingAt (s.clock - 16000000000)
  if s.clock ≤ since then timeRate s else roundDivI (rateSum since s.clock s.time.rates) (s.clock - since)

/-- HOLDOVER is entered from LOCKING or LOCKED; FREE and HOLDOVER are kept (Table 7.2, R188). -/
def enterHoldover (s : State) : State :=
  if timeState s = 1 || timeState s = 2 then
    let rate := heldRate s
    let s := (setTimeState 3 s).setWord 0x2004 (wordOf rate)
    record 0x3003 0xFFFF 0 (s.updTime fun x => { x with holdAt := s.clock, expired := false, good := 0 })
  else s

/-- A port loses its link: LINK_DOWN, and HOLDOVER when it was the slave port (R188, R190); its receive clock is no longer watched (R34). -/
def loseLink (p : Fin 2) (s : State) : State :=
  let slave := decide (s.time.slave = some p)
  let s := forgetClock (5 + 2 * p.val) (record 0x3001 p (b2n slave) (setLink p 0 s))
  onlyIf slave enterHoldover s

/-- LINK_UP: a configured port's link comes up; a link word of 10 Mbit/s is link down (R172, Table 7.1). -/
def execLinkUp (p : Fin 2) (speed : Fin 4) (s : State) : Outcome State Fault Refusal :=
  let fits := match portMode p s with
    | 1 => decide (speed = 3) | 2 => decide (speed = 2) | 3 => decide (speed = 2 ∨ speed = 1) | _ => false
  let clocked := !s.clockLost.getLsbD (4 + 2 * p.val) && !s.clockLost.getLsbD (5 + 2 * p.val)
  .next (if !s.blockOut 10 && fits && clocked then setLink p speed s else s)

/-- LINK_DOWN: a configured port loses its link. -/
def execLinkDown (p : Fin 2) (s : State) : Outcome State Fault Refusal :=
  .next (if portLink p s then loseLink p s else s)

/-- The detectors of both clocks of a port are disarmed (R34). -/
def disarmPort (p : Fin 2) (s : State) : State := forgetClock (4 + 2 * p.val) (forgetClock (5 + 2 * p.val) s)

/-- A write of NET_PORT_CFG: a change of MODE takes the link down (R172), and MODE 0 disarms the clock detectors of the port (R34). -/
def portModeRule (p : Fin 2) (val : Word) (s : State) : Rule :=
  .accept val fun t =>
    let t := onlyIf (decide (bits val 0 2 ≠ portMode p s) && portLink p s) (loseLink p) t
    onlyIf (decide (bits val 0 2 = 0)) (disarmPort p) t

/-! ### The switch (R173, R174, R182) -/

/-- The queue of a frame on its way in (R173). -/
def frameQueue (port : Fin 3) (f : EthFrame) (s : State) : Nat :=
  if port = 2 then
    match f.cls with
    | .ptp => 7 | .knp => s.field 0x1C05 0 3 | .discovery => 5 | _ => 0
  else match f.vlan with
    | some (_, pcp) => pcp.toNat
    | none => bits (s.word (0x1C00 + port.val)) 9 3

/-- The bytes a queue of a port holds. -/
def queueBytes (e : Egress) (q : Nat) : Nat :=
  (e.frames.foldl (fun n f => n + (if f.q = q then f.len else 0)) 0) +
    (match e.sending with | some (k, len, _) => if k = q then len else 0 | none => 0)

/-- A frame fits an external port: 192 KiB in all, of which 16 KiB are reserved for each queue (R182). -/
def egressFits (e : Egress) (q len : Nat) : Bool :=
  let shared := (List.range 8).foldl (fun n k => n + (queueBytes e k + (if k = q then len else 0) - 0x4000)) 0
  decide (shared ≤ 0x10000)

/-- The receive ring in bytes: 64 to 65,535 KiB (Table 7.6). -/
def ringBytes (s : State) : Nat := max 64 (s.field 0x1C06 0 16) * 1024

/-- A frame fits the internal port: queue 7 in its own 16 KiB, every other in the receive ring (R182). -/
def ringFits (e : Egress) (q len : Nat) (s : State) : Bool :=
  if q = 7 then decide (queueBytes e 7 + len ≤ 0x4000)
  else decide ((List.range 7).foldl (fun n k => n + queueBytes e k) len ≤ ringBytes s)

/-- A drop is counted for its port and reason, and reported at most once per second and port (R182, R190). -/
def countDrop (port reason : Nat) (s : State) : State :=
  recordLimited 0x3002 port reason (s.countUp (0x1C10 + 4 * port + reason) 0 32)

/-- A frame as it is queued, now. -/
def queued (port : Fin 3) (f : EthFrame) (q : Nat) (s : State) : QFrame :=
  ⟨q, f.len, s.clock, port, if f.cls = .ptp then some f.corr else none⟩

/-- The first DRAM address of the receive ring: the ring lies below the map top (log entry 84). -/
def ringBase (s : State) : Nat := Config.rxRing % (mapTop s - ringBytes s + 1)

/-- The runs of the ring that a frame takes from a place on: up to the ring's end, and from its start. -/
def ringRuns (place len : Nat) (s : State) : List (Nat × Nat) :=
  let n := min len (ringBytes s - place)
  (ringBase s + place, n) :: if n < len then [(ringBase s, len - n)] else []

/-- The place in the ring after a frame. -/
def ringAfter (place len : Nat) (s : State) : Nat := (place + len) % ringBytes s

/-- The ring lies in DRAM once the map has room for it. -/
def ringMapped (s : State) : Bool := decide (ringBytes s ≤ mapTop s)

/-- A frame is written to the receive ring through port P4 (R182). The command does not carry its bytes, which are free values. -/
def ringWrite (len : Nat) (s : State) : State :=
  let place := s.net.ringIn % ringBytes s
  let s := s.updNet fun n => { n with ringIn := ringAfter place len s }
  onlyIf (ringMapped s) (fun s =>
    (forAll (fun (r : Nat × Nat) s => enginePieces 4 (writePieces .engine r.1 (leBytes r.2 s.freeVal)) s.bump) (ringRuns place len s)) s) s

/-- A frame is read from the receive ring through port P4 (R182). -/
def ringRead (len : Nat) (s : State) : State :=
  let place := s.net.ringOut % ringBytes s
  let s := s.updNet fun n => { n with ringOut := ringAfter place len s }
  onlyIf (ringMapped s) (forAll (fun r s => enginePieces 4 (readPieces r.1 r.2) s) (ringRuns place len s)) s

/-- A frame goes through the receive ring: it is for the internal port, and not of queue 7, which has a reserve of its own (R182). -/
def byRing (p : Fin 3) (q : Nat) : Bool := decide (p = 2) && decide (q ≠ 7)

/-- A frame is queued for a port, or dropped and counted. -/
def sendTo (port : Fin 3) (f : EthFrame) (q : Nat) (p : Fin 3) (s : State) : State :=
  let e := s.net.egress[p]
  let ok := if p = 2 then ringFits e q f.len s else egressFits e q f.len
  if ok then onlyIf (byRing p q) (ringWrite f.len) (s.updEgress p fun e => { e with frames := e.frames ++ [queued port f q s] })
  else countDrop p (if p = 2 && decide (q ≠ 7) then 1 else 0) s

/-- A port carries frames: the internal port always, an external one with its link up. -/
def portLive (p : Fin 3) (s : State) : Bool := if p = 2 then true else s.flag 0x1C02 p.val

/-- A VLAN takes its place in the table, with its member mask, as its first frame comes; the 65th is refused (R174, R184). No word of Table
7.6 and no message sets a VLAN up: DESIGN CHOICE (log entry 144). -/
def noteVlan (f : EthFrame) (s : State) : State :=
  match f.vlan with
  | some (v, _) =>
    if (s.net.vlans.lookup v.toNat).isSome || decide (64 ≤ s.net.vlans.length) then s
    else s.updNet fun n => { n with vlans := n.vlans ++ [(v.toNat, BitVec.ofNat 3 (Config.vlanMembers v.toNat))] }
  | none => s

/-- The ports of a frame's VLAN; a frame of a VLAN that was refused goes nowhere (R174, R184). -/
def vlanMember (f : EthFrame) (p : Fin 3) (s : State) : Bool :=
  match f.vlan with
  | some (v, _) => match s.net.vlans.lookup v.toNat with | some m => m.getLsbD p.val | none => false
  | none => true

/-- A frame whose destination is unknown to the table is flooded; so is one to a group (R184). -/
def destPorts (port : Fin 3) (f : EthFrame) (s : State) : List (Fin 3) :=
  let known := s.net.macs.find? fun e => decide (e.mac = f.dst)
  (List.finRange 3).filter fun p =>
    decide (p ≠ port) && portLive p s && vlanMember f p s && (match known with | some e => decide (e.port = p) | none => true)

/-- The source address is learned, up to 1,024 (R174). -/
def learnMac (port : Fin 3) (f : EthFrame) (s : State) : State :=
  let rest := s.net.macs.filter fun e => decide (e.mac ≠ f.src)
  s.updNet fun n => { n with macs := if rest.length < 1024 then rest ++ [⟨f.src, port, s.clock⟩] else n.macs }

/-- MAC_AGE_OUT: an entry not renewed for 300 s goes (R174). -/
def execMacAgeOut (mac : BitVec 48) (s : State) : Outcome State Fault Refusal :=
  .next (s.updNet fun n => { n with macs := n.macs.filter fun e => decide (e.mac ≠ mac) || decide (s.clock < e.seen + 300000000000) })

/-! ### The gate (R175, R186, R189) -/

/-- The gate list written for a port: its entries of a duration other than 0, in ns. -/
def writtenList (p : Fin 2) (s : State) : List (Nat × Nat) :=
  ((List.range 16).map fun i => (s.field (0x1C40 + 16 * p.val + i) 24 8, s.field (0x1C40 + 16 * p.val + i) 0 24 * 8)).filter
    fun e => decide (e.2 ≠ 0)

/-- The cycle of a list, in ns. -/
def listCycle (l : List (Nat × Nat)) : Nat := l.foldl (fun n e => n + e.2) 0

/-- A list is fit: its cycle is 1 µs to 1 ms (R184). -/
def listFits (l : List (Nat × Nat)) : Bool := decide (1000 ≤ listCycle l) && decide (listCycle l ≤ 1000000)

/-- The rule of a gate list entry: a list out of its bounds is refused and the previous list stays (R184, R189). -/
def qbvRule (addr : Nat) (val : Word) (s : State) : Rule :=
  let p : Fin 2 := if addr < 0x1C50 then 0 else 1
  let l := writtenList p (s.setWord addr val)
  if listFits l then .accept val fun s => s.updNet fun n =>
    { n with qbv := modAt n.qbv p fun q => { q with next := some (l, s.deviceTime.toNat) } }
  else .refuse id

/-- QBV_CYCLE_START: a cycle starts at a multiple of the cycle; a list that waits since at least one old cycle takes effect
(R175, R189). -/
def execQbvCycleStart (p : Fin 2) (s : State) : Outcome State Fault Refusal :=
  let q := s.net.qbv[p]
  let now := s.deviceTime.toNat
  let cycle := listCycle (if q.active.isEmpty then (q.next.map (·.1)).getD [] else q.active)
  let start := if cycle = 0 then 0 else now / cycle * cycle
  .next (if cycle = 0 || decide (start ≤ q.start) then s
    else s.updNet fun n => { n with qbv := modAt n.qbv p fun q =>
      match q.next with
      | some (l, t) => if t + listCycle q.active ≤ start then { active := l, next := none, start := start }
        else { q with start := start }
      | none => { q with start := start } })

/-- The gate of a queue at a place of the cycle: the time it stays open from there; 0 while it is closed; none where it is
open for the whole cycle (R175). -/
def gateOpen (l : List (Nat × Nat)) (q at_ : Nat) : Option Nat :=
  if l.all fun e => e.1.testBit q then none
  else
    let rec go (l : List (Nat × Nat)) (at_ : Nat) (opened : Option Nat) : Nat :=
      match l with
      | [] => opened.getD 0
      | (g, d) :: rest =>
        match opened with
        | some t => if g.testBit q then go rest 0 (some (t + d)) else t
        | none =>
          if at_ < d then (if g.testBit q then go rest 0 (some (d - at_)) else 0)
          else go rest (at_ - d) none
    some (go (l ++ l) at_ none)

/-- The tenths of a bit that a port sends in 8 ns. -/
def portBits (p : Fin 2) (s : State) : Nat := match portSpeed p s with | 1 => 8 | 2 => 80 | 3 => 800 | _ => 0

/-- The place of an external port among the three. -/
def egressIx (p : Fin 2) : Fin 3 := ⟨p.val, by omega⟩

/-- The gate of a queue lets a frame of a length start: its last bit leaves before the gate closes (R175, R186). -/
def gateLets (p : Fin 2) (q len : Nat) (s : State) : Bool :=
  let l := s.net.qbv[p].active
  if !s.flag 0x1C07 p.val || l.isEmpty then true
  else match gateOpen l q (s.deviceTime.toNat % listCycle l) with
    | none => true
    | some t => decide (len * 80 * 8 ≤ t * portBits p s)

/-- The frame a port starts next: of the highest queue with one that its gate lets start (R173, R175). -/
def nextFrame (p : Fin 2) (s : State) : Option QFrame :=
  let e := s.net.egress[egressIx p]
  ((List.range 8).reverse.map fun k => e.frames.find? fun f => decide (f.q = k)).findSome? fun f =>
    match f with
    | some f => if gateLets p f.q f.len s then some f else none
    | none => none

/-- The delay mechanism of a port is peer delay: always under 802.1AS, else as DELAY_MECH selects; where both ports of a boundary or
transparent clock differ, port NA's value governs (R176). -/
def peerDelay (p : Fin 2) (s : State) : Bool :=
  let role := bits (portCfg p s) 5 3
  if role = 4 then true else bit (portCfg (if role = 2 || role = 3 then 0 else p) s) 2

/-- What a transparent clock adds to the correction of a PTP event message: the residence; peer-to-peer, the measured delay of the link it
came by as well (R174, R176; PRESUMED: log entry 186). -/
def transit (p : Fin 2) (f : QFrame) (s : State) : Int :=
  let link : Nat := if peerDelay p s && decide (f.port ≠ 2) then Config.linkDelay f.port.val s.clock else 0
  ((s.clock - f.at_ + link : Nat) : Int)

/-- A port begins to send a frame; a transparent clock corrects a PTP event message (R174, R176). -/
def startFrame (p : Fin 2) (f : QFrame) (s : State) : State :=
  let s := s.updEgress (egressIx p) fun e => { frames := e.frames.erase f, sending := some (f.q, f.len, f.len * 80) }
  match f.corr with
  | some c => onlyIf (decide (bits (portCfg p s) 5 3 = 3)) (fun s => s.updNet fun n => { n with ptpSent := some (p, c + transit p f s) }) s
  | none => s

/-- A frame between NA and NB is forwarded cut-through: the egress port is idle and no faster than the ingress port (R174), and its gate lets
the frame start. -/
def cutsThrough (port : Fin 3) (f : EthFrame) (q : Nat) (p : Fin 3) (s : State) : Bool :=
  match port, p with
  | 0, 1 | 1, 0 =>
    let e := s.net.egress[p]
    let ext (i : Fin 3) : Fin 2 := Fin.ofNat 2 i.val
    e.frames.isEmpty && e.sending.isNone && decide (portSpeed (ext p) s ≤ portSpeed (ext port) s) && gateLets (ext p) q f.len s
  | _, _ => false

/-- A frame leaves for a port: cut-through, or stored in the port's queue. -/
def forwardTo (port : Fin 3) (f : EthFrame) (q : Nat) (p : Fin 3) (s : State) : State :=
  if cutsThrough port f q p s then startFrame (Fin.ofNat 2 p.val) (queued port f q s) s else sendTo port f q p s

/-- ETH_FRAME_RX: a bad FCS is counted, and such a frame goes on only where it is already on its way cut-through; else the source is
learned, and the frame leaves for its ports. The payload of a joined stream bypasses the receive ring (R173, R174, R179, R182). -/
def execEthFrameRx (port : Fin 3) (f : EthFrame) (s : State) : Outcome State Fault Refusal :=
  .next (if s.blockOut 10 || !portLive port s then s
    else
      let s := noteVlan f s
      let q := frameQueue port f s
      let out := (destPorts port f s).filter fun p => !(decide (p = 2) && decide (f.cls = .stream))
      if !f.fcsOk then
        forAll (forwardTo port f q) (out.filter fun p => cutsThrough port f q p s) (s.countUp (0x1C10 + 4 * port.val + 2) 0 32)
      else forAll (forwardTo port f q) out (learnMac port f s))

/-- An external port sends for 8 ns. -/
def portTick (p : Fin 2) (s : State) : State :=
  let i := egressIx p
  match s.net.egress[i].sending with
  | some (q, len, left) =>
    if !portLink p s then s.updEgress i fun e => { e with sending := none }
    else s.updEgress i fun e => { e with sending := if left ≤ portBits p s then none else some (q, len, left - portBits p s) }
  | none =>
    if !portLink p s then s
    else match nextFrame p s with
      | some f => startFrame p f s
      | none => s

/-- The frame that the internal port delivers next: of queue 7, else the oldest in the ring, which is a ring in order (R182). -/
def nextIn (s : State) : Option QFrame :=
  let l := s.net.egress[(2 : Fin 3)].frames
  match l.find? fun f => decide (f.q = 7) with | some f => some f | none => l.head?

/-- The internal port delivers a frame in 8 ns; one of the ring is read back through port P4, once nothing waits behind that port (R182). -/
def ringTick (s : State) : State :=
  match nextIn s with
  | some f =>
    let ring := byRing 2 f.q
    if ring && !s.dram.ports[(4 : Fin 12)].isEmpty then s
    else onlyIf ring (ringRead f.len) (s.updEgress 2 fun e => { e with frames := e.frames.erase f })
  | none => s

/-! ### Device time -/

/-- The device takes its time from the ring: a follower whose TIME_SRC is 1 (R201). -/
def timeByRing (s : State) : Bool := s.flag 0x2404 0 && decide (s.field 0x2400 0 2 = 2)

/-- PTP_SYNC_TIMEOUT: no Sync for 3 intervals (Table 7.2). A follower that takes its time from the ring awaits no Sync (R201, R203). -/
def execPtpSyncTimeout (s : State) : Outcome State Fault Refusal :=
  .next (if coresPowered s && !timeByRing s && decide (s.time.syncAt + 3 * s.time.interval ≤ s.clock) then enterHoldover s else s)

/-- PTP_HOLDOVER_EXPIRED: HOLDOVER has lasted TIME_HOLDOVER_LIMIT seconds (R178). -/
def execPtpHoldoverExpired (s : State) : Outcome State Fault Refusal :=
  .next (if decide (timeState s = 3) && !s.time.expired && decide (s.time.holdAt + s.field 0x2006 0 16 * 1000000000 ≤ s.clock) then
      record 0x3004 0xFFFF 0 (s.updTime fun x => { x with expired := true })
    else s)

/-- The bandwidth of the servo: 2 Hz in LOCKING, else TIME_SERVO.BW, 3 as 2 (R177, Table 7.8). -/
def servoBw (s : State) : Nat := if timeState s = 1 then 2 else min 2 (s.field 0x2005 0 2)

/-- The proportional gain of the servo at a bandwidth, in 10⁻⁹ ppb for each ns of offset: 2 ζ ω, where ζ is 0.7 and ω the natural frequency
of a loop whose 3 dB bandwidth is 0.125, 0.5 or 2 Hz (R177, Table 7.8; what bandwidth means is the model's choice: log entry 145). -/
def servoP (bw : Nat) : Int := match bw with | 0 => 536644000 | 1 => 2146575000 | _ => 8586300000

/-- The integral gain of the servo at a bandwidth: ω², in 10⁻⁹ ppb for each ns of offset and second. -/
def servoI (bw : Nat) : Int := match bw with | 0 => 146932000 | 1 => 2350910000 | _ => 37614560000

/-- The servo on a measured offset in LOCKING or LOCKED: a proportional-integral loop whose output is a rate within ±500 ppm; the integral
keeps within the same bound (DESIGN CHOICE: log entry 44). -/
def servo (offset : Int) (s : State) : State :=
  let bw := servoBw s
  let integ := clampI (-500000000000000) 500000000000000 (s.time.integ + servoI bw * offset * s.time.interval / 1000000000)
  let rate := clampI (-500000) 500000 ((integ + servoP bw * offset) / 1000000000)
  (s.setWord 0x2004 (wordOf rate)).updTime fun x => { x with integ := integ, rates := (s.clock, rate) :: x.rates }

/-- A measured offset counts towards lock: 16 Sync messages in a row within 100 ns lock (Table 7.2). -/
def countGood (offset : Int) (s : State) : State :=
  let good := if offset.natAbs ≤ 100 then s.time.good + 1 else 0
  let s := s.updTime fun x => { x with good := good }
  if decide (timeState s = 1) && decide (16 ≤ good) then setTimeState 2 s else s

/-- LOCKING is entered, from the present rate. -/
def enterLocking (s : State) : State :=
  (setTimeState 1 s).updTime fun x => { x with
    lockingAt := s.clock, rates := [(s.clock, timeRate s)], good := 0, integ := timeRate s * 1000000000 }

/-- A measured offset reaches the servo (R177): of a step of device time that has removed part of it (R178), what is left. -/
def takeOffset (offset stepped : Int) (s : State) : State :=
  let s := s.setWord 0x2003 (wordOf (satS 32 offset))
  let s := if timeState s = 0 || timeState s = 3 then enterLocking s else s
  countGood offset (servo (offset - stepped) s)

/-- REARM returns the state to FREE in Hold, Quiet or Maintenance and has no effect in any other mode (R178). -/
def rearm (s : State) : State :=
  match s.modes.mode with
  | .hold | .quiet | .maintenance => (setTimeState 0 s).setWord 0x2004 0
  | _ => s

/-- The rule of a time word (R192). -/
def timeRule (addr : Nat) (val : Word) (_ : State) : Rule :=
  if addr = 0x2007 then .accept val (onlyIf (bit val 0) rearm) else .plain val

/-- Device time advances with 8 ns of elapsed time at the corrected rate, unless one of its clocks is lost (R171, R177,
Table 2.10). -/
def advanceTime (s : State) : State :=
  if s.clockLost.getLsbD 0 || s.clockLost.getLsbD 1 then s
  else
    let owed := s.time.frac + 8 * timeRate s
    let whole := Int.fdiv owed 1000000000
    { s with
      deviceTime := s.deviceTime + BitVec.ofInt 64 (8 + whole)
      time := { s.time with frac := owed - whole * 1000000000 } }

/-! ### Streams (R179, R184) -/

/-- A stream is enabled: the device joins its group by IGMPv3 or MLDv2, source-specific when a source is set; a third stream or an
interlaced format is refused (R179, R184). -/
def joinRule (stream : Nat) (progressive : Bool) (val : Word) : Rule :=
  if stream < 2 && (progressive || !bit val 0) then
    let st : Fin 2 := Fin.ofNat 2 stream
    .accept val fun s => s.updNet fun n => { n with
      joined := modAt n.joined st fun _ => bit val 0
      report := if bit val 0 then some (streamGroup st s, streamSource st s) else n.report }
  else .fault 0x3006 (min stream 2) 0

/-! ### E1.31 (R180, R181, R187) -/

/-- An entry of the map (Table 7.7). -/
structure MapEntry where
  valid : Bool
  wide  : Bool
  fall  : Bool
  univ  : Nat
  first : Nat
  count : Nat
  dest  : Nat
  deriving DecidableEq, Repr

/-- Map entry e. -/
def mapEntry (e : Nat) (s : State) : MapEntry :=
  let a := s.word (0x1D00 + 2 * e)
  let b := s.word (0x1D01 + 2 * e)
  ⟨bit a 31, bit a 30, bit a 29, bits a 0 16, bits b 22 10, bits b 12 10, bits b 0 8⟩

/-- The destinations of an entry lie among the LED channels, or among the general loop slots. -/
def mapDestFits (m : MapEntry) : Bool :=
  decide (m.dest + m.count ≤ 64) || (decide (0x90 ≤ m.dest) && decide (m.dest + m.count ≤ 0x98))

/-- Two entries share a destination. -/
def mapOverlap (a b : MapEntry) : Bool := decide (a.dest < b.dest + b.count) && decide (b.dest < a.dest + a.count)

/-- A valid entry is fit: its universe, its slots up to 512, its destinations, and none of another entry's (R181). -/
def mapFits (e : Nat) (s : State) : Bool :=
  let m := mapEntry e s
  decide (1 ≤ m.univ) && decide (m.univ ≤ 63999) && decide (1 ≤ m.first) && decide (1 ≤ m.count) &&
    decide (m.first + m.count * (if m.wide then 2 else 1) ≤ 513) && mapDestFits m &&
    (List.range 128).all fun k => decide (k = e) || !(mapEntry k s).valid || !mapOverlap m (mapEntry k s)

/-- The universes the map receives: the first 64 it names (R180, R184). -/
def mapUniverses (s : State) : List Nat :=
  (((List.range 128).filter fun e => (mapEntry e s).valid).map fun e => (mapEntry e s).univ).eraseDups.take 64

/-- A value reaches a destination: an LED level, or the set-point of a general loop slot (R181). -/
def setDest (dest v : Nat) (s : State) : State :=
  if h : dest < 64 then s.updLed ⟨dest, h⟩ fun x => { x with net := v }
  else if 0x90 ≤ dest && dest < 0x98 then
    s.updSlot (Fin.ofNat 24 (16 + (dest - 0x90))) fun x => { x with net := ((v : Int) - 32768) * 65536 }
  else s

/-- The value i of an entry in the slots of its universe; none where the data does not reach so far (R181). -/
def slotValue (m : MapEntry) (data : Bytes) (i : Nat) : Option Nat :=
  if m.wide then
    match data[m.first - 1 + 2 * i]?, data[m.first + 2 * i]? with
    | some a, some b => some (a.toNat * 256 + b.toNat)
    | _, _ => none
  else (data[m.first - 1 + i]?).map fun v => v.toNat * 257

/-- An entry applied with the value each of its destinations takes. -/
def applyEntry (m : MapEntry) (f : Nat → Option Nat) (s : State) : State :=
  forAll (fun i s => match f i with | some v => setDest (m.dest + i) v s | none => s) (List.range m.count) s

/-- The data of a universe is applied in one slot of device time. -/
def applyUniverse (univ : Nat) (data : Bytes) (s : State) : State :=
  forAll (fun e s =>
    let m := mapEntry e s
    if m.valid && decide (m.univ = univ) then applyEntry m (slotValue m data) s else s) (List.range 128) s

/-- The last source of a universe is lost: its entries hold, or apply their FALLBACK (R181). -/
def loseUniverse (univ : Nat) (s : State) : State :=
  forAll (fun e s =>
    let m := mapEntry e s
    if m.valid && m.fall && decide (m.univ = univ) then applyEntry m (fun _ => some (s.field (0x1E00 + e) 0 16)) s else s)
    (List.range 128) (record 0x3007 univ 0 s)

/-- A universe changed, or added. -/
def State.updUniverse (s : State) (u : Nat) (f : Universe → Universe) : State :=
  let us := s.net.universes
  let us := if us.any fun x => decide (x.univ = u) then us else us ++ [{ univ := u }]
  s.updNet fun n => { n with universes := us.map fun x => if x.univ = u then f x else x }

/-- The source that holds a universe: of the highest priority, and among equals the one heard first (R180). -/
def winner (l : List E131Source) : Option Nat :=
  let better (a b : E131Source) : Bool :=
    decide (b.priority < a.priority) || (decide (a.priority = b.priority) && decide (a.order < b.order))
  (l.foldl (fun w x => match w with | none => some x | some y => if better x y then some x else some y)
    (none : Option E131Source)).map (·.source)

/-- E131_DATA: data of the source that holds a universe is applied, or held for its synchronization address (R180). -/
def execE131Data (p : E131Packet) (s : State) : Outcome State Fault Refusal :=
  let u := p.univ.toNat
  .next (if s.blockOut 10 || !(mapUniverses s).contains u then s
    else
      let old := ((s.net.universes.find? fun x => decide (x.univ = u)).map (·.sources)).getD []
      let order := match old.find? fun x => decide (x.source = p.source) with | some x => x.order | none => s.net.heard
      let mine : E131Source := ⟨p.source, p.priority.toNat, order, s.clock⟩
      let srcs := (old.filter fun x => decide (x.source ≠ p.source)) ++ [mine]
      let s := (s.updUniverse u fun x => { x with sources := srcs }).updNet fun n => { n with heard := n.heard + 1 }
      if winner srcs ≠ some p.source then s
      else if p.sync = 0 then applyUniverse u p.slots (s.updUniverse u fun x => { x with held := none })
      else match s.net.syncs.find? fun x => decide (x.1 = p.sync.toNat) with
        | some (_, _, true) => applyUniverse u p.slots (s.updUniverse u fun x => { x with held := none })
        | some _ => s.updUniverse u fun x => { x with held := some (p.sync.toNat, p.slots) }
        | none =>
          (s.updUniverse u fun x => { x with held := some (p.sync.toNat, p.slots) }).updNet fun n =>
            { n with syncs := n.syncs ++ [(p.sync.toNat, s.clock, false)] })

/-- E131_SYNC: everything held for the address is applied in one slot (R180). -/
def execE131Sync (addr : BitVec 16) (s : State) : Outcome State Fault Refusal :=
  let a := addr.toNat
  .next (if s.blockOut 10 then s
    else
      let due := s.net.universes.filterMap fun u => match u.held with
        | some (k, data) => if k = a then some (u.univ, data) else none
        | none => none
      let s := forAll (fun (x : Nat × Bytes) s => applyUniverse x.1 x.2 (s.updUniverse x.1 fun u => { u with held := none })) due s
      s.updNet fun n => { n with syncs := (a, s.clock, false) :: n.syncs.filter fun x => decide (x.1 ≠ a) })

/-- E131_SYNC_TIMEOUT: an address without a sync packet for 2.5 s no longer holds data (R180). -/
def execE131SyncTimeout (s : State) : Outcome State Fault Refusal :=
  .next (s.updNet fun n => { n with syncs := n.syncs.map fun x =>
    if x.2.1 + 2500000000 ≤ s.clock then (x.1, x.2.1, true) else x })

/-- E131_SOURCE_LOST: a source without data for 2.5 s is lost; with the last one its universe (R180, R181). -/
def execE131SourceLost (univ : BitVec 16) (source : Nat) (s : State) : Outcome State Fault Refusal :=
  let u := univ.toNat
  let old := ((s.net.universes.find? fun x => decide (x.univ = u)).map (·.sources)).getD []
  let rest := old.filter fun x => decide (x.source ≠ source) || decide (s.clock < x.seen + 2500000000)
  .next (if s.blockOut 10 || decide (rest.length = old.length) then s
    else
      let s := s.updUniverse u fun x => { x with sources := rest }
      onlyIf rest.isEmpty (loseUniverse u) s)

/-- E131_DISCOVERY: every 10 s the universes of the map are announced (R180). -/
def execE131Discovery (s : State) : Outcome State Fault Refusal :=
  let due := match s.net.discovery with | some (t, _) => decide (t + 10000000000 ≤ s.clock) | none => true
  .next (if s.blockOut 10 || !due then s else s.updNet fun n => { n with discovery := some (s.clock, mapUniverses s) })

/-! ### The rules of the network words (R191) -/

/-- The rule of a word of the network block. -/
def netRule (addr : Nat) (val : Word) (s : State) : Rule :=
  if addr < 0x1C02 then portModeRule (Fin.ofNat 2 (addr - 0x1C00)) val s
  else if addr = 0x1C25 || addr = 0x1C2B then joinRule ((addr - 0x1C20) / 6) true val
  else if 0x1C40 ≤ addr && addr < 0x1C60 then qbvRule addr val s
  else if 0x1D00 ≤ addr && addr < 0x1E00 then
    let e := (addr - 0x1D00) / 2
    let t := s.setWord addr val
    .when (!(mapEntry e t).valid || mapFits e t) 0x3008 e 0 (.plain val)
  else .plain val

/-- The switch is reset: its links go down (R188, R190), and its tables, its queues and its lists are empty (R37, Table 2.6). -/
def netOut (s : State) : State :=
  let s := forAll (fun p s => onlyIf (portLink p s) (loseLink p) s) (List.finRange 2) s
  { s with net := {} }

end Sys2Proof.Machine
end

