-- ==== Sys2Proof/Machine/Panel.lean ====
section
/-! DEFINITION. The pixel path of the panel engine (chapter 11): receiving and storing frames, completion and sleep, and
the correction chain from the store to the output pixel. -/
namespace Sys2Proof.Machine

open Host (Outcome)

/-! ### Words in effect -/

/-- A panel word in effect since the last frame start (R283, R285, R309). -/
def State.shownWord (s : State) (a : Nat) : Word := sget resetWord s.panel.applied a
/-- A field of a panel word in effect. -/
def State.shownField (s : State) (a lo n : Nat) : Nat := bits (s.shownWord a) lo n
/-- The words of a range come into effect. -/
def applyWords (lo hi : Nat) (s : State) : State :=
  s.updPanel fun p => { p with applied := (List.range (hi - lo)).foldl (fun l i => sput resetWord l (lo + i) (s.word (lo + i))) p.applied }

/-- WIDTH and HEIGHT of the panel. -/
def panelW (s : State) : Nat := s.field 0x2800 0 13
/-- HEIGHT of the panel. -/
def panelH (s : State) : Nat := s.field 0x2800 16 12
/-- The output depth D, 8 to 16. -/
def panelDepth (s : State) : Nat := clampN 8 16 (s.shownField 0x280C 0 5)
/-- Class L is selected. -/
def classL (s : State) : Bool := s.flag 0x2840 0
/-- A slot's source. -/
def slotSrc (k : Fin 2) (s : State) : Nat := s.field (slotWord k 0) 0 2

/-! ### Receiving a frame (R268, R270, R271) -/

/-- SLOT_STATUS.STATE set. -/
def setSlotState (k : Fin 2) (v : Nat) (s : State) : State := s.setField (slotWord k 6) 0 2 v

/-- The buffers in the ring of a slot: their numbers. -/
def ringBufs (s : State) : List (Fin 4) := (List.finRange 4).filter fun b => decide (b.val < storeFrames s)

/-- A buffer is complete. -/
def isComplete (b : PanelBuf) : Bool := match b.state with | .complete _ => true | _ => false

/-- The buffer is complete and eligible by now (R270). -/
def isEligible (b : PanelBuf) (s : State) : Bool := match b.state with | .complete t => decide (t ≤ s.deviceTime.toNat) | _ => false

/-- A slot's buffers that satisfy p, in its ring. -/
def ringWhere (k : Fin 2) (p : PanelBuf → Bool) (s : State) : List (Fin 4) := (ringBufs s).filter fun b => p (s.panel.slots[k]).bufs[b]

/-- The newest of some buffers by completion. -/
def newestOf (k : Fin 2) (l : List (Fin 4)) (s : State) : Option (Fin 4) :=
  let order (b : Fin 4) : Nat := ((s.panel.slots[k]).bufs[b]).order
  l.foldl (fun m b => match m with
    | some n => if order n < order b then some b else m
    | none => some b) none

/-- The age of a buffer for the writer: a free one is the oldest, then by completion; one whose writes are unanswered is the
newest. -/
def bufferAge (x : PanelSlot) (b : Fin 4) : Nat :=
  match (x.bufs[b]).state with
  | .free => 0
  | .complete _ => (x.bufs[b]).order
  | _ => x.orders + 1

/-- The buffer that the writer takes, and whether a frame is skipped for it (R271): the oldest that is neither shown nor newest-eligible,
else the oldest eligible one not shown. -/
def pickBuffer (k : Fin 2) (s : State) : Option (Fin 4 × Bool) :=
  let x := s.panel.slots[k]
  let eligible := ringWhere k (fun b => isEligible b s) s
  let newest := newestOf k eligible s
  let oldest (l : List (Fin 4)) : Option (Fin 4) := l.foldl (fun m b => match m with
    | some n => if bufferAge x b < bufferAge x n then some b else m
    | none => some b) none
  match oldest ((ringBufs s).filter fun b => decide (x.shown ≠ some b) && decide (newest ≠ some b)) with
  | some b => some (b, false)
  | none => (oldest (eligible.filter fun b => decide (x.shown ≠ some b))).map fun b => (b, true)

/-- The frame that a slot receives is incomplete (R270). -/
def frameIncomplete (k : Fin 2) (s : State) : State :=
  let s := match (s.panel.slots[k]).cur with
    | some b => frameLost k b s
    | none => s
  s.updPanelSlot k fun x => { x with cur := none, blocks := [], broken := false }

/-- A frame begins: an unfinished one is incomplete; a buffer is taken, and a frame whose writes are still unanswered there is
incomplete. -/
def beginFrame (k : Fin 2) (capture : Nat) (is444 present : Bool) (s : State) : State :=
  let s := if (s.panel.slots[k]).cur.isSome then frameIncomplete k s else s
  match pickBuffer k s with
  | none => s
  | some (b, skipped) =>
    let s := if skipped then record 0x5002 k 0 (s.countUp (slotWord k 8) 0 32) else s
    let s := if ((s.panel.slots[k]).bufs[b]).state = .written then frameLost k b s else s
    s.updPanelSlot k fun x => { x with
      bufs := modAt x.bufs b fun _ =>
        { state := .writing, order := 0, capture := capture, is444 := is444, present := present, frame := x.frames + 1 }
      frames := x.frames + 1, cur := some b, blocks := [], broken := false }

/-- A component value as the engine stores it: 10 bits, an 8-bit value × 4 (R268). -/
def widen (is10 : Bool) (v : Nat) : Nat := if is10 then v % 1024 else v % 256 * 4

/-- Runs of source pixels of the frame that a slot receives: line, first column, component values. -/
def takeBlocks (k : Fin 2) (bs : List (Nat × Nat × List Nat)) (s : State) : State :=
  s.updPanelSlot k fun x => { x with blocks := x.blocks ++ bs.map fun b => ((b.1, b.2.1), b.2.2) }

/-- Components per pixel: Y and C, or three. -/
def comps (is444 : Bool) : Nat := if is444 then 3 else 2

/-- The components of a source pixel among the runs received; none where none of them holds it. -/
def sourcePixel (is444 : Bool) (bs : List ((Nat × Nat) × List Nat)) (line col : Nat) : Option (List Nat) :=
  let n := comps is444
  (bs.find? fun e => decide (e.1.1 = line) && decide (e.1.2 ≤ col) && decide (col < e.1.2 + e.2.length / n)).map fun e =>
    (e.2.drop ((col - e.1.2) * n)).take n

/-- The pixels of a store block of a cropped frame: the last block of a line repeats its last pixel (R269). -/
def cropBlock (k : Fin 2) (is444 : Bool) (y j : Nat) (s : State) : Option (List (List Nat)) :=
  let w := s.field (slotWord k 2) 0 13
  let cx := s.field (slotWord k 1) 0 13
  let cy := s.field (slotWord k 1) 16 12
  let bs := (s.panel.slots[k]).blocks
  (List.range 16).foldr (fun i rest => match rest, sourcePixel is444 bs (cy + y) (cx + min (16 * j + i) (w - 1)) with
    | some r, some p => some (p :: r)
    | _, _ => none) (some [])

/-- The planes of a block's pixels (R273). -/
def planesOf (is444 : Bool) (ps : List (List Nat)) : List (List Int) :=
  let comp (c : Nat) (l : List (List Nat)) : List Int := l.map fun p => (p.getD c 0 : Int)
  if is444 then [comp 0 ps, comp 1 ps, comp 2 ps]
  else
    let even := ps.zipIdx.filter fun p => decide (p.2 % 2 = 0)
    let odd := ps.zipIdx.filter fun p => decide (p.2 % 2 = 1)
    [comp 0 ps, comp 1 (even.map (·.1)), comp 1 (odd.map (·.1))]

/-- A block's pixels from its planes. -/
def pixelsOf (is444 : Bool) (pl : List (List Int)) : List (List Nat) :=
  let at_ (p i : Nat) : Nat := ((pl.getD p []).getD i 0).toNat
  (List.range 16).map fun i =>
    if is444 then [at_ 0 i, at_ 1 i, at_ 2 i] else [at_ 0 i, if i % 2 = 0 then at_ 1 (i / 2) else at_ 2 (i / 2)]

/-- A block coded for the store (Table 11.3). -/
def codeStore (mode : Nat) (is444 : Bool) (ps : List (List Nat)) : Bytes :=
  match mode with
  | 0 => (ps.flatten.map fun v => leBytes 2 v).flatten
  | 1 => losslessBlock 4 10 (planesOf is444 ps)
  | _ => ps.flatten.map fun v => BitVec.ofNat 8 (v / 4)

/-- Values in groups of n. -/
def groupsOf (n : Nat) : Nat → List Nat → List (List Nat)
  | 0, _ => []
  | fuel + 1, l => if l.isEmpty then [] else l.take n :: groupsOf n fuel (l.drop n)

/-- A stored block read back. -/
def readStore (mode : Nat) (is444 : Bool) (bs : Bytes) : List (List Nat) :=
  match mode with
  | 0 => groupsOf (comps is444) 16 ((List.range (16 * comps is444)).map fun i => leAt bs (2 * i) 2 % 1024)
  | 1 => pixelsOf is444 (readLossless 4 10 (if is444 then [16, 16, 16] else [16, 8, 8]) bs)
  | _ => groupsOf (comps is444) 16 (bs.map fun b => 4 * b.toNat + 2)

/-- Where a slot's buffer starts, its block slot size and its mode; the playback ring has the store's layout (R269,
Table 11.7). -/
def bufferAt (k : Fin 2) (b : Nat) (s : State) : Nat × Nat × Nat :=
  if slotSrc k s = 3 then
    let mode := if s.flag 0x2832 2 && s.feature 5 then 2 else 0
    (s.addr64 0x2830 + b * bufferSize k mode s, blockSize mode (slot444 k s), mode)
  else
    let mode := storeMode s
    (regionBase k s + b * bufferSize k mode s, blockSize mode (slot444 k s), mode)

/-- Where the metadata byte of a block lies (R269). -/
def metaAt (k : Fin 2) (b i : Nat) (s : State) : Nat :=
  regionBase k s + storeFrames s * bufferSize k 1 s + b * slotBlocks k s + i

/-- The state in which the slot words read as they are in effect: as at the last frame start, once there was one (R285). -/
def inEffect (s : State) : State :=
  if s.panel.selected.isNone then s
  else { s with words := (List.range 0x20).foldl (fun ws i => sput resetWord ws (0x2810 + i) (s.shownWord (0x2810 + i))) s.words }

/-- The writes that store the frame a slot has received in a buffer (R269). -/
def framePieces (k : Fin 2) (b : Fin 4) (s : State) : List PortReq :=
  let per := (s.field (slotWord k 2) 0 13 + 15) / 16
  let buf := (s.panel.slots[k]).bufs[b]
  let (base, size, mode) := bufferAt k b s
  let from_ := DramFrom.buffer k b buf.frame
  ((List.range (s.field (slotWord k 2) 16 12 * per)).map fun i => match cropBlock k buf.is444 (i / per) (i % per) s with
    | some ps =>
      let bs := codeStore mode buf.is444 ps
      writePieces from_ (base + i * size) bs ++
        (if mode = 1 then writePieces from_ (metaAt k b i s) [BitVec.ofNat 8 ((bs.length + 15) / 16)] else [])
    | none => []).flatten

/-- The whole frame of a slot is written to its buffer through P1: each write waits for its answer (R270). -/
def storeFrame (k : Fin 2) (b : Fin 4) (s : State) : State :=
  let ps := framePieces k b (inEffect s)
  forAll (pushPort 1) ps (s.updPanelSlot k fun x => { x with
    bufs := modAt x.bufs b fun y => { y with state := .written, asked := ps.length }, cur := none, blocks := [] })

/-- Every block that the crop in effect needs has been received. -/
def frameWhole (k : Fin 2) (is444 : Bool) (s : State) : Bool :=
  let s := inEffect s
  let per := (s.field (slotWord k 2) 0 13 + 15) / 16
  (List.range (s.field (slotWord k 2) 16 12 * per)).all fun i => (cropBlock k is444 (i / per) (i % per) s).isSome

/-- The last packet or slice of a frame: the frame is written, or incomplete. -/
def endFrame (k : Fin 2) (s : State) : State :=
  let x := s.panel.slots[k]
  match x.cur with
  | none => s
  | some b =>
    if x.broken || !frameWhole k (x.bufs[b]).is444 s then frameIncomplete k s else storeFrame k b s

/-- A frame buffer becomes complete: eligible from a device time on; it ends a sleep (R270, R282). -/
def completeBuffer (k : Fin 2) (b : Fin 4) (eligible : Nat) (s : State) : State :=
  let s := s.updPanelSlot k fun x => { x with
    bufs := modAt x.bufs b fun y => { y with state := .complete eligible, order := x.orders + 1 }
    orders := x.orders + 1, doneAt := s.clock, asleep := false }
  setSlotState k 1 s

/-- PANEL_BUFFER_COMPLETE: every write of the buffer has been answered OK; the frame is eligible at its capture time plus SLOT_DELAY, a
Holros frame at its PRESENT_TIME (R270). -/
def execPanelBufferComplete (k : Fin 2) (b : Fin 4) (s : State) : Outcome State Fault Refusal :=
  let x := (s.panel.slots[k]).bufs[b]
  .next (if s.blockOut 13 || decide (x.state ≠ .written) || decide (x.asked ≠ 0) then s
    else completeBuffer k b (if x.present then x.capture else x.capture + s.field (slotWord k 4) 0 20 * 1000) s)

/-- A slot takes new frames: enabled by the words in effect, the engine not out, its store not lost, and not in Update (R267, R285, R291,
R310). -/
def slotTakes (k : Fin 2) (src : Nat) (s : State) : Bool :=
  panelOn k (inEffect s) && decide (slotSrc k (inEffect s) = src) && !s.blockOut 13 && !s.panel.lost && decide (s.modes.mode ≠ .update)

/-- The device time of an RTP timestamp of 90 kHz, at or before now (R179, R270). -/
def rtpTime (t : Word) (s : State) : Nat :=
  let now := s.deviceTime.toNat
  let back := (now * 9 / 100000 + 2 ^ 32 - t.toNat) % 2 ^ 32
  now - back * 100000 / 9

/-- A stream packet reaches a slot (R270): a packet of another RTP time than the frame received belongs to the next frame, whose first
packet is lost where this is not it. -/
def streamPacket (p : VideoPacket) (k : Fin 2) (s : State) : State :=
  let x := s.panel.slots[k]
  let gap := match x.seq with
    | some q => decide (p.seq ≠ q + 1)
    | none => false
  let late := !p.first && (x.cur.isNone || decide (x.rtp ≠ some p.rtpTime))
  let s := s.updPanelSlot k fun x => { x with
    seq := some p.seq, rtp := some p.rtpTime, broken := x.broken || (gap && x.cur.isSome) }
  let s := if p.first || late then beginFrame k (rtpTime p.rtpTime s) p.is444 false s else s
  let s := if late then s.updPanelSlot k fun x => { x with broken := true } else s
  let vs := p.blocks.map fun b => (b.1, 16 * b.2.1, b.2.2.map (widen p.is10))
  let s := if (s.panel.slots[k]).cur.isSome then takeBlocks k vs s else s
  if p.marker then endFrame k s else s

/-- A packet is one of a stream: the stream is enabled, and the packet has its group, its source where one is set, and its UDP port (R179). -/
def inStream (st : Fin 2) (p : VideoPacket) (s : State) : Bool :=
  bit (streamWord st 5 s) 0 && decide (p.group = streamGroup st s) &&
    (match streamSource st s with | some a => decide (p.source = a) | none => true) &&
    decide (p.dport = (streamWord st 2 s).setWidth 16)

/-- A packet has the format of its stream: its sampling and depth, and every block inside its width and height (R179). -/
def streamFormat (st : Fin 2) (p : VideoPacket) (s : State) : Bool :=
  let size := streamWord st 3 s
  (p.is444 == bit (streamWord st 4 s) 0) && (p.is10 == bit (streamWord st 4 s) 1) &&
    p.blocks.all fun b => decide (b.1 < bits size 16 12) && decide (16 * b.2.1 < bits size 0 13)

/-- ST2110_PACKET: a packet of a stream goes to the slots it feeds; one whose format disagrees with the stream's words is discarded and
counted under FORMAT at the port it came by (R179). -/
def execSt2110Packet (st : Fin 2) (p : VideoPacket) (s : State) : Outcome State Fault Refusal :=
  .next (if s.blockOut 10 || !s.flag 0x1C02 p.port.val || !inStream st p s then s
    else if !streamFormat st p s then s.countUp (0x1C10 + 4 * p.port.val + 2) 0 32
    else forAll (fun k s => if slotTakes k st s then streamPacket p k s else s) (List.finRange 2) s)

/-- The coded bytes of the next block of a slice: its length by the coder (Table 11.3, R273). -/
def codedLen (coder : Nat) (is444 : Bool) (bs : Bytes) : Nat :=
  match coder with
  | 0 => 32 * comps is444
  | 1 => losslessLen 4 10 (if is444 then [16, 16, 16] else [16, 8, 8]) bs
  | _ => 16 * comps is444

/-- The coded blocks of a slice, in order. -/
def codedBlocks (coder : Nat) (is444 : Bool) : Nat → Bytes → List Bytes
  | 0, _ => []
  | n + 1, bs =>
    let len := codedLen coder is444 bs
    if len = 0 || bs.length < len then [] else bs.take len :: codedBlocks coder is444 n (bs.drop len)

/-- The pixels of a slice as runs of its source frame (R211, R272): LINES lines of WIDTH columns from LINE and COLUMN on, each line a
sequence of 16-pixel blocks of 10-bit values; the padding of its last block falls away. A block that is missing leaves no run. -/
def slicePixels (x : Slice) : List (Nat × Nat × List Nat) :=
  let per := (x.width + 15) / 16
  (codedBlocks x.coder.toNat x.is444 (x.lines * per) x.data).zipIdx.map fun p =>
    let j := p.2 % per
    (x.line + p.2 / per, x.column + 16 * j,
      ((readStore x.coder.toNat x.is444 p.1).take (x.width - 16 * j)).flatten)

/-- A Holros frame that has not come whole is dropped: HOL_SLICE_LATE, and the frame is incomplete (R211, R270). -/
def frameLate (k : Fin 2) (s : State) : State :=
  let x := s.panel.slots[k]
  if x.cur.isSome then frameIncomplete k (record 0x400B k ((x.frame.getD 0).toNat % 65536) s) else s

/-- A slot's Holros source changes its sampling: the ring is laid out anew, and the slot shows the background until a frame completes
(R268, R269). -/
def resampleSlot (k : Fin 2) (is444 : Bool) (s : State) : State :=
  if (s.panel.slots[k]).is444 = is444 then s
  else emptySlot k (s.updPanelSlot k fun x => { x with is444 := is444 })

/-- A slice reaches a slot (R211): of another frame than the one received, it begins that frame and drops an older one that is not
whole; of a frame that has ended, or of one to be shown before the one received, it changes nothing. -/
def slicePacket (x : Slice) (k : Fin 2) (s : State) : State :=
  let cur := s.panel.slots[k]
  let same := decide (cur.frame = some x.frame)
  if same && cur.cur.isNone then s
  else if !same && cur.frame.isSome && decide (x.present.toNat < cur.present) then s
  else
    let s := if same then s
      else (beginFrame k x.present.toNat x.is444 true (resampleSlot k x.is444 (frameLate k s))).updPanelSlot k fun y =>
        { y with frame := some x.frame, present := x.present.toNat }
    let s := match (s.panel.slots[k]).cur with
      | some b => onlyIf (decide (x.coder = 2)) (fun s => s.updPanelSlot k fun y => { y with
          bufs := modAt y.bufs b fun z => { z with lossy := true } }) s
      | none => s
    let s := if (s.panel.slots[k]).cur.isSome then takeBlocks k (slicePixels x) s else s
    if frameWhole k x.is444 s then endFrame k s else s

/-- HOL_SLICE_RX: a slice that a port carries goes to the slots whose source is Holros video, while HOLROS_VIDEO is agreed and the node
is admitted to the ring (R200, R204, R211). -/
def execHolSliceRx (x : OnPort Slice) (s : State) : Outcome State Fault Refusal :=
  .next (if s.blockOut 12 || !holUp x.port s || !holAdmitted s || !s.feature 15 then s
    else forAll (fun k s => if slotTakes k 2 s then slicePacket x.it k s else s) (List.finRange 2) s)

/-- A slot falls asleep (R282). -/
def sleepSlot (k : Fin 2) (s : State) : State :=
  if (s.panel.slots[k]).asleep then s
  else record 0x5004 k 0 (setSlotState k 2 (s.updPanelSlot k fun x => { x with asleep := true }))

/-- SLOT_SLEEP: no complete frame for SLOT_SLEEP ms, 2 to 500. -/
def execSlotSleep (k : Fin 2) (s : State) : Outcome State Fault Refusal :=
  let ms := clampN 2 500 (s.field (slotWord k 5) 0 9)
  .next (if panelOn k (inEffect s) && !s.blockOut 13 && decide ((s.panel.slots[k]).doneAt + ms * 1000000 ≤ s.clock) then sleepSlot k s
    else s)

/-- Every enabled slot is asleep (Table 3.2). -/
def panelAsleep (s : State) : Bool := (List.finRange 2).all fun k => !panelOn k (inEffect s) || (s.panel.slots[k]).asleep

/-! ### From the store to the code u (R269, R274, R290) -/

/-- What scan-out has for a piece of a line that it fetches: nothing yet, or the data, none of it on POISON. -/
def pieceRead (A n : Nat) (s : State) : Option (Option Bytes) :=
  match s.panel.fetched.find? fun e => decide (e.addr ≤ A) && decide (A + n ≤ e.addr + e.len) && e.answer.isSome with
  | some e => e.answer.map fun r => if r.1 = .ok then some ((r.2.drop (A - e.addr)).take n) else none
  | none => none

/-- What scan-out has for bytes that it fetches. -/
def panelRead (A n : Nat) (s : State) : Option (Option Bytes) :=
  (linePieces A n).foldr (fun p rest => match pieceRead p.1 p.2 s, rest with
    | some (some a), some (some b) => some (some (a ++ b))
    | none, _ | _, none => none
    | _, _ => some none) (some (some []))

/-- The bytes scan-out has fetched; none on POISON. -/
def fetchedBytes (A n : Nat) (s : State) : Option Bytes := (panelRead A n s).getD none

/-- A slot's buffer number, block slot size and mode for one of its stored blocks, and the address of the block's slot. -/
def blockPlace (k : Fin 2) (b : Fin 4) (y j : Nat) (s : State) : Nat × Nat × Nat × Nat :=
  let i := y * ((s.field (slotWord k 2) 0 13 + 15) / 16) + j
  let (base, size, mode) := bufferAt k b s
  (i, size, mode, base + i * size)

/-- The reads of a stored block that are known: its bytes; in lossless mode the metadata byte, and the coded length once that is known
(R269, R273). -/
def blockReads (k : Fin 2) (b : Fin 4) (y j : Nat) (s : State) : List (Nat × Nat) :=
  let (i, size, mode, a) := blockPlace k b y j s
  if mode = 1 then
    (metaAt k b i s, 1) :: (match fetchedBytes (metaAt k b i s) 1 s with
      | some [m] => [(a, min size (m.toNat * 16))]
      | _ => [])
  else [(a, size)]

/-- The pixels of a stored block of a slot's shown buffer; none where a read is POISON. -/
def storedBlock (k : Fin 2) (b : Fin 4) (y j : Nat) (s : State) : Option (List (List Nat)) :=
  let (i, size, mode, a) := blockPlace k b y j s
  let is444 := slot444 k s
  let narrow (ps : List (List Nat)) : List (List Nat) :=
    if slotSrc k s = 3 && !s.flag 0x2832 1 && decide (mode = 0) then ps.map fun p => p.map (widen false) else ps
  if s.panel.poison.contains (k.val, y, j) then none
  else if mode = 1 then
    match fetchedBytes (metaAt k b i s) 1 s with
    | some [m] => (fetchedBytes a (min size (m.toNat * 16)) s).map (readStore 1 is444)
    | _ => none
  else (fetchedBytes a size s).map fun bs => narrow (readStore mode is444 bs)

/-- Component k of PANEL_BACKGROUND as the code u (R274). -/
def background (s : State) (r : Nat) : Nat := s.shownField 0x280D (20 - 10 * r) 10 * 64

/-- Entry [r][k] of a slot's matrix, Q3.13 (Table 11.7). -/
def matrixAt (k : Fin 2) (r c : Nat) (s : State) : Int :=
  let i := 3 * r + c
  sbits (s.shownWord (slotWord k (9 + i / 2))) (if i % 2 = 0 then 0 else 16) 16

/-- The components x0, x1, x2 of a slot's pixel; chroma between columns of 4:2:2 is the rounded mean of the pairs (R274). -/
def components (k : Fin 2) (b : Fin 4) (y x : Nat) (s : State) : Option (List Nat) :=
  let w := s.field (slotWord k 2) 0 13
  let pixel (x : Nat) : Option (List Nat) := (storedBlock k b y (x / 16) s).map fun ps => ps.getD (x % 16) []
  match pixel x with
  | none => none
  | some p =>
    if slot444 k s then some p
    else
      let pair (q c : Nat) : Option Nat := (pixel (2 * q + c)).map fun p => p.getD 1 0
      let chroma (c : Nat) : Option Nat :=
        if x % 2 = 0 || w ≤ 2 * (x / 2) + 2 then pair (x / 2) c
        else match pair (x / 2) c, pair (x / 2 + 1) c with
          | some a, some d => some ((a + d + 1) / 2)
          | _, _ => none
      match chroma 0, chroma 1 with
      | some cb, some cr => some [p.getD 0 0, cb, cr]
      | _, _ => none

/-- An integer quotient rounded to nearest, halves away from zero. -/
def nearest (a : Int) (b : Nat) : Int := if a < 0 then -(roundDivI (-a) b) else roundDivI a b

/-- u_r of a slot's pixel by its colour matrix (R274); none where its block read POISON. -/
def matrixCode (k : Fin 2) (b : Fin 4) (x r : Nat) (s : State) (y : Nat) : Option Nat :=
  (components k b y x s).map fun xs =>
    let sum := (List.range 3).foldl (fun t c => t + matrixAt k r c s *
      ((xs.getD c 0 : Int) - s.shownField (slotWord k 0xE) (20 - 10 * c) 10)) 0
    (clampI 0 65535 (nearest (64 * sum) 8192)).toNat

/-- u_r of a slot's pixel; a block that read POISON takes the codes of the line above, or the background on the first
line (R290). -/
def slotCode (k : Fin 2) (b : Fin 4) (x r : Nat) (s : State) : Nat → Nat
  | 0 => (matrixCode k b x r s 0).getD (background s r)
  | y + 1 => match matrixCode k b x r s (y + 1) with
    | some u => u
    | none => slotCode k b x r s y

/-- A slot covers a panel pixel: the place within the slot (R267). -/
def covers (k : Fin 2) (y x : Nat) (s : State) : Option (Nat × Nat) :=
  let px := s.shownField (slotWord k 3) 0 13
  let py := s.shownField (slotWord k 3) 16 12
  if bit (s.shownWord (slotWord k 0)) 31 && decide (px ≤ x) && decide (x < px + s.shownField (slotWord k 2) 0 13) &&
      decide (py ≤ y) && decide (y < py + s.shownField (slotWord k 2) 16 12) then some (y - py, x - px) else none

/-- The code u of a panel pixel: slot 1 over slot 0 over the background (R267). -/
def panelCode (y x r : Nat) (s : State) : Nat :=
  let of (k : Fin 2) : Option Nat := match covers k y x s with
    | some (sy, sx) =>
      match (s.panel.slots[k]).shown with
      | some b => some (slotCode k b sx r s sy)
      | none => some (background s r)
    | none => none
  match of 1, of 0 with
  | some u, _ => u
  | none, some u => u
  | none, none => background s r

/-! ### Tables, gains, dead pixels (R275–R278, R283) -/

/-- The active table bank, while the engine owns it. -/
def tableBank (s : State) : Option BankId :=
  let b := s.field 0x2807 24 5
  if b = 31 then none
  else
    let bank : BankId := Fin.ofNat 32 b
    if s.banks[bank].owner = 8 then some bank else none

/-- A 16-bit entry of the table bank; a bank that is missing, refused or of wrong parity leaves a free value. -/
def tableEntry (off : Nat) (s : State) : Nat :=
  let free := Config.freeBits (s.free + off) % 65536
  match tableBank s with
  | some b =>
    let a := b.val * 0x20000 + off
    if (s.parityError a 2).isSome then free else leNat (s.loadBytes a 2)
  | none => free

/-- The gamma LUT (R275). -/
def gammaOut (c u : Nat) (s : State) : Nat :=
  let e (i : Nat) : Int := if i = 4096 then 65535 else tableEntry (0x2000 * c + 2 * i) s
  (clampI 0 65535 (e (u / 16) + Int.fdiv ((e (u / 16 + 1) - e (u / 16)) * (u % 16 : Nat) + 8) 16)).toNat

/-- Where the compensation word of a pixel lies (R276). -/
def compAddr (y x : Nat) (s : State) : Nat :=
  (s.shownWord 0x2809).toNat * 2 ^ 32 + (s.shownWord 0x2808).toNat + 4 * (y * panelW s + x)

/-- The compensation word of a pixel: gain 1 and DEAD 0 without COMP_EN or on POISON (R276, R290). -/
def compWord (y x : Nat) (s : State) : Word :=
  let none_ : Word := 0x3FFFFFFF
  if !bit (s.shownWord 0x2807) 0 then none_
  else
    if s.panel.poison.contains (2, y, x) then none_
    else match fetchedBytes (compAddr y x s) 4 s with
      | some bs => BitVec.ofNat 32 (leNat bs)
      | none => none_

/-- DEAD of a pixel: mode 3 acts as 1, and mode 2 as 1 in class L (R278). -/
def deadMode (y x : Nat) (s : State) : Nat :=
  match bits (compWord y x s) 30 2 with
  | 0 => 0
  | 2 => if classL s then 1 else 2
  | _ => 1

/-- The tiles across the panel, and how many there are (R277). -/
def tileGrid (s : State) : Nat × Nat :=
  let h := clampN 1 4096 (s.shownField 0x280A 16 16)
  let w := clampN 1 4096 (s.shownField 0x280A 0 16)
  let across := (panelW s + w - 1) / w
  (across, across * ((panelH s + h - 1) / h))

/-- The seam stage runs: enabled, agreed, and the tiles within the limit (R266, R277, Table 11.5). -/
def seamOn (s : State) : Bool := bit (s.shownWord 0x2807) 2 && s.feature 8 && decide ((tileGrid s).2 ≤ 12256)

/-- The tile of a pixel, and its distances from the tile's left, right, top and bottom edge (R277). -/
def tileOf (y x : Nat) (s : State) : Nat × List Nat :=
  let h := clampN 1 4096 (s.shownField 0x280A 16 16)
  let w := clampN 1 4096 (s.shownField 0x280A 0 16)
  (y / h * (tileGrid s).1 + x / w, [x % w, w - 1 - x % w, y % h, h - 1 - y % h])

/-- The seam factor of a pixel as a numerator over 2¹²⁰: the product of the four edge factors (R277). -/
def seamFactor (y x : Nat) (s : State) : Int :=
  if !seamOn s then 2 ^ 120
  else
    let (tile, ds) := tileOf y x s
    let width := clampN 1 16 (s.shownField 0x280B 0 5)
    let factor (e d : Nat) : Int :=
      if d < width then
        2 ^ 30 + ((tableEntry (0x8100 + 8 * tile + 2 * e) s : Int) - 32768) * tableEntry (0x8000 + 2 * d) s
      else 2 ^ 30
    ds.zipIdx.foldl (fun p d => p * factor d.2 d.1) 1

/-- The stage-5 result of a component (R276, R277). -/
def gained (y x c : Nat) (s : State) : Nat :=
  let g : Int := gammaOut c (panelCode y x c s) s
  let gain : Int := bits (compWord y x s) (20 - 10 * c) 10 + 1
  (clampI 0 65535 (nearest (g * gain * seamFactor y x s) (1024 * 2 ^ 120))).toNat

/-- The target t of a component: dead pixels output 0, and a neighbour of a dead pixel in mode 2 gains its share (R278,
R289). -/
def target (y x c : Nat) (s : State) : Nat :=
  if deadMode y x s ≠ 0 then 0
  else
    let share (ok : Bool) (y x : Nat) : Nat := if ok && decide (deadMode y x s = 2) then gained y x c s / 4 else 0
    let add := share (decide (0 < y)) (y - 1) x + share (decide (y + 1 < panelH s)) (y + 1) x +
      share (decide (0 < x)) y (x - 1) + share (decide (x + 1 < panelW s)) y (x + 1)
    min 65535 (gained y x c s + add)

/-! ### Overdrive and dither (R279–R281) -/

/-- Overdrive applies (Table 11.1, Table 11.7). -/
def overdriveOn (s : State) : Bool := bit (s.shownWord 0x2807) 1 && s.feature 7 && classL s

/-- PANEL_OD_REF_BASE in effect. -/
def refBase (s : State) : Nat := (s.shownWord 0x280F).toNat * 2 ^ 32 + (s.shownWord 0x280E).toNat

/-- Where the reference word of a pixel lies, and the lowest bit of its field (R280). -/
def refAt (y x : Nat) (s : State) : Nat × Nat :=
  let i := y * panelW s + x
  (refBase s + i / 3 * 8, i % 3 * 18)

/-- The previous target p′ of a component: t itself on the first frame or on POISON (R280, R290). -/
def previous (y x c t : Nat) (s : State) : Nat :=
  if !s.panel.refValid || s.panel.poison.contains (3, y, x) then t
  else
    let (a, lo) := refAt y x s
    match fetchedBytes a 8 s with
    | some bs => 1024 * (leNat bs / 2 ^ (lo + 6 * c) % 64) + 512
    | none => t

/-- The overdrive interpolation (R279). -/
def overdrive (c t p : Nat) (s : State) : Nat :=
  let od (i j : Nat) : Int := tableEntry (0x6000 + 2 * (1089 * c + 33 * i + j)) s
  let i := p / 2048
  let j := t / 2048
  let fp : Int := (p % 2048 : Nat)
  let ft : Int := (t % 2048 : Nat)
  let a := od i j * (2048 - ft) + od i (j + 1) * ft
  let b := od (i + 1) j * (2048 - ft) + od (i + 1) (j + 1) * ft
  (clampI 0 65535 (Int.fdiv (a * (2048 - fp) + b * fp + 2 ^ 21) (2 ^ 22))).toNat

/-- The entry of the table bank at an offset is read for a pixel (R275, R277, R279). -/
def entryUsed (off y x : Nat) (s : State) : Bool :=
  if off < 0x6000 then
    let e := off % 0x2000 / 2
    let u := panelCode y x (off / 0x2000) s
    decide (e = u / 16) || decide (e = u / 16 + 1)
  else if off < 0x6000 + 6534 then
    let e := (off - 0x6000) / 2
    let t := target y x (e / 1089) s
    let p := previous y x (e / 1089) t s
    let i := e % 1089 / 33
    let j := e % 33
    overdriveOn s && (decide (i = p / 2048) || decide (i = p / 2048 + 1)) && (decide (j = t / 2048) || decide (j = t / 2048 + 1))
  else
    let (tile, ds) := tileOf y x s
    let width := clampN 1 16 (s.shownField 0x280B 0 5)
    seamOn s && ds.zipIdx.any fun d => decide (d.1 < width) &&
      (decide ((off - 0x8000) / 2 = d.1 ∧ 0x8000 ≤ off) || decide ((off - 0x8100) / 2 = 4 * tile + d.2 ∧ 0x8100 ≤ off))

/-- The engine reads its active table bank for the rows of a packet (R283): a bank that is not its own refuses the access, which is counted
and raised (R254, R257); every byte of wrong parity among the entries read is counted, recorded and raised (R259). -/
def readTables (ys : List Nat) (s : State) : State :=
  let b := s.field 0x2807 24 5
  let base := b * 0x20000
  if b = 31 then s
  else if s.owns 8 base then
    let t := inEffect s
    let read (p : Nat) : Bool := decide (base ≤ p) && decide (p < base + 0x20000) &&
      ys.any fun y => (List.range (panelW s)).any fun x => entryUsed (p - base) y x t
    forAll (fun p s => poisonReply (bankParity 8 p s)) (s.badParity.filter read) s
  else bankRefused 8 base s

/-- The packed reference of a pixel: its three targets in 6 bits each (R280). -/
def packedRef (y x : Nat) (s : State) : Nat :=
  (List.range 3).foldl (fun q c => q + target y x c s / 1024 * 2 ^ (6 * c)) 0

/-- A reference word before a row writes its pixels in it: as last written, as fetched, or 0. -/
def oldRef (word : Nat) (s : State) : Nat :=
  let stored := leNat ((fetchedBytes (refBase s + 8 * word) 8 s).getD [])
  match s.panel.refTail with
  | some (w, v) => if w = word then v else stored
  | none => stored

/-- A reference word with the pixels of a row in it. -/
def newRef (y word : Nat) (s : State) : Nat :=
  let row := y * panelW s
  (List.range 3).foldl (fun v k =>
    let i := 3 * word + k
    if row ≤ i && i < row + panelW s then
      (v % 2 ^ (18 * k) + v / 2 ^ (18 * k + 18) * 2 ^ (18 * k + 18) + packedRef y (i - row) s * 2 ^ (18 * k)) % 2 ^ 54
    else v) (oldRef word s)

/-- The reference words that hold pixels of a row. -/
def refWords (y : Nat) (s : State) : List Nat :=
  let row := y * panelW s
  (List.range ((row + panelW s + 2) / 3 - row / 3)).map (row / 3 + ·)

/-- The targets of a row are kept as the reference of the next frame: its words are written through P2, a word that it shares with the
next row again with that row (R280). -/
def keepReference (y : Nat) (s : State) : State :=
  let ws := (refWords y s).map fun w => (w, newRef y w (inEffect s))
  let s := forAll (fun e s => forAll (pushPort 2) (writePieces .engine (refBase s + 8 * e.1) (leBytes 8 e.2)) s) ws s
  s.updPanel fun p => { p with refKept := true, refTail := ws.getLast? }

/-- Dither to D bits (R281). -/
def dither (d v y x frame : Nat) : Nat :=
  let s := 16 - d
  if s = 0 then v
  else
    let q := if s ≤ 2 then v * 2 ^ (2 - s) else roundDiv v (2 ^ (s - 2))
    let b := match y % 2, x % 2 with
      | 0, 0 => 0 | 0, _ => 2 | _, 0 => 3 | _, _ => 1
    min (2 ^ d - 1) ((q + (b + frame) % 4) / 4)

/-- A component of an output pixel, of the frame that was last selected for (R281, R294). -/
def outComp (y x c : Nat) (s : State) : Nat :=
  let t := target y x c s
  let v := if overdriveOn s then overdrive c t (previous y x c t s) s else t
  dither (panelDepth s) v y x (s.panel.selected.getD 0)

/-- A row of output pixels. -/
def outRow (y : Nat) (s : State) : List (Nat × Nat × Nat) :=
  (List.range (panelW s)).map fun x => (outComp y x 0 s, outComp y x 1 s, outComp y x 2 s)

/-- The pieces that scan-out fetches for some bytes. -/
def fetchPieces (port : Fin 12) (A n : Nat) : List (Fin 12 × Nat × Nat) := (linePieces A n).map fun p => (port, p.1, p.2)

/-- The reads of a stored block, and of the blocks above it as far as POISON asks for their codes (R290). -/
def columnReads (k : Fin 2) (b : Fin 4) (j : Nat) (s : State) : Nat → List (Nat × Nat)
  | 0 => blockReads k b 0 j s
  | y + 1 => blockReads k b (y + 1) j s ++ (if s.panel.poison.contains (k.val, y + 1, j) ||
      (blockReads k b (y + 1) j s).any fun r => panelRead r.1 r.2 s == some none then columnReads k b j s y else [])

/-- The shown buffer of a slot and its line on a panel row, where the slot covers it. -/
def slotLine (k : Fin 2) (y : Nat) (s : State) : Option (Fin 4 × Nat) :=
  match (s.panel.slots[k]).shown, covers k y (s.shownField (slotWord k 3) 0 13) s with
  | some b, some (sy, _) => some (b, sy)
  | _, _ => none

/-- The reads of a panel row's pixels before the dead-pixel stage: store blocks and compensation words, through P0. -/
def pixelReads (y : Nat) (s : State) : List (Fin 12 × Nat × Nat) :=
  let store := ((List.finRange 2).map fun k => match slotLine k y s with
    | some (b, sy) => ((List.range ((s.field (slotWord k 2) 0 13 + 15) / 16)).map fun j => columnReads k b j s sy).flatten
    | none => []).flatten
  (store.map fun r => fetchPieces 0 r.1 r.2).flatten ++
    (if bit (s.shownWord 0x2807) 0 then fetchPieces 0 (compAddr y 0 s) (4 * panelW s) else [])

/-- The reads of a panel row: its own and, where a dead pixel shares with its neighbours, those of the rows beside it; and its overdrive
reference through P2 (R276, R278, R280). -/
def rowReads (y : Nat) (s : State) : List (Fin 12 × Nat × Nat) :=
  let beside := if bit (s.shownWord 0x2807) 0 && !classL s then
      (if 0 < y then pixelReads (y - 1) s else []) ++ (if y + 1 < panelH s then pixelReads (y + 1) s else [])
    else []
  pixelReads y s ++ beside ++ (if overdriveOn s && s.panel.refValid then
    fetchPieces 2 (refBase s + 8 * (y * panelW s / 3)) (8 * (refWords y s).length) else [])

/-- The reads that some rows still need: those that have not been asked for. -/
def readsToAsk (ys : List Nat) (s : State) : List (Fin 12 × Nat × Nat) :=
  (((ys.map fun y => rowReads y (inEffect s)).flatten).filter fun r =>
    !s.panel.fetched.any fun e => decide (e.addr ≤ r.2.1) && decide (r.2.1 + r.2.2 ≤ e.addr + e.len)).eraseDups

/-- Every read of some rows has been answered. -/
def rowsReady (ys : List Nat) (s : State) : Bool :=
  ((ys.map fun y => rowReads y (inEffect s)).flatten).all fun r => (pieceRead r.2.1 r.2.2 s).isSome

/-- Scan-out asks for what some rows still need: each read waits behind its port. -/
def askReads (ys : List Nat) (s : State) : State :=
  forAll (fun r s => pushPort r.1 ⟨.fetch r.2.1 r.2.2, false, r.2.1, r.2.2, []⟩
    (s.updPanel fun p => { p with fetched := p.fetched ++ [{ addr := r.2.1, len := r.2.2 }] })) (readsToAsk ys s) s

/-- Scan-out gives up what it has fetched and asked for. -/
def dropReads (s : State) : State :=
  let keep (l : List PortReq) : List PortReq := l.filter fun r => match r.from_ with | .fetch _ _ => false | _ => true
  { (s.updPanel fun p => { p with fetched := [] }) with dram := { s.dram with ports := s.dram.ports.map keep } }

/-- The POISON of a row that a command tells: each by its kind, its row × 4,096 and its block or column (R290). -/
def outsidePoison (y : Nat) (given : List (Nat × Nat)) (s : State) : List (Nat × Nat × Nat) :=
  (given.filter fun p => decide (p.2 / 4096 = y)).map fun p =>
    if p.1 < 2 then
      let k : Fin 2 := Fin.ofNat 2 p.1
      (p.1, y - s.shownField (slotWord k 3) 16 12, p.2 % 4096)
    else (p.1, y, p.2 % 4096)

/-- The POISON answered to the reads of a row: store blocks of the slots that cover it, compensation words, reference words of up to three
pixels (R290). -/
def rowPoison (y : Nat) (s : State) : List (Nat × Nat × Nat) :=
  let stored := ((List.finRange 2).map fun k => match slotLine k y s with
    | some (b, sy) =>
      ((List.range ((s.field (slotWord k 2) 0 13 + 15) / 16)).filter fun j => (storedBlock k b sy j s).isNone).map fun j =>
        (k.val, sy, j)
    | none => []).flatten
  let bad (a n : Nat) : Bool := (fetchedBytes a n s).isNone
  let columns (tag : Nat) (p : Nat → Bool) : List (Nat × Nat × Nat) := ((List.range (panelW s)).filter p).map fun x => (tag, y, x)
  let words := if bit (s.shownWord 0x2807) 0 then columns 2 fun x => bad (compAddr y x s) 4 else []
  let refs := if overdriveOn s && s.panel.refValid then
      columns 3 fun x => (decide (x = 0) || decide ((refAt y x s).2 = 0)) && bad (refAt y x s).1 8
    else []
  (stored ++ words ++ refs).eraseDups

/-- The slot that a POISON event names in the fault record. -/
def poisonUnit (e : Nat × Nat × Nat) : Nat := if e.1 = 1 then 1 else 0

/-- POISON of some rows, told from outside or answered to their reads, is counted and reported, once for each event (R290). -/
def notePoison (events : List (Nat × Nat × Nat)) (s : State) : State :=
  let fresh := events.filter fun e => !s.panel.poison.contains e
  let s := forAll (fun e s => recordLimited 0x5003 (poisonUnit e) 0 (s.countUp 0x2834 0 32)) fresh s
  s.updPanel fun p => { p with poison := p.poison ++ fresh }

/-- POISON that a command tells of some rows is noted; the reads of their pixels then take in the lines above (R290). -/
def givenPoison (ys : List Nat) (given : List (Nat × Nat)) (s : State) : State :=
  notePoison ((ys.map fun y => outsidePoison y given s).flatten.eraseDups) s

/-- The rows of a packet are produced: POISON is counted and reported (R290), the tables are read, the chain runs, and with overdrive the
targets are kept. -/
def produceRows (ys : List Nat) (s : State) : State :=
  let s := notePoison ((ys.map fun y => rowPoison y (inEffect s)).flatten) s
  let s := readTables ys s
  let rows := ys.map fun y => (y, outRow y (inEffect s))
  let s := if overdriveOn s then forAll keepReference ys s else s
  let s := dropReads (s.updPanel fun p => { p with out := rows })
  { s with free := s.free + 2 ^ 17 }

/-! ### The rules of the pixel-path words -/

/-- A rectangle of a slot lies inside its source frame and the panel (R267, Table 11.5). A stream's frame is that of its
words; a playback frame has the store layout of the slot, so it is the slot's rectangle itself; of Holros video no size is told, and its
frame has only the limits. -/
def slotFits (k : Fin 2) (s : State) : Bool :=
  let cx := s.field (slotWord k 1) 0 13
  let cy := s.field (slotWord k 1) 16 12
  let w := s.field (slotWord k 2) 0 13
  let h := s.field (slotWord k 2) 16 12
  let stream := 0x1C20 + 6 * slotSrc k s + 3
  let (sw, sh) := match slotSrc k s with
    | 0 | 1 => (s.field stream 0 13, s.field stream 16 12)
    | 2 => (4096, 2048)
    | _ => (w, h)
  decide (cx + w ≤ sw) && decide (cy + h ≤ sh) && decide (sw ≤ 4096) && decide (sh ≤ 2048) &&
    decide (s.field (slotWord k 3) 0 13 + w ≤ panelW s) && decide (s.field (slotWord k 3) 16 12 + h ≤ panelH s)

/-- The slots whose rectangle no longer lies inside the panel or its source are refused and disabled (R267). -/
def dropMisfits (s : State) : State :=
  forAll (fun k s => if panelOn k s && !slotFits k s then
      onlyIf s.panel.selected.isNone (emptySlot k) (record 0x5007 k (slotWord k 0) (s.setFlag (slotWord k 0) 31 false))
    else s) (List.finRange 2) s

/-- More tiles than the limit, by the words as written: PANEL_CONFIG_REFUSED, and the seam stage is bypassed (Table 11.5). -/
def judgeTiles (addr : Nat) (s : State) : State :=
  let h := clampN 1 4096 (s.field 0x280A 16 16)
  let w := clampN 1 4096 (s.field 0x280A 0 16)
  onlyIf (decide (12256 < (panelW s + w - 1) / w * ((panelH s + h - 1) / h))) (record 0x5007 0xFFFF addr) s

/-- The rule of a slot word: with EN the rectangle must fit (R267). A change of the slot's frame takes effect at the next frame start, and
before the first one at once (R285). -/
def slotRule (k : Fin 2) (addr : Nat) (val : Word) (s : State) : Rule :=
  let off := addr - slotWord k 0
  let s' := s.setWord addr val
  if off ≤ 3 && panelOn k s' && !slotFits k s' then
    .fault 0x5007 k addr
  else if (off = 0 || off = 2) && s.panel.selected.isNone && (val ^^^ s.word addr) &&& (if off = 0 then 0x80000003 else 0x0FFF1FFF) ≠ 0 then
    .accept val fun s => (emptySlot k s).updPanelSlot k fun x => { x with doneAt := s.clock, asleep := false }
  else .plain val

/-- A playback buffer becomes eligible in every slot that plays (R270). -/
def playReady (b : Fin 4) (s : State) : State :=
  forAll (fun k s => if slotTakes k 3 s then completeBuffer k b s.deviceTime.toNat s else s) (List.finRange 2) s

/-- The rule of a pixel-path word. -/
def panelRule (addr : Nat) (val : Word) (s : State) : Rule :=
  if 0x2810 ≤ addr && addr < 0x2820 then slotRule 0 addr val s
  else if 0x2820 ≤ addr && addr < 0x2830 then slotRule 1 addr val s
  else match addr with
    | 0x2807 =>
      let next := bits val 16 5
      let bank : BankId := Fin.ofNat 32 next
      let ok := decide (next = 31) || decide (s.banks[bank].owner = 8)
      .when ok 0x5008 0xFFFF addr (.accept val fun s => s.updPanel fun p => { p with nextAt := some s.deviceTime.toNat })
    | 0x280A => .accept val (judgeTiles addr)
    | 0x2833 => .accept val (playReady (Fin.ofNat 4 (bits val 0 2)))
    | _ => .plain val

end Sys2Proof.Machine
end

