-- ==== Sys2Proof/Machine/Holros.lean ====
section
/-! DEFINITION. The Holros cascade (chapter 8): the cycle, election and numbering, budgets, healing, error counters,
stop-class entries, HEST_N, bulk, and the rules of the Holros words. A cascade reset and cascade boot stand with the modes. -/
namespace Sys2Proof.Machine

open Host (Outcome)

/-- The Holros block changed. -/
def State.updHol (s : State) (f : Holros → Holros) : State := { s with hol := f s.hol }
/-- A Holros port changed. -/
def State.updHolPort (s : State) (p : Fin 2) (f : HolPort → HolPort) : State :=
  s.updHol fun h => { h with ports := modAt h.ports p f }

/-! ### Words -/

/-- ROLE: 0 electing, 1 master, 2 follower, 3 refused. -/
def holRole (s : State) : Nat := s.field 0x2400 0 2
/-- ROLE set. -/
def setRole (r : Nat) (s : State) : State := s.setField 0x2400 0 2 r
/-- The chain flag. -/
def holChain (s : State) : Bool := s.flag 0x2400 2
/-- MASTER_ID as stored. -/
def holMaster (s : State) : DWord := s.word 0x2408 ++ s.word 0x2407
/-- MASTER_ID stored. -/
def setMaster (id : DWord) (s : State) : State := (s.setWord 0x2407 (id.setWidth 32)).setWord 0x2408 ((id >>> 32).setWidth 32)
/-- The transmit and the receive error counter. -/
def holTec (p : Fin 2) (s : State) : Nat := s.field (holPortAddr p) 0 8
/-- The receive error counter. -/
def holRec (p : Fin 2) (s : State) : Nat := s.field (holPortAddr p) 8 8
/-- The other port. -/
def otherPort (p : Fin 2) : Fin 2 := 1 - p
/-- DATA of a port's fault (Table 23.7). -/
def holData (p : Fin 2) (s : State) : Nat := holRec p s + 256 * holTec p s
/-! ### What a node writes (R195, R207, R432) -/

/-- Byte 1 of a group entry (Table 17.1). -/
def entryFlags (a : AxisId) (s : State) : Nat :=
  let w := s.word (machAddr a 0)
  b2n (bit w 30) + 2 * b2n (bit w 29) + 4 * b2n (!standstill a 0 s) + 8 * b2n s.mach.stop.isSome +
    16 * b2n s.mach.axes[a].slack + 32 * b2n s.mach.axes[a].snatch +
    64 * b2n (decide (s.mach.brakes[a].phase = .released)) + 128 * b2n (s.axes[a].lost || s.axes[a].froze || latched (axisDie a) s)

/-- The group entry of an axis (Table 17.1). -/
def groupEntry (a : AxisId) (s : State) : GroupEntry :=
  let slots := s.loop.slots
  let v := if s.flag (machAddr a 0) 30 then (slots[axisSlot a 0]).out else (slots[axisSlot a 1]).sp
  ⟨true, Fin.ofNat 8 (memberOf a s), Fin.ofNat 16 (groupOf a s), BitVec.ofNat 8 (entryFlags a s), posUm a s,
    s.axes[a].iQ >>> 16, v >>> 16, BitVec.ofNat 2 (s.field 0x5080 0 2), (s.word 0x2406).setWidth 8⟩

/-- This node's budget: its axes, its LED channels and its active pixels (R200). -/
def ownBudget (s : State) : Nat × Nat × Nat := (4, 64, panelW s * panelH s)

/-- This node's slot: its budget during its Admission and in the cycles after its numbering, else its group entries
(R200, R432). -/
def ownSlot (s : State) : NodeSlot :=
  if s.modes.mode = .admission || decide (0 < s.hol.budgetLeft) then ⟨true, noEntry, noEntry, some (ownBudget s)⟩
  else if holAdmitted s && !s.blockOut 20 then
    match allAxes.filter fun a => grouped a s with
    | a :: b :: _ => ⟨true, groupEntry a s, groupEntry b s, none⟩
    | [a] => ⟨true, groupEntry a s, noEntry, none⟩
    | [] => ⟨true, noEntry, noEntry, none⟩
  else ⟨true, noEntry, noEntry, none⟩

/-- A new emergency field begins to leave: this node's entry is repeated in 8 of them, in each on every port (R207). -/
def countField (cycle : Word) (type : Byte) (s : State) : State :=
  if s.hol.counted = some (cycle, type) then s
  else s.updHol fun h => { h with counted := some (cycle, type), ownLeft := h.ownLeft - 1 }

/-- An emergency entry that is not valid. -/
def noEmergency : EmergEntry := ⟨false, 0, 0, 0, 0, true⟩

/-- The node writes into the frames that pass it: numbered, and not refused (R200). -/
def writes (s : State) : Bool := s.hol.numbered && !s.hol.passive

/-- The value at a node's place of a field of 16. -/
def fieldAt {α : Type} (none_ : α) (l : List α) (n : Nat) : α := l.getD n none_
/-- A node's place of a field of 16 replaced. -/
def putField {α : Type} (none_ : α) (l : List α) (n : Nat) (x : α) : List α :=
  (List.range 16).map fun i => if i = n then x else fieldAt none_ l i

/-- A frame as it leaves the node: with the node's own entry of the emergency field in a cycle sync and in a slot-table frame, and its slot
in a cycle sync (R195, R207). A claim carries neither. -/
def writeOwn (f : SyncFrame) (s : State) : SyncFrame :=
  if !writes s || decide (f.type = 3) then f
  else
    let entry := if 0 < s.hol.ownLeft && s.hol.ownLeft ≤ 8 then s.hol.own.getD noEmergency else noEmergency
    { f with
      emerg := if f.type = 2 && !entry.valid then f.emerg else putField noEmergency f.emerg (holNode s) entry
      slots := if f.type = 1 then putField absentSlot f.slots (holNode s) (ownSlot s) else f.slots }

/-- A frame leaves on those of some ports that are not down or cut (Table 8.4), with what this node writes in it. -/
def launch (f : SyncFrame) (outs : List (Fin 2)) (s : State) : State :=
  let ports := outs.filter fun p => holUp p s
  if ports.isEmpty then s
  else
    let s := onlyIf (writes s && decide (f.type ≠ 3)) (countField f.cycle f.type) s
    s.updHol fun h => { h with sent := some (writeOwn f s, ports) }

/-- Where a frame that came by a port goes: out of the other port, or back where that link is broken (R202); and the frame then. -/
def onward (p : Fin 2) (f : SyncFrame) (s : State) : SyncFrame × Fin 2 :=
  if s.hol.ports[otherPort p].broken then ({ f with folded := true }, p) else (f, otherPort p)

/-- A frame goes on. -/
def sendOn (p : Fin 2) (f : SyncFrame) (s : State) : State := launch (onward p f s).1 [(onward p f s).2] s

/-! ### Roles (R198–R200) -/

/-- The node's strap priority (R198). -/
def strapPrio (s : State) : Nat :=
  if s.modes.mode = .boot && decide (s.field 0x0012 0 2 = 3) then 0 else if s.flag 0x0012 2 then 2 else 1

/-- One claim ranks above another: strap priority, then the lower DEVID. -/
def ranksAbove (a b : Nat × DWord) : Bool :=
  decide (b.1 < a.1) || (decide (a.1 = b.1) && decide (a.2.toNat < b.2.toNat))

/-- This node's claim. -/
def ownClaim (s : State) : Nat × DWord := (strapPrio s, s.fuses.devid)

/-- The node takes part in an election afresh: no number, no admission. -/
def startElection (s : State) : State :=
  (setRole 0 s).updHol fun h => { h with
    numbered := false, passive := false, claiming := true, best := none, returned := Vector.replicate 2 false, quiet := 0,
    admitMask := 0, refuseMask := 0, budgets := [], budgetLeft := 0, tableOf := none }

/-- Chain state is entered or left: HOL_RING_BROKEN as it is entered (R202, R220). -/
def setChain (on : Bool) (s : State) : State :=
  onlyIf (on && !holChain s) (record 0x4004 0xFFFF 0) (s.setFlag 0x2400 2 on)

/-- The node becomes master, node 0, with its own budget counted first (R198, R200). -/
def becomeMaster (chain : Bool) (s : State) : State :=
  let (ax, led, px) := ownBudget s
  let s := setMaster s.fuses.devid (((setRole 1 s).setField 0x2400 8 4 0).setField 0x2400 16 5 1)
  setChain chain (s.updHol fun h => { h with
    numbered := true, passive := false, claiming := false, budgets := [(0, ax, led, px)], admitMask := 1, refuseMask := 0,
    cycleAt := none, tableSent := false, table := [], field := [] })

/-- A better claim than this node's has been seen in the last 8 claim intervals: this node's is withdrawn (R198). -/
def withdrawn (s : State) : Bool :=
  match s.hol.best with
  | some b => ranksAbove b (ownClaim s) && decide (s.hol.quiet < 8)
  | none => false

/-- Some port has trained. -/
def someUp (s : State) : Bool := holUp 0 s || holUp 1 s

/-- HOL_CLAIM_SEND: without a master for 3 cycles a node with a trained port claims every 125 µs of its device time (R198). -/
def execHolClaimSend (s : State) : Outcome State Fault Refusal :=
  let n := s.deviceTime.toNat / 125000
  .next (if s.blockOut 12 || decide (holRole s ≠ 0) || !someUp s || decide (s.clock < s.hol.heardAt + 375000) ||
      decide (s.hol.claimAt = some n) then s
    else
      let claims := !withdrawn s
      let s := s.updHol fun h => { h with claimAt := some n, claiming := claims, quiet := h.quiet + 1 }
      if claims then
        launch ⟨3, BitVec.ofNat 8 (strapPrio s * 8), s.word 0x2406, 0, s.fuses.devid, 0, 0, 0, 0, true, false, [], []⟩ [0, 1] s
      else s)

/-- DEVIDs claiming with MSTR = 1: two of them are a strap conflict, raised once (R199). -/
def noteMstr (id : DWord) (s : State) : State :=
  let seen := if strapPrio s = 2 && s.hol.mstrSeen.isEmpty then [s.fuses.devid] else s.hol.mstrSeen
  if seen.contains id then s.updHol fun h => { h with mstrSeen := seen }
  else
    let s := s.updHol fun h => { h with mstrSeen := id :: seen }
    onlyIf (decide (seen.length = 1)) (record 0x4006 0xFFFF 0) s

/-- This node's claim has come round the ring in both directions (R198). -/
def claimReturned (s : State) : Bool := s.hol.returned[(0 : Fin 2)] && s.hol.returned[(1 : Fin 2)]

/-- HOL_CLAIM_RX: a received claim is ranked against that of an electing node or of a master; a better one goes on, this node's own has come
round the ring unless it was turned back (R198, R199, R214). A numbered or refused node lets a claim pass (HOL_FRAME_FORWARD). -/
def execHolClaimRx (p : Fin 2) (f : SyncFrame) (s : State) : Outcome State Fault Refusal :=
  let claim : Nat × DWord := (f.flags.toNat / 8 % 4, f.masterId)
  .next (if s.blockOut 12 || !holUp p s || !f.crcOk || decide (f.type ≠ 3) then s
    else
      let s := onlyIf (decide (claim.1 = 2)) (noteMstr claim.2) s
      if 1 < holRole s then s
      else if claim = ownClaim s then
        let s := onlyIf (!f.folded) (fun s => s.updHol fun h => { h with returned := h.returned.set p true }) s
        if holRole s = 0 && claimReturned s && decide (claim.1 ≠ 0) then becomeMaster false s else s
      else if ranksAbove claim (ownClaim s) then
        let s := onlyIf (decide (holRole s = 1)) startElection s
        sendOn p f (s.updHol fun h => { h with
          claiming := false, quiet := 0, returned := Vector.replicate 2 false,
          best := match h.best with | some b => if ranksAbove claim b then some claim else some b | none => some claim })
      else s)

/-- HOL_CLAIM_TIMEOUT: in a chain, where its claim has not come round, no better claim for 8 claim intervals makes the node master
(R198). -/
def execHolClaimTimeout (s : State) : Outcome State Fault Refusal :=
  .next (if !s.blockOut 12 && decide (holRole s = 0) && someUp s && !claimReturned s && decide (8 ≤ s.hol.quiet) &&
      decide (strapPrio s ≠ 0) then becomeMaster true s else s)

/-- HOL_MASTER_LOST: no cycle sync reached a follower for 3 cycles (R203). -/
def execHolMasterLost (s : State) : Outcome State Fault Refusal :=
  .next (if !s.blockOut 12 && decide (2 ≤ holRole s) && decide (s.hol.heardAt + 375000 ≤ s.clock) then
      let s := startElection (record 0x4005 0xFFFF 0 s)
      onlyIf (s.flag 0x2404 0) enterHoldover s
    else s)

/-! ### The cycle (R194–R196, R200, R201) -/

/-- Video is active: Holros video agreed and shown in a slot. -/
def holVideo (s : State) : Bool := s.feature 15 && (List.finRange 2).any fun k => panelOn k s && decide (slotSrc k s = 2)

/-! ### The space of a half (R197, R212) -/

/-- The bulk of one half of a cycle, in bytes (Table 8.1). -/
def halfBytes : Nat := 74848

/-- The bytes a packet takes: its header, its payload and its CRC-32 (R197). -/
def packetBytes (p : BulkPacket) : Nat := p.payload.length + 20

/-- A packet leaves by a port. -/
def sendPacket (p : BulkPacket) (out : Fin 2) (s : State) : State :=
  (s.updHolPort out fun x => { x with bulk := x.bulk + packetBytes p }).updHol fun h => { h with bulkSent := some (p, out) }

/-- A packet fits what remains of a port's half. -/
def halfFits (p : BulkPacket) (out : Fin 2) (s : State) : Bool := decide (s.hol.ports[out].bulk + packetBytes p ≤ halfBytes)

/-- Where a packet for a port leaves: by the other one where that link is broken (R202). -/
def wayOut (out : Fin 2) (s : State) : Fin 2 := if s.hol.ports[out].broken then otherPort out else out

/-- A packet is forwarded out of a port, or waits there for the next half, behind those that wait (R197). -/
def passPacket (out : Fin 2) (p : BulkPacket) (s : State) : State :=
  let way := wayOut out s
  if s.hol.ports[out].passing.isEmpty && holUp way s && halfFits p way s then sendPacket p way s
  else s.updHolPort out fun x => { x with passing := x.passing ++ [p] }

/-- A half begins: its space is free, and the packets that have waited are forwarded, as many as fit. -/
def halfBegins (s : State) : State :=
  let s := s.updHol fun h => { h with ports := h.ports.map fun x => { x with bulk := 0 } }
  forAll (fun out s =>
    let l := s.hol.ports[out].passing
    forAll (passPacket out) l (s.updHolPort out fun x => { x with passing := [] })) (List.finRange 2) s

/-- A cycle begins: links that are due are taken back into the ring (R202), and the first half of bulk begins. -/
def cycleBegins (s : State) : State :=
  let taken := (List.finRange 2).any fun p => s.hol.ports[p].rejoin
  let s := s.updHol fun h => { h with ports := h.ports.map fun x => { x with broken := x.broken && !x.rejoin, rejoin := false } }
  let whole := (List.finRange 2).all fun p => !s.hol.ports[p].broken
  halfBegins (onlyIf (taken && whole && decide (holRole s = 1)) (setChain false) s)

/-- The slots received twice in a cycle: the newer copy of each that is present. -/
def mergeSlots (new old : List NodeSlot) : List NodeSlot :=
  (List.range 16).map fun i => if (fieldAt absentSlot new i).present then fieldAt absentSlot new i else fieldAt absentSlot old i

/-- The emergency fields received in a cycle: the newer copy of each entry that is valid. -/
def mergeEmergency (new old : List EmergEntry) : List EmergEntry :=
  (List.range 16).map fun i => if (fieldAt noEmergency new i).valid then fieldAt noEmergency new i else fieldAt noEmergency old i

/-- HOL_CYCLE_START: the master launches a cycle on both ports at a multiple of 125 µs (R193, R195, R210). -/
def execHolCycleStart (s : State) : Outcome State Fault Refusal :=
  let n := s.deviceTime.toNat / 125000
  .next (if s.blockOut 12 || decide (holRole s ≠ 1) || decide (s.hol.cycleAt = some n) then s
    else
      let s := cycleBegins (s.countWrap 0x2406 0 32)
      let reset := decide (0 < s.hol.resetLeft)
      let flags := b2n (holChain s) + 2 * b2n reset + 4 * b2n (holVideo s)
      let f : SyncFrame := ⟨1, BitVec.ofNat 8 flags, s.word 0x2406, BitVec.ofNat 64 (n * 125000), s.fuses.devid,
        if reset then s.hol.resetMask else 0, 0, BitVec.ofNat 8 (s.field 0x2400 16 5), 0, true, false,
        List.replicate 16 noEmergency, List.replicate 16 absentSlot⟩
      launch f [0, 1] (s.updHol fun h => { h with
        cycleAt := some n, tableSent := false, resetLeft := h.resetLeft - 1
        table := (writeOwn f s).slots, field := [] }))

/-- The header of a frame changes as it passes: a numbered node counts a hop and, in a cycle sync, adds the link delay and its residence to
ACCUM; a refused or unnumbered node changes nothing, nor does a header in error change, whose CRC covers it alone (R194, R200). The residence is a free value of at most
1.5 µs. -/
def passing (p : Fin 2) (f : SyncFrame) (s : State) : SyncFrame :=
  if !writes s || !f.crcOk then f
  else
    let stay := s.freeVal % 1501
    { f with
      hops := f.hops + 1
      accum := if f.type = 1 then f.accum + BitVec.ofNat 16 (s.field (0x2409 + p.val) 0 16 + stay) else f.accum }

/-- HOL_FRAME_FORWARD: a frame goes on out of the other port, or back where the ring is broken (R194, R200, R202). The master takes its own
frames off the ring, and an electing node judges a claim before it lets it pass (HOL_CLAIM_RX). -/
def execHolFrameForward (p : Fin 2) (f : SyncFrame) (s : State) : Outcome State Fault Refusal :=
  .next (if s.blockOut 12 || !holUp p s || (decide (holRole s = 1) && decide (f.masterId = s.fuses.devid)) ||
      (decide (f.type = 3) && decide (holRole s < 2)) then s
    else sendOn p (passing p f s) (onlyIf (writes s && f.crcOk && decide (f.type = 1)) State.bump s))

/-- The number a follower takes from the first east-bound cycle sync (R200). -/
def takeNumber (p : Fin 2) (f : SyncFrame) (s : State) : State :=
  if s.hol.numbered || s.hol.passive || decide (p ≠ 0) then s
  else
    let n := f.hops.toNat + 1
    if 16 ≤ n then (record 0x4007 0xFFFF n (setRole 3 s)).updHol fun h => { h with passive := true }
    else ((setRole 2 s).setField 0x2400 8 4 n).updHol fun h => { h with numbered := true, budgetLeft := 8 }

/-- The device time a cycle sync gives a follower: MASTER_TIME + ACCUM + the link delay of its port, of the east-bound frame,
or of the west-bound one in chain state when it alone arrives; what it differs from device time by (R201). The west-bound one alone
arrives where neither this cycle nor the one before has brought an east-bound one (DESIGN CHOICE: log entry 152). -/
def syncOffset (p : Fin 2) (f : SyncFrame) (s : State) : Option Int :=
  let alone := decide (s.hol.eastCycle ≠ some f.cycle) && decide (s.hol.eastCycle ≠ some (f.cycle - 1))
  let uses := decide (p = 0) || (holChain s && alone)
  if s.flag 0x2404 0 && uses && decide (holRole s = 2) then
    some ((f.masterTime.toNat + f.accum.toNat + s.field (0x2409 + p.val) 0 16 : Nat) - (s.deviceTime.toNat : Int))
  else none

/-- An emergency entry of another node concerns this node: it holds a member of the entry's group, the entry names one of its axes, or the
whole node and MACH_FOLLOW follows the sender (R439). -/
def concerns (node : Nat) (e : EmergEntry) (s : State) : Bool :=
  let o := e.object.toNat
  if s.hol.numbered && decide (node = holNode s) then false
  else if o = 0xFFFF then s.flag 0x5083 node
  else match o / 4096 with
    | 0 => decide (o < 4)
    | 1 => (ownGroups s).contains (o % 4096)
    | _ => false

/-- A new valid entry is recorded and, where it concerns this node, acted on by category (R207, R221, R439), after an entry in the fault
record: its REASON, its node and its OBJECT (R215; DESIGN CHOICE: log entry 154). The CRC that 0x2411 + 2n shows is a free value: the
spec gives no initial value for CRC-16. -/
def takeEmergency (node : Nat) (e : EmergEntry) (s : State) : State :=
  let at_ : Fin 16 := Fin.ofNat 16 node
  if !e.valid || !e.crcOk || decide (s.hol.seen[at_] = some e.seq) then s
  else
    let s := s.updHol fun h => { h with seen := h.seen.set at_ (some e.seq) }
    let crc := s.freeVal % 65536
    let s := s.bump.setWord (0x2410 + 2 * at_.val)
      (BitVec.ofNat 32 ((128 + e.cat.toNat * 32) * 2 ^ 24 + e.seq.toNat * 2 ^ 16 + e.object.toNat))
    let s := s.setWord (0x2411 + 2 * at_.val) (BitVec.ofNat 32 (e.reason.toNat * 2 ^ 16 + crc))
    if !concerns node e s then s
    else
      let s := record e.reason.toNat at_ e.object.toNat s
      match e.cat.toNat with
      | 0 => orderCat0 e.reason.toNat s
      | 1 => demandStop 1 e.reason.toNat s
      | 2 => demandStop 2 e.reason.toNat s
      | _ => s

/-- The entries of an emergency field, in ascending node order (R219). -/
def takeField (f : SyncFrame) (s : State) : State :=
  forAll (fun (x : EmergEntry × Nat) s => takeEmergency x.2 x.1 s) (f.emerg.take 16).zipIdx s

/-- HOL_EMERGENCY_RX: an emergency entry of a node comes by a port (R204, R207, R439). -/
def execHolEmergencyRx (node : OnPort NodeId) (e : EmergEntry) (s : State) : Outcome State Fault Refusal :=
  .next (if s.blockOut 12 || !holUp node.port s then s else takeEmergency node.it e s)

/-- The master's own cycle sync is back: its slots and its emergency field are what the slot-table frame will hold (R195); one that comes
round the ring tells how many nodes it has, one that was turned back that the ring is broken (R202). In a chain the nodes are those that
have been present. -/
def takeOwnSync (f : SyncFrame) (s : State) : State :=
  let s := s.updHol fun h => { h with table := mergeSlots f.slots h.table, field := mergeEmergency f.emerg h.field }
  let top := (List.range 16).foldl (fun m i => if (fieldAt absentSlot s.hol.table i).present then i + 1 else m) 0
  if f.folded then setChain true (s.setField 0x2400 16 5 (max top (s.field 0x2400 16 5)))
  else
    let s := s.setField 0x2400 16 5 (f.hops.toNat + 1)
    onlyIf ((List.finRange 2).all fun p => !s.hol.ports[p].broken) (setChain false) s

/-- A cycle sync is taken: its emergency field; by the master its own frame, and a better master's; by a follower its number, the ring's
state and the reset mask (R196–R202). -/
def takeSync (p : Fin 2) (f : SyncFrame) (s : State) : State :=
  if s.blockOut 12 || !holUp p s || !f.crcOk || decide (f.type ≠ 1) then s
  else
    let s := takeField f s
    if holRole s = 1 && decide (f.masterId = s.fuses.devid) then takeOwnSync f s
    else if holRole s = 1 && decide (s.fuses.devid.toNat < f.masterId.toNat) then s
    else
      let other := (s.hol.numbered || s.hol.passive) && decide (holMaster s ≠ f.masterId)
      let s := onlyIf (decide (holRole s = 1) || other) startElection s
      let s := takeNumber p f (setMaster f.masterId s)
      let s := onlyIf (decide (holRole s = 0)) (setRole 2) s
      let s := onlyIf (decide (s.word 0x2406 ≠ f.cycle)) cycleBegins s
      let s := ((setChain (f.flags.getLsbD 0) s).setField 0x2400 16 5 f.nodes.toNat).setWord 0x2406 f.cycle
      s.updHol fun h => { h with
        heardAt := s.clock, claiming := false, best := none, quiet := 0
        eastCycle := if p = 0 then some f.cycle else h.eastCycle
        resetMask := if f.flags.getLsbD 1 then f.resetMask else 0 }

/-- The budgets accepted so far stay within the ring's totals with one more (R200, Table 8.6). -/
def budgetFits (l : List (Nat × Nat × Nat × Nat)) (b : Nat × Nat × Nat) : Bool :=
  let sum (f : Nat × Nat × Nat × Nat → Nat) := l.foldl (fun n x => n + f x) 0
  decide (sum (·.2.1) + b.1 ≤ 64) && decide (sum (·.2.2.1) + b.2.1 ≤ 1024) && decide (sum (·.2.2.2) + b.2.2 ≤ 32000000)

/-- The master judges the budget of node n, in the first cycle it appears (R200). -/
def judgeBudget (n : Nat) (x : NodeSlot) (s : State) : State :=
  match x.budget with
  | some b =>
    if !x.present || s.hol.admitMask.getLsbD n || s.hol.refuseMask.getLsbD n then s
    else if budgetFits s.hol.budgets b then
      s.updHol fun h => { h with budgets := h.budgets ++ [(n, b)], admitMask := h.admitMask ||| (1 <<< n) }
    else s.updHol fun h => { h with refuseMask := h.refuseMask ||| (1 <<< n) }
  | none => s

/-- The slots of a cycle are taken, for the cycle start that follows; an absent one is counted and raised (R196). The second half of bulk
begins (Table 8.1). -/
def takeSlots (cycle : Word) (nodes : Nat) (slots : List NodeSlot) (s : State) : State :=
  let absent := (List.range 16).filter fun i => decide (i < nodes) && !(fieldAt absentSlot slots i).present
  let s := forAll (fun i s => record 0x4009 i (cycle.toNat % 65536) (s.countUp 0x240B 0 32)) absent s
  halfBegins (s.updHol fun h => { h with slots := slots.take 16, slotsNew := true })

/-- HOL_SLOT_TABLE_SEND: 62.5 µs after cycle start the master judges the budgets it received, in ascending node order, sends the slot-table
frame with its masks, the emergency entries and the slots as it received them, and takes those slots itself (R195, R196, R200). -/
def execHolSlotTableSend (s : State) : Outcome State Fault Refusal :=
  let start := (s.hol.cycleAt.getD 0) * 125000
  .next (if s.blockOut 12 || decide (holRole s ≠ 1) || s.hol.cycleAt.isNone || s.hol.tableSent ||
      decide (s.deviceTime.toNat < start + 62500) then s
    else
      let s := forAll (fun (x : NodeSlot × Nat) s => if x.2 = 0 then s else judgeBudget x.2 x.1 s) s.hol.table.zipIdx s
      let f : SyncFrame := ⟨2, BitVec.ofNat 8 (b2n (holChain s)), s.word 0x2406, BitVec.ofNat 64 start, s.fuses.devid,
        s.hol.admitMask, 0, BitVec.ofNat 8 (s.field 0x2400 16 5), s.hol.refuseMask, true, false,
        mergeEmergency s.hol.field [], mergeSlots s.hol.table []⟩
      let s := takeSlots f.cycle f.nodes.toNat f.slots s
      launch f [0, 1] (s.updHol fun h => { h with tableSent := true }))

/-- HOL_SLOT_TABLE_RX: the entries of the emergency field, and of the first copy in a cycle the slots and the masks (R196, R200, R219). The
master has taken the slots of its own frame as it sent it. -/
def execHolSlotTableRx (port : Fin 2) (f : SyncFrame) (slots : List NodeSlot) (s : State) : Outcome State Fault Refusal :=
  .next (if s.blockOut 12 || !holUp port s || !f.crcOk || decide (f.type ≠ 2) then s
    else
      let s := takeField f s
      if holRole s = 1 || decide (s.hol.tableOf = some f.cycle) then s
      else
        let s := takeSlots f.cycle f.nodes.toNat slots s
        let s := s.updHol fun h => { h with tableOf := some f.cycle, budgetLeft := h.budgetLeft - 1 }
        if holRole s ≠ 2 then s
        else
          let s := s.updHol fun h => { h with admitMask := f.resetMask, refuseMask := f.accum }
          if s.hol.numbered && f.accum.getLsbD (holNode s) then
            (record 0x4008 (holNode s) 0 (setRole 3 s)).updHol fun h => { h with passive := true }
          else s)

/-! ### Healing and error counters (R202–R206, R213) -/

/-- A link is broken on this side: the node folds back; the master sets the chain flag (R202). -/
def breakLink (p : Fin 2) (s : State) : State :=
  let s := s.updHolPort p fun x => { x with broken := true, tautRun := 0, rejoin := false }
  if holRole s = 1 then setChain true s else s

/-- A port goes down. -/
def portDown (p : Fin 2) (s : State) : State :=
  breakLink p ((s.setField (holPortAddr p) 16 2 3).updHolPort p fun x => { x with locked := false })

/-- HOL_LINK_DOWN: a taut or frayed port has lost lane lock for 4 µs (R202, R205). -/
def execHolLinkDown (p : Fin 2) (s : State) : Outcome State Fault Refusal :=
  .next (if s.blockOut 12 || !holUp p s then s else record 0x4001 p (holData p s) (portDown p s))

/-- HOL_CYCLE_START_MISSING: no cycle start for 2 cycles while the ring runs (R202). -/
def execHolCycleStartMissing (p : Fin 2) (s : State) : Outcome State Fault Refusal :=
  .next (if s.blockOut 12 || !holUp p s || decide (holRole s = 0) then s else breakLink p s)

/-- HOL_RING_REJOIN: a link that has stayed taut for 1,024 cycles is taken back at the next cycle boundary (R202). -/
def execHolRingRejoin (p : Fin 2) (s : State) : Outcome State Fault Refusal :=
  let x := s.hol.ports[p]
  .next (if s.blockOut 12 || !x.broken || decide (holState p s ≠ 0) || decide (x.tautRun < 1024) then s
    else s.updHolPort p fun x => { x with rejoin := true })

/-- HOL_PORT_UP: a down port becomes taut with both counters 0; a running ring takes its link back later (R202, R205). -/
def execHolPortUp (p : Fin 2) (s : State) : Outcome State Fault Refusal :=
  .next (if s.blockOut 12 || decide (holState p s ≠ 3) then s
    else
      let s := s.setWord (holPortAddr p) 0
      let s := onlyIf (!holUp (otherPort p) s) (fun s => s.updHol fun h => { h with heardAt := s.clock }) s
      s.updHolPort p fun x => { x with
        locked := true, goodRun := 0, tautRun := 0, broken := x.broken && decide (holRole s ≠ 0) })

/-- A port measures its link delay (R201). -/
def noteDelay (p : Fin 2) (delay : Option (BitVec 16)) (s : State) : State :=
  match delay with
  | some d => s.setWord (0x2409 + p.val) (d.setWidth 32)
  | none => s

/-- HOL_ERROR_SCORE: a cycle is scored on a port, and its link delay measured; the port frays at 128 and is cut above 255 (R201, R204,
R217). -/
def execHolErrorScore (p : Fin 2) (score : CycleScore) (delay : Option (BitVec 16)) (s : State) : Outcome State Fault Refusal :=
  let a := holPortAddr p
  let rec' := if score.rxBad then holRec p s + 1 else holRec p s - 1
  let tec := if score.txBad then holTec p s + 8 else holTec p s - 1
  .next (if s.blockOut 12 || decide (holState p s = 3) then s
    else
      let s := (noteDelay p delay s).updHolPort p fun x => { x with goodRun := if score.rxBad then 0 else x.goodRun + 1 }
      if holState p s = 2 then s
      else if 255 < rec' || 255 < tec then
        let s := ((s.setField a 0 8 255).setField a 8 8 255).setField a 16 2 2
        record 0x4003 p (holData p s) (breakLink p (s.updHolPort p fun x => { x with goodRun := 0 }))
      else
        let frayed := decide (128 ≤ rec') || decide (128 ≤ tec)
        let was := holState p s
        let s := ((s.setField a 0 8 tec).setField a 8 8 rec').setField a 16 2 (b2n frayed)
        let s := s.updHolPort p fun x => { x with tautRun := if frayed then 0 else x.tautRun + 1 }
        onlyIf (frayed && decide (was = 0)) (record 0x4002 p (holData p s)) s)

/-- RECOVER of a port: accepted of a cut port after 1,024 error-free cycles (R206). -/
def recoverPort (p : Fin 2) (s : State) : State :=
  if decide (holState p s = 2) && decide (1024 ≤ s.hol.ports[p].goodRun) then
    (s.setWord (holPortAddr p) 0).updHolPort p fun x => { x with tautRun := 0, goodRun := 0 }
  else record 0x400C p (holData p s) s

/-! ### HEST_N (R208, R218) -/

/-- HEST_ASSERTED: HEST_N has been low for 1 µs: the hardware gate-off path with a category 0 demand, or a category 1 demand,
as HEST_CAT selects. A core die that is off or held in reset only has the line's level (R50). -/
def execHestAsserted (s : State) : Outcome State Fault Refusal :=
  let low := (s.setFlag 0x2405 3 true).updHol fun h => { h with hestOthers := h.hestOthers || !s.flag 0x2405 2 }
  .next (if !coresPowered s then low
    else if s.hol.hestSeen then s
    else
      let s := record 0x400A 0xFFFF 0 (low.updHol fun h => { h with hestSeen := true })
      if s.field 0x2404 1 2 = 1 then demandStop 1 0x400A s else demandCat0 0xFF (hardOff s))

/-- The line follows who pulls it. -/
def hestLine (s : State) : State :=
  let low := s.flag 0x2405 2 || s.hol.hestOthers
  (s.setFlag 0x2405 3 low).updHol fun h => { h with hestSeen := h.hestSeen && low }

/-- HEST_N_RELEASED: the last other node has released the line. -/
def execHestNReleased (s : State) : Outcome State Fault Refusal :=
  .next (hestLine (s.updHol fun h => { h with hestOthers := false }))

/-- The node's own stop-class cause persists: a latch of its gates, the CAT0 latch, or a stop in progress (R208). -/
def ownCause (s : State) : Bool := anyLatched s || cat0Latch s || s.mach.stop.isSome

/-! ### Bulk (R197, R212) -/

/-- A packet is addressed to this node, or to every node. -/
def bulkMine (p : BulkPacket) (s : State) : Bool :=
  decide (p.dest.toNat = 0xFF) || (s.hol.numbered && decide (p.dest.toNat = holNode s))

/-- A packet that is not for this node alone, and not its own come back, goes on by the way that frames go (R197, R202, R204). -/
def forwardBulk (port : Fin 2) (p : BulkPacket) (s : State) : State :=
  let alone := decide (p.dest.toNat ≠ 0xFF) && bulkMine p s
  let own := s.hol.numbered && decide (p.src.toNat = holNode s)
  onlyIf (!alone && !own) (passPacket (otherPort port) p) s

/-- HOL_BULK_RX: a packet goes on to the other nodes; a message for this node is received; images and slices have rows of their own. A
message of the master that spells an order is one of SOURCE 16 (R92; DESIGN CHOICE: log entry 153). -/
def execHolBulkRx (p : OnPort BulkPacket) (s : State) : Outcome State Fault Refusal :=
  .next (if s.blockOut 12 || !holUp p.port s then s
    else
      let s := forwardBulk p.port p.it s
      let p := p.it
      if !p.crcOk || !bulkMine p s || decide (p.type ≠ 1) then s
      else
        let (o, fits) := payloadOrder 16 0 0 p.payload s
        if p.src = 0 && fits && decide (holRole s = 2) then admitOrder o fits s
        else s.updHol fun h => { h with inbox := h.inbox ++ [p] })

/-- The waiting packet of the highest priority, the first of its priority. -/
def nextBulk (l : List BulkPacket) : Option BulkPacket :=
  ((List.range 8).reverse.map fun k => l.find? fun p => decide (p.prio.val = k)).findSome? id

/-- A program hands a packet to the block: it waits for its place; a message of priority 7 with a stop is this node's emergency entry
(R197, R207). -/
def handBulk (h : BulkPacket × Option EmergEntry) (s : State) : State :=
  let s := s.updHol fun x => { x with outbox := x.outbox ++ [h.1] }
  match h.2 with
  | some e => if h.1.prio = 7 then ownEntry e.cat e.object e.reason s else s
  | none => s

/-- HOL_BULK_SEND: what programs have handed over waits, and the node's next packet leaves by a taut port of an admitted node, where it
fits what remains of the half (R197, R204, R212). A longer packet is not sent (Table 8.6). -/
def execHolBulkSend (handed : OnPort (List (BulkPacket × Option EmergEntry))) (s : State) : Outcome State Fault Refusal :=
  .next (if s.blockOut 12 then s
    else
      let port := handed.port
      let s := forAll handBulk handed.it s
      match nextBulk (s.hol.outbox.filter fun p => decide (p.payload.length ≤ 8192)) with
      | some p =>
        if !holAdmitted s || decide (holState port s ≠ 0) || !halfFits p port s then s
        else sendPacket p port (s.updHol fun h => { h with outbox := h.outbox.erase p })
      | none => s)

/-! ### The rules of the Holros words (R221) -/

/-- The rule of a word of the Holros block: RECOVER, HEST_N, the cascade reset of the master (R206, R208, R210). -/
def holRule (addr : Nat) (val : Word) (s : State) : Rule :=
  match addr with
  | 0x2403 => .accept val fun s => onlyIf (bit val 1) (recoverPort 1) (onlyIf (bit val 0) (recoverPort 0) s)
  | 0x2405 =>
    if bit val 1 && ownCause s then .refuse id
    else .accept val fun s =>
      let s := onlyIf (bit val 1) (fun s => hestLine (s.setFlag 0x2405 2 false)) s
      onlyIf (bit val 0) hestPull s
  | 0x240C =>
    if holRole s = 1 then .accept val fun s => s.updHol fun h => { h with resetMask := val.setWidth 16, resetLeft := 3 }
    else .refuse id
  | _ => .plain val

/-- The Holros block is reset: it releases HEST_N and forgets the ring (Table 2.6). -/
def holOut (s : State) : State :=
  hestLine ({ s with hol := { ({} : Holros) with hestOthers := s.hol.hestOthers, hestSeen := s.hol.hestSeen } })

end Sys2Proof.Machine
end

