-- ==== Sys2Proof/Machine/Boot.lean ====
section
/-! DEFINITION. Boot images (R59–R62, R154, R155): the header of Table 3.7, its judgement by the boot ROM and the KNP
engine, and what the acceptance of an image does. -/
namespace Sys2Proof.Machine

open Host (Outcome)

/-! ### The header -/

/-- A field of the header of Table 3.7, little-endian. -/
def hdr (img : Bytes) (off n : Nat) : Nat := leAt img off n

/-- PAYLOAD_LEN. -/
def imgLen (img : Bytes) : Nat := hdr img 0x08 4
/-- LOAD_BANKS. -/
def imgBanks (img : Bytes) : Nat := hdr img 0x0C 4
/-- REQ_FEATURES. -/
def imgFeatures (img : Bytes) : DWord := BitVec.ofNat 64 (hdr img 0x10 8)
/-- ENTRY_CORES. -/
def imgCores (img : Bytes) : Nat := hdr img 0x1A 1
/-- DRAM_SPEED. -/
def imgSpeed (img : Bytes) : Nat := hdr img 0x1B 1
/-- ENTRY_PC. -/
def imgPc (img : Bytes) : Word := BitVec.ofNat 32 (hdr img 0x1C 4)
/-- SEQUENCE. -/
def imgSequence (img : Bytes) : Nat := hdr img 0x20 4
/-- A signature is present. -/
def imgSigned (img : Bytes) : Bool := decide (hdr img 0x06 2 % 2 = 1)

/-- The number of banks that LOAD_BANKS names. -/
def bankCount (mask : Nat) : Nat := ((List.range 32).filter fun n => mask.testBit n).length

/-- The header keeps its fixed values: MAGIC, HDR_VERSION, the zero bits of FLAGS and of DRAM_SPEED, the zero bytes. -/
def headerFixed (img : Bytes) : Bool :=
  decide (hdr img 0 4 = 0x4B494D47) && decide (hdr img 4 2 = 1) && decide (hdr img 6 2 < 2) &&
    decide (imgSpeed img / 8 % 16 = 0) && decide (hdr img 0x24 28 = 0)

/-- PAYLOAD_LEN, LOAD_BANKS and the image's own length agree. -/
def headerSized (img : Bytes) : Bool :=
  let n := imgLen img
  decide (n % 4 = 0) && decide (4 ≤ n) && decide (n ≤ 2097152) && decide (n ≤ bankCount (imgBanks img) * 131072) &&
    decide (64 + n + (if imgSigned img then 64 else 0) ≤ img.length)

/-- The signature covers the header and the payload under the owner key (R61, R154). -/
def signatureHolds (img : Bytes) (s : State) : Bool :=
  let n := 64 + imgLen img
  imgSigned img && ecdsaVerify s.fuses.ownerKey (img.take n) ((img.drop n).take 64)

/-- The acceptance rule on signatures by life cycle (R155): Sealed and not reopened needs a valid one, Open verifies one that
is present, Blank verifies none. -/
def signatureAllowed (img : Bytes) (s : State) : Bool :=
  match s.fuses.life with
  | .blank => true
  | _ => if sealedNow s || imgSigned img then signatureHolds img s else true

/-- The code of the first rule an image breaks, 0 where it breaks none (MODE_BOOT_STATUS.REJECT, Table 3.10): 1 magic,
version or a fixed field, 2 length or banks, 4 sequence below the rollback floor, 5 stepping, 3 signature. -/
def rejectCode (img : Bytes) (s : State) : Nat :=
  if img.length < 64 then 2
  else if !headerFixed img then 1
  else if !headerSized img then 2
  else if imgSequence img < s.fuses.floor then 4
  else if 0x4201 < hdr img 0x18 2 then 5
  else if !signatureAllowed img s then 3
  else 0

/-! ### Acceptance -/

/-- The payload fills the banks of LOAD_BANKS in ascending order (Table 3.7). -/
def loadBanks (mask : Nat) (payload : Bytes) (s : State) : State :=
  ((List.range 32).filter fun n => mask.testBit n).zipIdx.foldl
    (fun s p => s.storeBytes (p.1 * 0x20000) ((payload.drop (p.2 * 131072)).take 131072)) s

/-- The command code for a full result frame goes to the polder when the core die passes Boot (Table 18.5). -/
def polderCommand (code : Nat) (s : State) : State :=
  onlyIf s.fuses.polder (fun s => { s with polder := { s.polder with cmds := s.polder.cmds ++ [code] } }) s

/-- Admission begins anew: none of its checks is done. -/
def Modes.anew (m : Modes) : Modes := { m with wired := false, started := false, ready := 0, lateRaised := false, failed := [] }

/-- The running images are those of this image (Table 3.2, R89): its payload in its banks, its entry program in
CORE_START_PC of every core, its speed in DRAM_SPEED_MAX of both channels, and the feature set in force. -/
def takeImage (img : Bytes) (set : Option DWord) (s : State) : State :=
  let s := loadBanks (imgBanks img) ((img.drop 64).take (imgLen img)) s
  let s := forAll (fun c s => s.setWord (coreAddr c 2) (codeAddr (imgPc img))) (List.finRange 8) s
  let s := onlyIf (decide (128 ≤ imgSpeed img))
    (fun s => (s.setField 0x1412 0 3 (imgSpeed img)).setField 0x1812 0 3 (imgSpeed img)) s
  let s := (s.setWord 0x001A (BitVec.ofNat 32 (imgSequence img))).setField 0x0014 16 16 (imgSequence img)
  { s with
    agreed := set.getD (imgFeatures img)
    modes := { s.modes with
      entryCores := BitVec.ofNat 8 (imgCores img), entryPc := codeAddr (imgPc img)
      loadBanks := BitVec.ofNat 32 (imgBanks img), reqFeat := imgFeatures img }.anew }

/-- At Admission a channel that stood in self-refresh leaves it and trains anew (R63, R237). -/
def wakeChannel (ch : Fin 2) (s : State) : State :=
  if chanState ch s = 2 && s.modes.mode = .boot then
    setChanState ch 0 ((s.updChan ch fun x => { x with sr := .none }).setFlag (chanAddr ch 0x15) 20 false)
  else s

/-- A boot image is judged (R62): accepted, it is taken and the device passes to Admission; rejected, the reason is recorded
in MODE_BOOT_STATUS and BOOT_IMAGE_REJECTED is raised where `raises`. -/
def judgeBoot (img : Bytes) (slot : Nat) (set : Option DWord) (raises : Bool) (s : State) : Bool × State :=
  let source := s.field 0x0014 0 2
  match rejectCode img s with
  | 0 => (true, polderCommand 1 (enterMode .admission (wakeChannel 1 (wakeChannel 0 (takeImage img set (s.setField 0x0014 2 1 slot))))))
  | code =>
    let s := s.setField 0x0014 4 4 code
    (false, onlyIf raises (record 0xD001 source (slot * 16 + code)) s)

/-- The bytes of an image that chunks spell, newest chunk first; a byte no chunk covers reads 0. -/
def chunkByte (chunks : List (Nat × Bytes)) (i : Nat) : Option Byte :=
  match chunks with
  | [] => none
  | (off, bs) :: r => if off ≤ i ∧ i < off + bs.length then bs[i - off]? else chunkByte r i

/-- One past the last byte the chunks cover. -/
def chunkEnd (chunks : List (Nat × Bytes)) : Nat := chunks.foldl (fun n c => max n (c.1 + c.2.length)) 0

/-- The bytes that chunks spell, up to a length. -/
def chunkBytes (chunks : List (Nat × Bytes)) (n : Nat) : Bytes := (List.range n).map fun i => (chunkByte chunks i).getD 0

/-- Bytes of a pushed image arrive at an offset (R209, R491); beyond the longest image nothing is kept. -/
def pushBytes (off : Nat) (bs : Bytes) (s : State) : State :=
  s.updSec fun x => { x with push := (off, bs.take (2097280 - off)) :: x.push, pushed := 0 }

/-- A pushed image ends: it is judged, and a rejected one is waited for again (R62). -/
def endPush (s : State) : State :=
  let img := chunkBytes s.sec.push (chunkEnd s.sec.push)
  let (ok, s) := judgeBoot img 0 none true s
  s.updSec fun x => { x with push := [], pushed := if ok then 1 else 2 + s.field 0x0014 4 4 }

/-- BOOT_SLOT_READ: the boot ROM has read a quad-SPI slot. The primary slot is judged first; where it is rejected the secondary
is read, and where that is rejected too BOOT_IMAGE_REJECTED is raised and the device stays in Boot (R62). A slot whose
clock is lost is treated as rejected (Table 2.10). -/
def execBootSlotRead (secondary : Bool) (s : State) : Outcome State Fault Refusal :=
  let due := decide (s.modes.mode = .boot) && !s.modes.held && decide (s.field 0x0014 0 2 = 0)
    && !s.modes.slotsEnded && (!secondary || s.modes.slotFailed)
  let img := if s.clockLost.getLsbD 23 then [] else (s.sec.flash[if secondary then (1 : Fin 2) else 0]).getD []
  .next (if due then
    let (ok, s) := judgeBoot img (b2n secondary) none secondary s
    s.updModes fun x => { x with slotFailed := !ok && !secondary, slotsEnded := !ok && secondary }
  else s)

end Sys2Proof.Machine
end

