-- ==== Sys2Proof/Machine/Polder.lean ====
section
/-! DEFINITION. The polder (chapter 18): the measurement chain and the energy registers, demands and pulses, the event log and
the seal, the legal port, saving, the result frames, and the window with its receiver. -/
namespace Sys2Proof.Machine

open Host (Outcome)

/-- The polder changed. -/
def State.updPolder (s : State) (f : Polder → Polder) : State := { s with polder := f s.polder }
/-- A polder channel changed. -/
def State.updPol (s : State) (ch : Fin 4) (f : PolderCh → PolderCh) : State :=
  s.updPolder fun p => { p with chans := modAt p.chans ch f }
/-- The polder is fitted and powered (R452). -/
def polderOn (s : State) : Bool := s.fuses.polder && s.polder.vpol
/-- Polder time in seconds (R458). -/
def polderTime (s : State) : Nat := (s.polder.timeSet + (s.clock - s.polder.timeAt) / 1000000000) % 2 ^ 32
/-- 1 mWh in the units the polder settles energy in. -/
def mWh : Nat := 2 ^ 64

/-! ### The event log (R462) -/

/-- An entry that is never overwritten: a calibration write or the seal. -/
def keptEvent (e : PolderEvent) : Bool := decide (e.code = 0x0011) || decide (e.code = 0x0012)

/-- The log without its oldest entry that may be overwritten; none where every entry is kept. The list is oldest first. -/
def dropOldest : List PolderEvent → Option (List PolderEvent)
  | [] => none
  | e :: es => if keptEvent e then (dropOldest es).map (e :: ·) else some es

/-- The log with room for one entry, newest first. -/
def logRoom (l : List PolderEvent) : Option (List PolderEvent) :=
  if l.length < 1024 then some l else (dropOldest l.reverse).map List.reverse

/-- An event is logged; 0x0010 and 0x0030 raise a wake event where that is enabled (R469). -/
def logEvent (code data : Nat) (s : State) : State :=
  let e : PolderEvent := ⟨BitVec.ofNat 32 (polderTime s), code, data % 65536⟩
  let wakes := s.flag 0x0015 1 && (decide (code = 0x0010) || decide (code = 0x0030))
  match logRoom s.polder.log with
  | some l => s.updPolder fun p => { p with log := e :: l, events := satInc 32 p.events, wake := p.wake || wakes }
  | none => s.updPolder fun p => { p with wake := p.wake || wakes }

/-! ### Identification and state (R453, R464) -/

/-- The calibration parameters the identification covers. -/
def calParams (s : State) : List Int :=
  s.polder.chans.toList.flatMap (fun c => [c.cal.offV, c.cal.offI, (c.cal.gainV : Int), c.cal.gainI, c.cal.kDiv, c.cal.rSh,
    c.cal.source, c.cal.const, c.cal.creep]) ++ [(s.polder.p1 : Int)]

/-- The identification CRC is computed; a result that differs from the one stored at sealing enters fail (R464). `intact`:
firmware and parameters read as they were written. -/
def checkIdent (intact : Bool) (s : State) : State :=
  let crc := (if intact then Config.polderCrc (calParams s) else Config.polderBadCrc (calParams s)) % 65536
  let s := s.updPolder fun p => { p with ident := crc, identAt := s.clock }
  if s.polder.phase = .sealed && crc ≠ s.polder.stored then
    (logEvent 0x0030 0 s).updPolder fun p => { p with phase := .fail }
  else s

/-- POLDER_INTEGRITY_CHECK: every 24 h (R464). -/
def execPolderIntegrityCheck (intact : Bool) (s : State) : Outcome State Fault Refusal :=
  .next (if polderOn s && decide (s.polder.identAt + 86400000000000 ≤ s.clock) then checkIdent intact s else s)

/-! ### The measurement chain (R454–R456) -/

/-- A converter code clipped to ± full scale. -/
def clipCode (x : Int) : Int := clampI (-8388608) 8388607 x

/-- The sums over a block: of the products, of the voltages and of the currents, each in codes after the offset (R454). -/
def blockSums (cal : PolderCal) (xs : PolderSamples) : Int × Int × Int :=
  xs.foldl (fun (p, v, i) x =>
    let a := clipCode x.1 - cal.offV
    let b := clipCode x.2 - cal.offI
    (p + a * b, v + a, i + b)) (0, 0, 0)

/-- The net block energy in 2⁻⁶⁴ mWh (R454, R455), towards zero: 2²³ codes are 1 V and 250 mV, gains are Q2.22, K_DIV counts
thousandths and R_SH microohms. -/
def blockEnergy (cal : PolderCal) (sum : Int) : Int :=
  Int.tdiv (sum * cal.gainV * cal.gainI * cal.kDiv * 250) (2 ^ 26 * 28800 * cal.rSh : Nat)

/-- Full-scale power in mW (R454). -/
def fullScale (cal : PolderCal) : Nat := cal.kDiv * 250000 / cal.rSh

/-- The block's power lies below CREEP × P_fs (R455). -/
def belowCreep (cal : PolderCal) (e : Int) : Bool :=
  decide (e.natAbs * 36000 * 1000000 * cal.rSh < cal.creep * cal.kDiv * 250000 * mWh)

/-- Energy added to a register with its remainder; the register passes from 999,999,999,999,999 mWh to 0 (R455). -/
def addEnergy (reg rem e : Nat) : Nat × Nat × Bool :=
  let t := rem + e
  let v := reg + t / mWh
  (v % 10 ^ 15, t % mWh, decide (10 ^ 15 ≤ v))

/-- The mean power of the last second in mW, signed: of the blocks kept (R458). -/
def meanPower (c : PolderCh) : Int :=
  roundDivI ((c.blocks.foldl (fun n b => n + b.1) 0) * 36000) (mWh * max 1 c.blocks.length)

/-- The mean voltage of the last second in 10 mV, and the mean current in mA. -/
def meanVI (c : PolderCh) : Int × Int :=
  let n := max 1 (c.blocks.foldl (fun n b => n + b.2.2.2) 0)
  let v := c.blocks.foldl (fun n b => n + b.2.1) 0
  let i := c.blocks.foldl (fun n b => n + b.2.2.1) 0
  (roundDivI (v * c.cal.gainV * c.cal.kDiv) (2 ^ 45 * 10 * n),
   roundDivI (i * c.cal.gainI * 250000000) (2 ^ 45 * c.cal.rSh * n))

/-- The energy that the pulse output counts (R459, parameter 6). -/
def pulseEnergy (cal : PolderCal) (e : Int) : Nat :=
  match cal.source with
  | 0 => e.toNat
  | 1 => (-e).toNat
  | _ => e.natAbs

/-- The energy of one pulse (R459): 100, 1,000 or 10,000 mWh. -/
def pulseUnit (cal : PolderCal) : Nat := (match cal.const with | 0 => 100 | 1 => 1000 | _ => 10000) * mWh

/-- BACKLOG: a pulse is owed that the rate limit holds (R459). -/
def noteBacklog (ch : Fin 4) (s : State) : State :=
  s.updPol ch fun c => { c with backlog := decide (pulseUnit c.cal ≤ c.owed) &&
    (match c.pulseAt with | some t => decide (s.clock < t + 20000000) | none => false) }

/-- A settled block is registered in the direction of its sign (R455, R475). -/
def registerEnergy (ch : Fin 4) (e : Int) (s : State) : State :=
  let c := s.polder.chans[ch]
  let (v, r, wrapped) := if 0 ≤ e then addEnergy c.energy.fwd c.energy.fRem e.toNat else addEnergy c.energy.reg c.energy.rRem e.natAbs
  let s := onlyIf wrapped (logEvent 0x0021 (ch.val + (if 0 ≤ e then 0 else 256))) s
  noteBacklog ch (s.updPol ch fun c =>
    let owed := c.owed + pulseEnergy c.cal e
    if 0 ≤ e then { c with energy := { c.energy with fwd := v, fRem := r }, demFwd := c.demFwd + e.toNat, owed := owed }
    else { c with energy := { c.energy with reg := v, rRem := r }, demReg := c.demReg + e.natAbs, owed := owed })

/-- The wake on rising power: the 1 s mean exceeds 5 % of P_fs after at least 60 s below it (R469). -/
def notePower (ch : Fin 4) (s : State) : State :=
  let c := s.polder.chans[ch]
  if meanPower c * 20 > fullScale c.cal then
    let rose := match c.lowAt with | some t => decide (t + 60000000000 ≤ s.clock) | none => false
    let s := onlyIf (rose && s.flag 0x0015 1) (fun s => s.updPolder fun p => { p with wake := true }) s
    s.updPol ch fun c => { c with lowAt := none }
  else if c.lowAt.isNone then s.updPol ch fun c => { c with lowAt := some s.clock } else s

/-- A channel's 100 ms block settles (R455, R456): in fail the registers are frozen. -/
def settleBlock (ch : Fin 4) (xs : PolderSamples) (s : State) : State :=
  let c := s.polder.chans[ch]
  let (p, v, i) := blockSums c.cal xs
  let e := blockEnergy c.cal p
  let clipped := xs.any fun x => decide (clipCode x.1 ≠ x.1) || decide (clipCode x.2 ≠ x.2)
  let creep := belowCreep c.cal e
  let s := onlyIf (clipped && !c.clipped) (logEvent 0x0020 ch.val) s
  let s := s.updPol ch fun c => { c with
    blocks := ((e, v, i, xs.length) :: c.blocks).take 10, clipped := clipped, creeping := creep }
  let s := if creep || decide (s.polder.phase = .fail) then s else registerEnergy ch e s
  notePower ch s

/-- POLDER_BLOCK: a 100 ms block of the four channels settles (R455). -/
def execPolderBlock (a b c d : PolderSamples) (s : State) : Outcome State Fault Refusal :=
  let due := match s.polder.blockAt with | some t => decide (t + 100000000 ≤ s.clock) | none => true
  .next (if polderOn s && due then
    let s := s.updPolder fun p => { p with blockAt := some s.clock }
    settleBlock 3 d (settleBlock 2 c (settleBlock 1 b (settleBlock 0 a s)))
  else s)

/-- POLDER_PULSE: a pulse for owed energy, 10 ms high and 10 ms apart; none in fail (R453, R459). -/
def execPolderPulse (ch : Fin 4) (s : State) : Outcome State Fault Refusal :=
  let c := s.polder.chans[ch]
  let due := match c.pulseAt with | some t => decide (t + 20000000 ≤ s.clock) | none => true
  .next (if polderOn s && due && s.polder.phase ≠ .fail && decide (pulseUnit c.cal ≤ c.owed) then
    noteBacklog ch (s.updPol ch fun c => { c with owed := c.owed - pulseUnit c.cal, pulses := c.pulses + 1, pulseAt := some s.clock })
  else s)

/-- POLDER_DEMAND_END: a 15-minute period ends at a whole quarter-hour of polder time; its means are kept (R458). -/
def execPolderDemandEnd (s : State) : Outcome State Fault Refusal :=
  let q := polderTime s / 900
  .next (if polderOn s && decide (q ≠ s.polder.quarter) then
    forAll (fun ch s => s.updPol ch fun c => { c with
      lastFwd := c.demFwd * 4 / mWh, lastReg := c.demReg * 4 / mWh, demFwd := 0, demReg := 0 }) (List.finRange 4)
      (s.updPolder fun p => { p with quarter := q })
  else s)

/-! ### The legal port (R460, R461, R465) -/

/-- The data set of a readout (Table 18.1) by a number for each row, the channel, and the value. -/
def dataSet (s : State) : List (Nat × Nat × Nat) :=
  let p := s.polder
  [(0, 0, Config.polderFirmware % 65536 * 65536 + p.ident), (1, 0, p.seals),
   (2, 0, match p.phase with | .unsealed => 0 | .sealed => 1 | .fail => 2)] ++
  (List.finRange 4).flatMap (fun ch =>
    let c := p.chans[ch]
    [(3, ch.val, c.energy.fwd), (4, ch.val, c.energy.reg), (5, ch.val, c.lastFwd), (6, ch.val, c.lastReg)]) ++
  [(7, 0, polderTime s)] ++ p.log.zipIdx.map fun e => (8, e.2, e.1.time.toNat * 2 ^ 32 + e.1.code * 2 ^ 16 + e.1.data)

/-- POLDER_READOUT: the data set is delivered on the legal port; nothing of the polder changes (R460, R472). -/
def execPolderReadout (s : State) : Outcome State Fault Refusal :=
  .next (if polderOn s then s.updPolder fun p => { p with readout := dataSet s } else s)

/-- The programming lockout runs: 1 h of polder time (R461). -/
def progLocked (s : State) : Bool :=
  match s.polder.lockAt with
  | some t => decide ((polderTime s + 2 ^ 32 - t) % 2 ^ 32 < 3600)
  | none => false

/-- POLDER_PROG_ENTER: password P1 enters programming mode; three wrong ones lock it, and the lockout is logged (R461). -/
def execPolderProgEnter (password : Nat) (s : State) : Outcome State Fault Refusal :=
  .next (if !polderOn s || progLocked s then s
    else if password = s.polder.p1 then s.updPolder fun p => { p with prog := true, wrong := 0 }
    else if s.polder.wrong + 1 < 3 then s.updPolder fun p => { p with wrong := p.wrong + 1 }
    else (logEvent 0x0014 0 s).updPolder fun p => { p with wrong := 0, prog := false, lockAt := some (polderTime s) })

/-- POLDER_LOCKOUT_EXPIRY: the lockout ends (R461). -/
def execPolderLockoutExpiry (s : State) : Outcome State Fault Refusal :=
  .next (if polderOn s && s.polder.lockAt.isSome && !progLocked s then s.updPolder fun p => { p with lockAt := none } else s)

/-- A calibration parameter with its new value, where the number and the value are of Table 18.3. -/
def calValue (param : Nat) (val : Int) (c : PolderCal) : Option PolderCal :=
  let n := val.toNat
  let u := fun (hi : Nat) (x : PolderCal) => if 0 ≤ val ∧ n ≤ hi then some x else none
  let sgn := fun (x : PolderCal) => if -8388608 ≤ val ∧ val ≤ 8388607 then some x else none
  match param with
  | 0 => sgn { c with offV := val }
  | 1 => sgn { c with offI := val }
  | 2 => u (2 ^ 24 - 1) { c with gainV := n }
  | 3 => u (2 ^ 24 - 1) { c with gainI := n }
  | 4 => u (2 ^ 32 - 1) { c with kDiv := n }
  | 5 => u (2 ^ 32 - 1) { c with rSh := n }
  | 6 => u 2 { c with source := n }
  | 7 => u 2 { c with const := n }
  | 8 => if 100 ≤ n then u 10000 { c with creep := n } else none
  | _ => none

/-- Calibration is accepted: programming mode, unsealed, CALEN high (R461, R465). -/
def calOpen (s : State) : Bool := polderOn s && s.polder.prog && decide (s.polder.phase = .unsealed) && s.polder.calen

/-- The seal counter counts one (R463). -/
def countSeal (s : State) : State := s.updPolder fun p => { p with seals := p.seals + 1 }

/-- A calibration write that the port accepts: logged first, counted, then in effect (R462, R463, R465). -/
def writeCal (param : Nat) (f : State → State) (s : State) : State := f (countSeal (logEvent 0x0011 param s))

/-- POLDER_CAL_WRITE: a parameter of Table 18.3; refused where it would overwrite a calibration entry of the log (R462). -/
def execPolderCalWrite (ch : Fin 4) (param : Fin 16) (val : Int) (s : State) : Outcome State Fault Refusal :=
  .next (if !calOpen s || (logRoom s.polder.log).isNone then s
    else if param.val = 9 then
      (if 0 ≤ val ∧ val < 100000000 then writeCal 9 (fun s => s.updPolder fun p => { p with p1 := val.toNat }) s else s)
    else if param.val = 15 then
      writeCal 15 (fun s => s.updPol ch fun c => { c with energy := {} }) s
    else match calValue param.val val s.polder.chans[ch].cal with
      | some cal => writeCal param.val (fun s => s.updPol ch fun c => { c with cal := cal }) s
      | none => s)

/-- POLDER_SEAL: the identification CRC is stored, the fuse blown and the seal logged (R465). -/
def execPolderSeal (s : State) : Outcome State Fault Refusal :=
  .next (if !calOpen s then s
    else
      let s := logEvent 0x0012 s.polder.seals s
      let crc := Config.polderCrc (calParams s) % 65536
      s.updPolder fun p => { p with phase := .sealed, stored := crc, ident := crc })

/-- POLDER_TIME_SET: polder time is set, unsealed and sealed alike, and logged with the low 16 bits of the change (R461). -/
def execPolderTimeSet (time : Word) (s : State) : Outcome State Fault Refusal :=
  .next (if !polderOn s || !s.polder.prog || s.polder.phase = .fail then s
    else
      let change := (time - BitVec.ofNat 32 (polderTime s)).toNat
      (logEvent 0x0013 change s).updPolder fun p => { p with timeSet := time.toNat, timeAt := s.clock })

/-- POLDER_CALEN_RISE: counted and logged with the state at that moment (R463, R472). -/
def execPolderCalenRise (s : State) : Outcome State Fault Refusal :=
  let phase := match s.polder.phase with | .unsealed => 0 | .sealed => 1 | .fail => 2
  .next (if !s.fuses.polder || s.polder.calen then s
    else
      let s := s.updPolder fun p => { p with calen := true }
      if s.polder.vpol then countSeal (logEvent 0x0010 phase s) else s)

/-- POLDER_CALEN_FALL: CALEN goes low (R461). -/
def execPolderCalenFall (s : State) : Outcome State Fault Refusal :=
  .next (if s.fuses.polder then s.updPolder fun p => { p with calen := false } else s)

/-! ### Saving and supply (R466) -/

/-- Registers and remainders are saved. -/
def savePolder (s : State) : State :=
  forAll (fun ch s => s.updPol ch fun c => { c with saved := c.energy }) (List.finRange 4)
    (s.updPolder fun p => { p with saveAt := s.clock })

/-- POLDER_SAVE: every 60 s (R466). -/
def execPolderSave (s : State) : Outcome State Fault Refusal :=
  .next (if polderOn s && decide (s.polder.saveAt + 60000000000 ≤ s.clock) then savePolder s else s)

/-- POLDER_VPOL_DOWN: VPOL falls below the save threshold. A save that completes is logged; one that does not leaves the last
one, which the next VPOL up logs (R466). -/
def execPolderVpolDown (saved : Bool) (s : State) : Outcome State Fault Refusal :=
  .next (if !polderOn s then s.updPolder fun p => { p with vpol := false }
    else
      let t := polderTime s
      let s := if saved then savePolder (logEvent 0x0002 0 s) else s
      s.updPolder fun p => { p with vpol := false, incomplete := !saved, prog := false, frame := none, timeSet := t, cmds := [] })

/-- VPOL comes up: what was saved stands, the polder logs it and checks its identification (R464, R466). -/
def polderUp (intact : Bool) (s : State) : State :=
  let lost := s.polder.incomplete
  let s := forAll (fun ch s => s.updPol ch fun c => { c with
    energy := c.saved, blocks := [], clipped := false, creeping := false, pulseAt := none, lowAt := some s.clock }) (List.finRange 4) s
  let s := s.updPolder fun p => { p with
    vpol := true, incomplete := false, timeAt := s.clock, saveAt := s.clock, blockAt := none, sentAt := none }
  let s := onlyIf lost (logEvent 0x0003 0) s
  checkIdent intact (logEvent 0x0001 0 s)

/-- POLDER_VPOL_UP (R464). -/
def execPolderVpolUp (intact : Bool) (s : State) : Outcome State Fault Refusal :=
  .next (if s.polder.vpol then s
    else if s.fuses.polder then polderUp intact s else s.updPolder fun p => { p with vpol := true })

/-! ### Result frames and the window (R467, R468, R476) -/

/-- The words of a channel in a frame. -/
def channelWords (ch : Fin 4) (s : State) : List (Nat × Word) :=
  let c := s.polder.chans[ch]
  let base := 0x5810 + 12 * ch.val
  let w := fun (off : Nat) (v : Nat) => (base + off, (BitVec.ofNat 32 v : Word))
  let (v, i) := meanVI c
  [w 0 c.energy.fwd, w 1 (c.energy.fwd / 2 ^ 32), w 2 c.energy.reg, w 3 (c.energy.reg / 2 ^ 32),
   (base + 4, wordOf (meanPower c)), w 5 c.lastFwd, w 6 c.lastReg, (base + 7, wordOf v), (base + 8, wordOf i),
   w 9 (b2n c.creeping + 2 * b2n c.clipped + 4 * b2n c.backlog), (base + 10, c.pulses),
   w 11 (c.cal.const * 16 + c.cal.source * 256)]

/-- A result frame: the value of every window word (Table 18.4). -/
def resultFrame (s : State) : List (Nat × Word) :=
  let p := s.polder
  let phase := match p.phase with | .unsealed => 0 | .sealed => 1 | .fail => 2
  let beyond := (List.finRange 4).any fun ch => p.chans[ch].clipped
  let newest := p.log.head?
  let w := fun (a v : Nat) => (a, (BitVec.ofNat 32 v : Word))
  [w 0x5800 (p.seq % 65536 * 65536 + phase * 256 + b2n p.calen * 64 + b2n beyond * 16),
   w 0x5801 (Config.polderFirmware % 65536 * 65536 + p.ident), w 0x5802 p.seals, w 0x5803 p.events,
   w 0x5804 ((newest.map fun e => e.code * 65536 + e.data).getD 0), (0x5805, (newest.map (·.time)).getD 0),
   w 0x5806 (polderTime s)] ++ (List.finRange 4).flatMap fun ch => channelWords ch s

/-- The polder sends a frame. -/
def sendFrame (s : State) : State :=
  s.updPolder fun p => { p with frame := some (resultFrame s), seq := p.seq + 1, sentAt := some s.clock }

/-- POLDER_FRAME_SEND: a frame every 10 ms, or every second after code 0x2 (R467, R468). -/
def execPolderFrameSend (s : State) : Outcome State Fault Refusal :=
  let gap := if s.polder.slow then 1000000000 else 10000000
  let due := match s.polder.sentAt with | some t => decide (t + gap ≤ s.clock) | none => true
  .next (if polderOn s && due then sendFrame s else s)

/-- A code on the command path is taken; any code but those of Table 18.5 is discarded and logged (R468). -/
def takeCode (code : Nat) (f : State → State) (s : State) : State :=
  if !polderOn s || !s.polder.cmds.contains code then s
  else
    let s := s.updPolder fun p => { p with cmds := p.cmds.erase code }
    if code = 1 || code = 2 || code = 3 then f s else logEvent 0x0040 code s

/-- POLDER_CMD_FULL_FRAME: code 0x1 sends a full frame at once and ends the low rate (Table 18.5). -/
def execPolderCmdFullFrame (s : State) : Outcome State Fault Refusal :=
  .next (takeCode 1 (fun s => sendFrame (s.updPolder fun p => { p with slow := false })) s)

/-- POLDER_CMD_SLOW: code 0x2 lowers the frame rate to one per second (Table 18.5). -/
def execPolderCmdSlow (s : State) : Outcome State Fault Refusal :=
  .next (takeCode 2 (fun s => s.updPolder fun p => { p with slow := true }) s)

/-- POLDER_CMD_RESEND: code 0x3 sends the next frame at once (Table 18.5). -/
def execPolderCmdResend (s : State) : Outcome State Fault Refusal := .next (takeCode 3 sendFrame s)

/-- The window receiver runs: its block is not out, and the core die is up. -/
def windowRuns (s : State) : Bool :=
  s.fuses.polder && !s.blockOut 21 && !s.modes.held && !(match s.modes.mode with | .dormant | .standby => true | _ => false)

/-- A fault of the window is raised once while its cause is shown (R476). -/
def sayOnce (bit_ : Nat) (shown : Bool) (f : State → State) (s : State) : State :=
  let was := s.polder.said.getLsbD bit_
  let s := onlyIf (shown && !was) f s
  s.updPolder fun p => { p with said := if shown then p.said ||| ((1 : BitVec 6) <<< bit_) else p.said &&& ~~~((1 : BitVec 6) <<< bit_) }

/-- The faults a frame's contents raise (Table 18.6). -/
def judgeFrame (s : State) : State :=
  let live := !(match s.modes.mode with | .boot | .admission => true | _ => false)
  let phase := s.field 0x5800 8 2
  let s := sayOnce 0 (live && decide (phase = 0)) (record 0xB001 0xFFFF 0) s
  let s := sayOnce 1 (decide (phase = 2)) (record 0xB002 0xFFFF 0) s
  let s := forAll (fun (ch : Fin 4) s =>
    sayOnce (2 + ch.val) (s.flag (0x5819 + 12 * ch.val) 1) (record 0xB004 ch.val 0) s) (List.finRange 4) s
  let count := (s.word 0x5802).toNat
  let rose := match s.polder.sealRx with | some n => decide (n < count) | none => false
  (onlyIf rose (record 0xB005 0xFFFF (count % 65536)) s).updPolder fun p => { p with sealRx := some count }

/-- POLDER_FRAME_RX: a frame with a valid CRC is copied into the window at one grant and ends STALE; one with a CRC error is
discarded and counted, and code 0x3 goes out (R22, R467, R476). DESIGN CHOICE: a frame with a CRC error counts neither for the
100 ms of silence nor for POLDER_UP (R21, R22). -/
def execPolderFrameRx (crcOk : Bool) (s : State) : Outcome State Fault Refusal :=
  .next (match s.polder.frame with
    | none => s
    | some f =>
      let s := s.updPolder fun p => { p with frame := none }
      if !windowRuns s then s
      else if crcOk then
        judgeFrame ((forAll (fun (w : Nat × Word) s => s.setWord w.1 w.2) f (s.setFlag 0x0008 2 true)).updPolder fun p => { p with rxAt := s.clock, silent := false })
      else polderCommand 3 (record 0xB003 0xFFFF 0 (s.countUp 0x5807 0 32)))

/-- The window words are marked stale. -/
def markStale (s : State) : State := s.setFlag 0x5800 2 true

/-- POLDER_CHANNEL_SILENT: on the KX1640-M no result frame has arrived for 100 ms; raised once until a frame arrives (R21). -/
def execPolderChannelSilent (s : State) : Outcome State Fault Refusal :=
  .next (if windowRuns s && !s.polder.silent && decide (s.polder.rxAt + 100000000 ≤ s.clock)
    then record 0xB010 0xFFFF 0 (markStale ((s.setFlag 0x0008 2 false).updPolder fun p => { p with silent := true })) else s)

/-! ### What a program reads of the window (R467) -/

/-- A window word as read: 0 on the KX1640-N; without POLDER_WINDOW only POL_STATUS, with GATED; the HI words as latched. -/
def windowWord (addr : Nat) (s : State) : Word :=
  if !s.fuses.polder then 0
  else
    let gated := !s.agreed.getLsbD 17
    if addr = 0x5800 then
      setBit (setBit (s.word addr) 7 gated) 0 true
    else if gated then 0
    else if 0x5810 ≤ addr && addr < 0x5840 then
      let h := s.polder.high[(Fin.ofNat 4 ((addr - 0x5810) / 12) : Fin 4)]
      match (addr - 0x5810) % 12 with
      | 1 => h.1
      | 3 => h.2
      | _ => s.word addr
    else s.word addr

/-- A read of FWD_LO or REG_LO latches the matching HI word of the same frame (R467, R471). -/
def windowLatch (addr : Nat) (s : State) : State :=
  if 0x5810 ≤ addr && addr < 0x5840 then
    let ch : Fin 4 := Fin.ofNat 4 ((addr - 0x5810) / 12)
    let hi := s.word (addr + 1)
    match (addr - 0x5810) % 12 with
    | 0 => s.updPolder fun p => { p with high := modAt p.high ch fun h => (hi, h.2) }
    | 2 => s.updPolder fun p => { p with high := modAt p.high ch fun h => (h.1, hi) }
    | _ => s
  else s

end Sys2Proof.Machine
end

