-- ==== Sys2Proof/Machine/Scan.lean ====
section
/-! DEFINITION. Scan-out and panel links (chapter 12): the frame grid and FSYNC, selection and frame starts, class E upload
and refresh, class L lines, KSL training, Quiet, and the rules and budgets of the scan words. -/
namespace Sys2Proof.Machine

open Host (Outcome)

/-! ### The frame grid (R293–R295) -/

/-- SCAN_PERIOD, in 1/64 ns. -/
def scanPeriod (s : State) : Nat := (s.word 0x2841).toNat
/-- V_n of the grid (R293). -/
def gridV (n : Nat) (s : State) : Nat := s.addr64 0x2842 + n * scanPeriod s / 64
/-- The last n whose V_n has come; none before the grid's origin. -/
def gridIndex (s : State) : Option Nat :=
  let now := s.deviceTime.toNat
  let o := s.addr64 0x2842
  if now < o || scanPeriod s = 0 then none else some (((now - o + 1) * 64 - 1) / scanPeriod s)
/-- Frames follow FSYNC edges: SYNC 1. -/
def fsyncIn (s : State) : Bool := decide (s.field 0x2840 8 2 = 1)
/-- A field of a scan word in effect: as written, until the first selection point. -/
def State.scanField (s : State) (a lo n : Nat) : Nat := if s.panel.selected.isNone then s.field a lo n else s.shownField a lo n
/-- The predicted P_n of the next frame (R295), in 1/64 ns. -/
def predicted (s : State) : Nat := 64 * s.panel.vAt + s.panel.vFrac + scanPeriod s
/-- A device time lies within ±5 % of T_f of the prediction (R295). -/
def inWindow (t : Nat) (s : State) : Bool :=
  decide (20 * predicted s ≤ 20 * 64 * t + scanPeriod s) && decide (20 * 64 * t ≤ 20 * predicted s + scanPeriod s)
/-- VT: lines per frame, at least 1. -/
def linesTotal (s : State) : Nat := max 1 (s.scanField 0x2861 0 12)

/-- M, E, S, Nr, DIV and D of class E. -/
def muxM (s : State) : Nat := s.field 0x2850 8 6 + 1
/-- E: class E lanes. -/
def lanesE (s : State) : Nat := 2 ^ s.field 0x2850 0 3
/-- S: segments. -/
def segsS (s : State) : Nat := 2 ^ s.field 0x2850 16 3
/-- Nr: refreshes per frame. -/
def refreshes (s : State) : Nat := s.shownField 0x2851 24 6 + 1

/-- Scanning can run: the engine not out, a geometry set, past Admission, and class L agreed where selected (R310). -/
def scanReady (s : State) : Bool :=
  !s.blockOut 13 && decide (0 < panelW s) && decide (0 < panelH s) && (!classL s || s.feature 6) &&
    (match s.modes.mode with | .dormant | .standby | .boot | .admission => false | _ => true)

/-- SCAN_STATUS.STATE set. -/
def setScanState (v : Nat) (s : State) : State := s.setField 0x2844 0 3 v

/-- Q: the divisor of Quiet (R308). -/
def quietQ (s : State) : Nat := match s.scanField 0x2840 4 2 with | 0 => 1 | 1 => 2 | _ => 4
/-- Frame n is processed (R308). -/
def frameProcessed (n : Nat) (s : State) : Bool :=
  decide (s.modes.mode ≠ .quiet) || quietQ s = 1 || decide (n % quietQ s = 0)

/-! ### The selection point (R270, R283, R294) -/

/-- The frame whose selection point has come and that has not been selected for: class E selects one frame before V_n,
class L at the start of the last line period before V_n. A class E frame is selected for once the frame before it has started, which ends
its upload (R312). -/
def dueSelection (s : State) : Option Nat :=
  let now := s.deviceTime.toNat
  let lastLine := (linesTotal s - 1) * scanPeriod s / (64 * linesTotal s)
  let m := if fsyncIn s then
      match s.panel.n with
      | some n => if classL s && now < s.panel.vAt + lastLine then none else some (n + 1)
      | none => if classL s then some 0 else none
    else match gridIndex s with
      | some g =>
        if classL s then if now < gridV g s + lastLine then none else some (g + 1)
        else if s.panel.n.any fun k => decide (k < g) then none else some (g + 1)
      | none =>
        if classL s && decide (64 * (s.addr64 0x2842 + lastLine) ≤ 64 * now + scanPeriod s) then some 0 else none
  match m with
  | some n => if s.panel.selected.any fun k => decide (n ≤ k) then none else some n
  | none => none

/-- A Holros frame whose PRESENT_TIME has come without all its slices (R211). -/
def lateSlices (k : Fin 2) (s : State) : State :=
  let x := s.panel.slots[k]
  match slotSrc k s, x.cur with
  | 2, some b =>
    if (x.bufs[b]).capture ≤ s.deviceTime.toNat then frameLate k s else s
  | _, _ => s

/-- A slot shows its newest eligible complete buffer (R270), and Holros video only while HOLROS_VIDEO is agreed and the node is admitted to
the ring (R200, R211). -/
def selectBuffer (k : Fin 2) (s : State) : State :=
  let x := s.panel.slots[k]
  let ok (b : Fin 4) : Bool := match (x.bufs[b]).state with
    | .complete t => decide (t ≤ s.deviceTime.toNat)
    | _ => false
  let best := ((List.finRange 4).filter ok).foldl (fun m b => match m with
    | some n => if (x.bufs[n]).order < (x.bufs[b]).order then some b else m
    | none => some b) none
  if slotSrc k s = 2 && (!holAdmitted s || !s.feature 15) then
    (s.updPanelSlot k fun x => { x with shown := none }).setField (slotWord k 6) 8 2 0
  else match best with
  | some b => (s.updPanelSlot k fun x => { x with shown := some b }).setField (slotWord k 6) 8 2 b
  | none => s

/-- The slot words that come into effect change a slot's frame: it starts without one, and its sleep is counted from now (R267, R282, R285,
R292). A frame that is being received is kept where only its size in the panel changes. -/
def reshapeSlot (k : Fin 2) (s : State) : State :=
  let same (off : Nat) : Bool := decide (s.word (slotWord k off) = s.shownWord (slotWord k off))
  if same 0 && same 2 then s
  else
    let x := s.panel.slots[k]
    let s := (emptySlot k s).updPanelSlot k fun y => { y with doneAt := s.clock, asleep := false }
    onlyIf (same 0) (fun s => s.updPanelSlot k fun y => { y with
      cur := x.cur, blocks := x.blocks, broken := x.broken
      bufs := match x.cur with
        | some b => modAt y.bufs b fun _ => x.bufs[b]
        | none => y.bufs }) s

/-- The table bank named by NEXT becomes the active one (R283); a NEXT that was written in the 8 ns slot of the frame start waits for the
following one (R287). -/
def switchTables (s : State) : State :=
  let next := s.field 0x2807 16 5
  let bank : BankId := Fin.ofNat 32 next
  let late := s.panel.nextAt.any fun t => decide (t / 8 = s.deviceTime.toNat / 8)
  if !late && next ≠ 31 && next ≠ s.field 0x2807 24 5 && decide (s.banks[bank].owner = 8) then
    (s.setField 0x2807 24 5 next).updPanel fun p => { p with refValid := false, refKept := false, refTail := none }
  else s

/-- SCAN_SELECT: at the selection point words and tables come into effect, each slot selects, and the upload of a processed class E frame
opens (R294, R301). -/
def execScanSelect (s : State) : Outcome State Fault Refusal :=
  .next (if !scanReady s || s.panel.hold then s
    else match dueSelection s with
    | none => s
    | some n =>
      let first := s.panel.selected.isNone
      let s := if first then s else forAll reshapeSlot (List.finRange 2) s
      let s := applyWords 0x2800 0x2840 (switchTables s)
      let s := if first then applyWords 0x2840 0x2880 s else s
      let s := if s.modes.mode = .update then s else forAll (fun k s => selectBuffer k (lateSlices k s)) (List.finRange 2) s
      let run := frameProcessed n s
      (dropReads s).updPanel fun p => { p with
        selected := some n, runNext := run, poison := []
        uploading := !classL s && run, line := if classL s then p.line else 0 })

/-! ### Frame, refresh and line starts (R293, R300–R302, R306, R312) -/

/-- The V_n that has come, with its frame number: of the grid, or of an accepted FSYNC edge, or of the prediction once the
window has passed without one (R295). The flag says that no edge fell in the window. -/
def dueFrame (s : State) : Option (Nat × Nat × Bool) :=
  let now := s.deviceTime.toNat
  if fsyncIn s then
    let n := match s.panel.n with | some n => n + 1 | none => 0
    match s.panel.edgeV with
    | some v => if v ≤ now then some (n, v, false) else none
    | none =>
      if s.panel.n.isSome && !s.panel.hold && decide (predicted s < 64 * now) && !inWindow now s then
        some (n, (predicted s + 128000) / 64, true)
      else none
  else match gridIndex s with
    | some g => if s.panel.n.any fun k => decide (g ≤ k) then none else some (g, gridV g s, false)
    | none => none

/-! ### The class E lanes (R296–R302) -/

/-- A bit time of the lanes in ns: half a DCLK period, f = 100 MHz / (2 × DIV). -/
def bitTime (s : State) : Nat := 10 * (s.shownField 0x2851 0 4 + 1)

/-- The LATCH-high bit times of a command (Table 12.3). -/
def LatchCmd.high : LatchCmd → Nat
  | .data _ => 1 | .vsync => 2 | .rstart => 3 | .config _ => 4 | .current _ => 5 | .wabort => 6

/-- The bit times that a command shifts. -/
def shiftBits (x : LaneSend) : Nat := x.width * (((x.words.headD []).headD []).length)

/-- When a command has left the lanes: what it shifts, the bit times of RSTARTs inserted in it, and its LATCH-high bit times (R298, R301). -/
def sendEnd (x : LaneSend) (s : State) : Nat := x.at_ + (shiftBits x + 3 * x.pauses.length + x.cmd.high) * bitTime s

/-- The first moment from a device time on at which data and LATCH may change: midway between two DCLK edges (R298). -/
def bitStart (t : Nat) (s : State) : Nat :=
  let b := bitTime s
  (t + b - 1 - b / 2) / b * b + b / 2

/-- N: the driver channels of a chain (R297). -/
def chainLen (s : State) : Nat := panelH s / (lanesE s * muxM s) * panelW s

/-- The words of a DATA packet of scan line m, from the rows just produced: of every lane and colour, channel N − 1 first (R297,
R299). -/
def dataWords (m : Nat) (s : State) : List (List (List Nat)) :=
  let stripe := panelH s / lanesE s
  let w := panelW s
  (List.range (lanesE s)).map fun i => (List.range 3).map fun c =>
    ((List.range (chainLen s)).map fun j =>
      let px := ((s.panel.out.lookup (i * stripe + j / w * muxM s + m)).getD []).getD (j % w) (0, 0, 0)
      match c with | 0 => px.1 | 1 => px.2.1 | _ => px.2.2).reverse

/-- The words that a command shifts: a DATA packet its pixels, CONFIG and CURRENT one word for each driver of each chain. -/
def sendWords (c : LatchCmd) (s : State) : Nat × List (List (List Nat)) :=
  let each (w : BitVec 16) : Nat × List (List (List Nat)) :=
    (16, List.replicate (lanesE s) (List.replicate 3 (List.replicate (chainLen s / 16) w.toNat)))
  match c with
  | .data m => (panelDepth s, dataWords m s)
  | .config w => each w
  | .current w => each w
  | _ => (16, [])

/-- The commands whose bit times are not all past at a device time. -/
def sendsFrom (t : Nat) (s : State) : List LaneSend := s.panel.sends.filter fun x => decide (t < sendEnd x s + bitTime s)

/-- A LATCH command is sent from a device time on: then, or after those on the lanes, none of which is broken; one that shifts nothing
follows another after a bit time with LATCH low (R298, R301). -/
def sendLatchAt (t : Nat) (c : LatchCmd) (s : State) : State :=
  let (width, words) := sendWords c s
  let gap := match c with | .data _ | .config _ | .current _ => 0 | _ => bitTime s
  let begin_ := match sendsFrom t s with
    | x :: _ => max t (sendEnd x s + gap)
    | [] => t
  s.updPanel fun p => { p with
    latch := c :: p.latch
    sends := ⟨c, bitStart begin_ s, width, words, []⟩ :: sendsFrom t s }

/-- A LATCH command is sent now. -/
def sendLatch (c : LatchCmd) (s : State) : State := sendLatchAt s.deviceTime.toNat c s

/-- The command on the lanes at a device time. -/
def onLanes (t : Nat) (s : State) : Option LaneSend :=
  s.panel.sends.find? fun x => decide (x.at_ ≤ t) && decide (t < sendEnd x s)

/-- What a command does in a bit time: the bit that it shifts or, beyond what it shifts, its LATCH-high bit; none in an inserted
RSTART. -/
def laneBit (x : LaneSend) (j : Nat) : Option Nat :=
  if x.pauses.any fun p => decide (p ≤ j) && decide (j < p + 3) then none
  else some (j - 3 * (x.pauses.filter fun p => decide (p + 3 ≤ j)).length)

/-- RSTART takes the first three bit times from a device time on: between two bits of what a command shifts, which breaks nothing since no
bit is shifted while LATCH is high; or after a command whose LATCH bits are then out (R298, R301). What waits for the lanes moves back. -/
def insertRestart (t : Nat) (s : State) : State :=
  let b := bitTime s
  let t := bitStart t s
  let later (n : Nat) (x : LaneSend) : LaneSend := if t < x.at_ then { x with at_ := x.at_ + n * b } else x
  let own (t : Nat) (n : Nat) : State := s.updPanel fun p => { p with
    sends := (p.sends.filter fun x => decide (t < x.at_)).map (later n) ++
      ⟨.rstart, t, 16, [], []⟩ :: (sendsFrom t s).filter fun x => decide (x.at_ ≤ t) }
  let s' := match onLanes t s with
    | some x =>
      let j := (t - x.at_) / b
      match laneBit x j with
      | some i =>
        if i < shiftBits x then s.updPanel fun p => { p with
          sends := (sendsFrom t s).map fun y => if y = x then { x with pauses := x.pauses ++ [j] } else later 3 y }
        else own (sendEnd x s + b) 5
      | none => s
    | none => if s.panel.sends.any fun x => decide (sendEnd x s = t) then own (t + b) 5 else own t 4
  s'.updPanel fun p => { p with latch := .rstart :: p.latch }

/-- The upload is stopped at a device time: what waits is dropped, and what is being shifted ends; a command whose LATCH bits have begun
is not broken (R312). -/
def stopUpload (t : Nat) (s : State) : State :=
  let t := bitStart t s
  let stands (x : LaneSend) : Bool := decide (x.at_ ≤ t) && (match laneBit x ((t - x.at_) / bitTime s) with
    | some i => decide (shiftBits x ≤ i) || decide (shiftBits x = 0)
    | none => decide (shiftBits x = 0))
  s.updPanel fun p => { p with sends := p.sends.filter stands }

/-- The level of a data pin in a bit time of a command: its words, most significant bit first. -/
def dataBit (x : LaneSend) (lane colour j : Nat) : Bool :=
  (laneBit x j).any fun i =>
    let w := (((x.words.getD lane []).getD colour []).getD (i / x.width) 0)
    decide (i < shiftBits x) && w.testBit (x.width - 1 - i % x.width)

/-- LATCH in a bit time of a command: high in its own LATCH bits and in an inserted RSTART. -/
def latchLevel (x : LaneSend) (j : Nat) : Bool :=
  match laneBit x j with
  | some i => decide (shiftBits x ≤ i) && decide (i < shiftBits x + x.cmd.high)
  | none => true

/-- Dead time t_d and the time of one line of a refresh, in ns (R302). -/
def deadTime (s : State) : Nat := s.shownField 0x2851 8 9 * 10
/-- A line: its dead time and 2^D / S gray clocks, with the D that the drivers display (R317). -/
def lineTimeE (s : State) : Nat := deadTime s + 2 ^ (s.panel.display.getD (panelDepth s, 0)).1 / segsS s * 2 * bitTime s

/-- BLANK, ROWEN and ROWADDR at this moment of a refresh (R302, Table 12.4): the row change at the start of each line; after the last line
and between refreshes BLANK is high and ROWEN low. -/
def rowPins (old : BitVec 6) (s : State) : Bool × Bool × BitVec 6 :=
  match s.panel.refreshAt with
  | none => (true, false, old)
  | some start =>
    let t := s.deviceTime.toNat - start
    let i := t / lineTimeE s
    let u := t % lineTimeE s
    if segsS s * muxM s ≤ i then (true, false, old)
    else
      let addr : BitVec 6 := if u < 40 then (if i = 0 then old else BitVec.ofNat 6 ((i - 1) % muxM s)) else BitVec.ofNat 6 (i % muxM s)
      (decide (u < deadTime s), if u < 20 then decide (0 < i) else decide (deadTime s ≤ u + 20), addr)

/-- The blanked state of a class E group (R310). -/
def blankGroup : EGroup := { blank := true }

/-- The pins of a group at this moment: the lanes that the geometry uses, the clock, LATCH and the row pins; with fewer than nine lanes
group 1 stays blanked (R296). -/
def groupPins (g : Fin 2) (s : State) : EGroup :=
  if g = 1 && decide (lanesE s < 9) then blankGroup
  else
    let now := s.deviceTime.toNat
    let bitAt (colour : Nat) : BitVec 8 := match onLanes now s with
      | some x =>
        let j := (now - x.at_) / bitTime s
        BitVec.ofNat 8 ((List.range 8).foldl (fun n k => n + b2n (dataBit x (8 * g.val + k) colour j) * 2 ^ k) 0)
      | none => 0
    let latch := (onLanes now s).any fun x => latchLevel x ((now - x.at_) / bitTime s)
    let (blank, rowEn, rowAddr) := rowPins (s.panel.groups[g]).rowAddr s
    { edr := bitAt 0, edg := bitAt 1, edb := bitAt 2, dclk := decide (s.deviceTime.toNat / bitTime s % 2 = 1), latch := latch
      blank := blank, rowAddr := rowAddr, rowEn := rowEn }

/-- L_k of the present frame. -/
def lineAt (k : Nat) (s : State) : Nat := s.panel.vAt + k * scanPeriod s / (64 * linesTotal s)

/-- The polarity of line k (R307). -/
def polarity (k : Nat) (s : State) : Bool :=
  let f := s.panel.shownF
  match s.shownField 0x2862 2 2 with
  | 1 => decide ((f + k) % 2 = 1)
  | 2 => decide ((f + k / 2) % 2 = 1)
  | _ => decide (f % 2 = 1)

/-- The GCK phases: 1, 2 or 4. -/
def gckPhases (s : State) : Nat := match s.shownField 0x2862 0 2 with | 0 => 1 | 1 => 2 | _ => 4

/-- The lanes carry packets (R303): line by line, or to the end of the frame in which lock was lost (R316). -/
def lanesRun (s : State) : Bool := decide (s.panel.lanes = .idle) || decide (s.panel.lanes = .unlocked)

/-- The lanes train, or have not trained. -/
def lanesOut (s : State) : Bool := match s.panel.lanes with | .training | .electrical | .failed => true | _ => false

/-- The gate-timing outputs at this moment (Table 12.9): of the active lines started in a processed frame; GST, GCK and GOE are low in
vertical blank, and all are low while the lanes train. POL keeps its level in a skipped frame (R307), and GOE is low once lock is lost
(R316). -/
def gatePins (s : State) : GatePins :=
  let p := s.panel
  let now := s.deviceTime.toNat
  if lanesOut s then {}
  else if !p.processed || decide (p.line = 0) then { pol := p.pol }
  else
    let within (from_ a b : Nat) : Bool := decide (from_ + 10 * a ≤ now) && decide (now < from_ + 10 * b)
    let high (k : Nat) : Bool := within (lineAt k s) (s.shownField 0x2863 0 16) (s.shownField 0x2863 16 16)
    let started := List.range (min p.line (panelH s))
    let k := p.line - 1
    { gst := within p.vAt (s.shownField 0x2864 0 16) (s.shownField 0x2864 16 16)
      gck := BitVec.ofNat 4 ((List.range (gckPhases s)).foldl (fun n i =>
        n + b2n (started.any fun k => decide (k % gckPhases s = i) && high k) * 2 ^ i) 0)
      goe := decide (p.lanes ≠ .unlocked) && decide (k < panelH s) && decide (lineAt k s + 10 * s.shownField 0x2865 0 16 ≤ now)
      pol := p.pol }

/-- EIDLE. -/
def kslEidle : List KslSymbol := List.replicate 4 (.k 0x7C)

/-- IDLE. -/
def kslIdle : List KslSymbol := [.k 0xBC, .d 0x50]

/-- TP1 and TP2: one set of each (Table 12.5). -/
def kslTp1 : List KslSymbol := [.d 0x4A]
/-- TP2. -/
def kslTp2 : List KslSymbol := .k 0xBC :: List.replicate 3 (.d 0xB5)

/-- The ordered set that the lanes repeat between packets: TP1 and, 20 µs into an attempt or 2 µs into a wake, TP2; IDLE; nothing in
electrical idle (Tables 12.5, 12.7, R308). -/
def lanesFill (s : State) : List KslSymbol :=
  let sets (tp2 : Bool) : List KslSymbol := if tp2 then kslTp2 else kslTp1
  match s.panel.lanes, s.panel.trainAt with
  | .idle, _ | .unlocked, _ => kslIdle
  | .training, some t => sets (decide (t + 20000 ≤ s.clock))
  | .waking t, _ => sets (decide (t + 2000 ≤ s.deviceTime.toNat))
  | _, _ => []

/-- The panel pins and lanes follow device time (R293, R302, R305, R306): low until scan-out first starts (R310), then those of the class
selected, the other class blanked; blanked while the block is out. -/
def drivePins (s : State) : State :=
  let s := s.updPanel fun p => { p with fill := lanesFill s }
  if s.blockOut 13 then s.updPanel fun p => { p with groups := Vector.replicate 2 blankGroup, gates := {} }
  else if s.panel.n.isNone then s
  else if classL s then s.updPanel fun p => { p with groups := Vector.replicate 2 blankGroup, gates := gatePins s }
  else s.updPanel fun p => { p with groups := Vector.ofFn fun g => groupPins g s, gates := {} }

/-- The upload is not complete at V_n: WABORT, and the previous frame repeats (R312). -/
def underrun (s : State) : State :=
  record 0x5009 0xFFFF 0 (s.countUp 0x2846 0 32)

/-- A refresh starts at a device time (R302). In a processed frame RSTART goes out, and a pending swap takes place in the drivers with the
configuration sent before (R301, R317); in a skipped frame and while the engine holds LATCH stays low, and the display buffer goes on
(R308, R314). -/
def restart (at_ : Nat) (s : State) : State :=
  let s := s.updPanel fun p => { p with refreshAt := some at_ }
  onlyIf (s.panel.processed && !s.panel.hold) (fun s => (insertRestart at_ s).updPanel fun p => { p with
    display := if p.swap then p.config else p.display, swap := false }) s

/-- A complete live frame ends Quiet at a frame boundary (Table 3.2). -/
def quietEnds (s : State) : State := onlyIf (decide (s.modes.mode = .quiet) && !panelAsleep s) (enterMode .hold) s

/-- SCAN_REFRESH_START: a refresh of a class E frame starts at V_n + floor(i × T_f / Nr) with RSTART (R301); while the engine
holds, the refreshes of the display buffer go on (R314). -/
def execScanRefreshStart (s : State) : Outcome State Fault Refusal :=
  let i := s.panel.refresh
  let at_ := s.panel.vAt + i * scanPeriod s / (64 * refreshes s)
  .next (if scanReady s && !classL s && s.panel.n.isSome && (decide (i < refreshes s) || s.panel.hold) &&
      decide (at_ ≤ s.deviceTime.toNat) then
      drivePins (restart at_ (s.updPanel fun p => { p with refresh := i + 1 }))
    else s)

/-- The CONFIG word of the class E drivers (Table 12.3). -/
def configWord (s : State) : BitVec 16 :=
  BitVec.ofNat 16 ((muxM s - 1) * 2 ^ 10 + (panelDepth s - 8) * 2 ^ 6 + s.field 0x2850 16 3 * 8)

/-- CONFIG and CURRENT go out before a DATA packet: where asked for, and CONFIG where D or S has changed (R301, R309). -/
def beforeData (s : State) : State :=
  let now := (panelDepth s, segsS s)
  let s := if s.panel.sendCfg || (decide (s.panel.line = 0) && decide (s.panel.config ≠ some now)) then
      (sendLatch (.config (configWord s)) s).updPanel fun p => { p with sendCfg := false, config := some now }
    else s
  if s.panel.sendCur then
    (sendLatch (.current (BitVec.ofNat 16 (s.shownField 0x2852 0 8))) s).updPanel fun p => { p with sendCur := false }
  else s

/-- The panel rows of scan line m of class E: row i × H / E + k × M + m of every lane and band (R297). -/
def rowsOf (m : Nat) (s : State) : List Nat :=
  let stripe := panelH s / lanesE s
  let bands := panelH s / (lanesE s * muxM s)
  ((List.range (lanesE s)).map fun i => (List.range bands).map fun k => i * stripe + k * muxM s + m).flatten

/-- The class L line whose LINE packet goes out next (R306): line k + 1 of the present frame during line k; line 0 of the frame selected for
in the last line of the present one, or before the first frame. -/
def nextLine (s : State) : Option Nat :=
  let p := s.panel
  if p.selected ≠ p.n && p.selected.isSome then
    if p.runNext && p.sent ≠ some 0 && (p.n.isNone || decide (linesTotal s ≤ p.line)) then some 0 else none
  else if p.processed && p.line < panelH s && decide (p.sent ≠ some p.line) then some p.line else none

/-- The rows that scan-out prepares next: class E the scan line of its upload; class L the line whose packet goes out next. -/
def nextRows (s : State) : List Nat :=
  if classL s then (nextLine s).toList
  else if s.panel.uploading then rowsOf s.panel.line s else []

/-! ### KSL packets (R303, R304) -/

/-- A packet as symbols: SOP, TYPE, LEN, payload, CRC-16, EOP. -/
def kslPacket (type : Byte) (payload : Bytes) : List KslSymbol :=
  let body := type :: beBytes 2 payload.length ++ payload
  .k 0xFB :: (body ++ beBytes 2 (crc16 body)).map .d ++ [.k 0xFD]

/-- LOAD with a polarity. -/
def kslLoad (pol : Bool) : List KslSymbol := [.k 0xFC, .d (if pol then 1 else 0)]

/-- LANES, and C: the columns of a source driver. -/
def kslLanes (s : State) : Nat := s.field 0x2860 0 4
/-- C = W / LANES. -/
def kslColumns (s : State) : Nat := if kslLanes s = 0 then 0 else panelW s / kslLanes s

/-- The value of a source-driver register by the words in effect: registers 0 to 2 are C, D and POL_MODE (Table 12.8, R309). -/
def scanReg (i : Nat) (s : State) : Nat :=
  match i with
  | 0 => kslColumns s
  | 1 => clampN 8 16 (s.scanField 0x280C 0 5)
  | 2 => s.scanField 0x2862 2 2
  | _ => s.scanField (0x2870 + i) 0 16

/-- The payload of CONFIG: registers 0x00 to 0x0F. -/
def configPayload (s : State) : Bytes :=
  ((List.range 16).map fun i => BitVec.ofNat 8 i :: beBytes 2 (scanReg i s % 65536)).flatten

/-- CONFIG goes out: SCAN_L_REG0 to 2 show what the engine put into registers 0 to 2 (Tables 12.8, 12.12). -/
def noteRegs (s : State) : State :=
  forAll (fun i s => s.setField (0x2870 + i) 0 16 (scanReg i s % 65536)) (List.range 3) s

/-- The payload of LINE k for a lane, from the row just produced: the line number, then its C pixels in D bits each component, packed most
significant first. -/
def linePayload (k lane : Nat) (row : List (Nat × Nat × Nat)) (s : State) : Bytes :=
  let px := (row.drop (lane * kslColumns s)).take (kslColumns s)
  let d := panelDepth s
  beBytes 2 k ++ packBytes ((px.map fun q => [(d, q.1), (d, q.2.1), (d, q.2.2)]).flatten)

/-- The payload of FRAME for the frame selected for: its number and the flags: polarity of line 0, frame repeated in Quiet (Table 12.6). -/
def framePayload (n : Nat) (repeated : Bool) (s : State) : Bytes :=
  let pol := polarity 0 (s.updPanel fun p => { p with shownF := p.shownF + 1 })
  beBytes 2 (n % 65536) ++ [BitVec.ofNat 8 (b2n pol + 2 * b2n repeated)]

/-- Every lane sends symbols, after what it has sent since the last line start. -/
def kslSend (f : Nat → List KslSymbol) (s : State) : State :=
  let out (c : Nat) : List (BitVec 10) × Bool := encodeKsl (s.panel.kslRd.getD c false) (f c)
  s.updPanel fun p => { p with
    ksl := (List.range (kslLanes s)).map fun c => p.ksl.getD c [] ++ (out c).1
    kslRd := (List.range (kslLanes s)).map fun c => (out c).2 }

/-- The lanes begin anew: what they sent before is past. -/
def kslFresh (s : State) : State := s.updPanel fun p => { p with ksl := [] }

/-- The FRAME packet of the frame selected for goes out in the last line before it, once (R304, R306). -/
def announceFrame (s : State) : State :=
  let p := s.panel
  match p.selected with
  | some n =>
    if p.n ≠ some n && p.framed ≠ some n && (p.n.isNone || decide (linesTotal s ≤ p.line)) then
      (kslSend (fun _ => kslPacket 0x03 (framePayload n (!p.runNext) s)) s).updPanel fun p => { p with framed := some n }
    else s
  | none => s

/-- The next LINE packet goes out once every read of its row has been answered (R306). -/
def sendLine (poison : List (Nat × Nat)) (s : State) : State :=
  match nextLine s with
  | some k =>
    let s := givenPoison [k] poison s
    if rowsReady [k] s then
      let s := produceRows [k] s
      let row := (s.panel.out.lookup k).getD []
      (kslSend (fun c => kslPacket 0x02 (linePayload k c row s)) s).updPanel fun p => { p with sent := some k }
    else s
  | none => s

/-- A class L line starts (R306, R312): LOAD on every lane, and POL takes its level. Where the line's packet is not complete it is abandoned:
SCAN_UNDERRUN, and the drivers repeat their previous line. In Quiet with KSL_IDLE the lanes sleep after the last LOAD before skipped frames
(R308). In vertical blank and while the lanes do not run the line only passes. -/
def startLine (s : State) : State :=
  let k := s.panel.line
  let s := kslFresh (s.updPanel fun p => { p with line := k + 1 })
  if !(lanesRun s && decide (k < panelH s) && s.panel.processed) then s
  else
    let s := onlyIf (decide (s.panel.sent ≠ some k)) (fun s => underrun (dropReads s)) s
    let s := kslSend (fun _ => kslLoad (polarity k s)) (s.updPanel fun p => { p with pol := polarity k s, sent := none })
    let idle := decide (k + 1 = panelH s) && bit (s.shownWord 0x2840) 1 && decide (s.modes.mode = .quiet) &&
      decide (s.panel.lanes = .idle) && !frameProcessed (s.panel.n.getD 0 + 1) s
    onlyIf idle (fun s => kslSend (fun _ => kslEidle) (s.updPanel fun p => { p with lanes := .sleeping })) s

/-- SCAN_LINE_START: a class L line that is due starts, and the next packets go out; or the next DATA packet of a class E upload goes out,
once every read of its rows has been answered and at most one packet waits for the lanes; after the last one, VSYNC (R301, R306). -/
def execScanLineStart (poison : List (Nat × Nat)) (s : State) : Outcome State Fault Refusal :=
  .next (if !scanReady s then s
    else if classL s then
      let due := s.panel.n.isSome && decide (s.panel.line < linesTotal s) && decide (lineAt s.panel.line s ≤ s.deviceTime.toNat)
      let s := onlyIf due startLine s
      drivePins (onlyIf (lanesRun s) (fun s => sendLine poison (announceFrame s)) s)
    else if s.panel.uploading && !s.panel.sends.any fun x => decide (s.deviceTime.toNat < x.at_) then
      let m := s.panel.line
      let s := givenPoison (rowsOf m s) poison s
      if !rowsReady (rowsOf m s) s then s
      else
        let s := sendLatch (.data m) (produceRows (rowsOf m s) (beforeData s))
        let s := s.updPanel fun p => { p with line := m + 1 }
        drivePins (if muxM s ≤ m + 1 then (sendLatch .vsync s).updPanel fun p => { p with uploading := false, swap := true }
          else s)
    else s)

/-- Training is to run. -/
def startTraining (s : State) : State :=
  setScanState 1 (s.updPanel fun p => { p with lanes := .training, tries := 0, trainAt := none, sent := none, framed := none })

/-- The upload of frame n is complete at a device time: every packet and VSYNC have left the lanes (R312). -/
def uploadDone (v : Nat) (s : State) : Bool :=
  !s.panel.uploading && !s.panel.sends.any fun x =>
    (match x.cmd with | .data _ | .vsync => true | _ => false) && decide (v < sendEnd x s)

/-- Class E at V_n: RSTART swaps in a complete frame; an upload that is not complete is stopped with WABORT, and the previous frame repeats
(R301, R312). -/
def frameE (n v : Nat) (s : State) : State :=
  if decide (s.panel.selected = some n) && s.panel.runNext && !uploadDone v s then
    restart v ((underrun (sendLatchAt v .wabort (stopUpload v (dropReads s)))).updPanel fun q => { q with
      swap := false, uploading := false })
  else restart v s

/-- Class L at V_n: a lost lock trains from here on (R316); a frame that is processed while the lanes run starts with LOAD of line 0; in
another one POL alone takes its level (R306, R307, R308). -/
def frameL (s : State) : State :=
  let s := s.updPanel fun q => { q with line := 0, pol := polarity 0 s }
  let s := onlyIf (decide (s.panel.lanes = .unlocked)) startTraining s
  let s := s.updPanel fun q => { q with processed := q.processed && decide (q.lanes = .idle) }
  startLine s

/-- SCAN_FRAME_START: frame n starts at V_n. Words written before come into effect; class E swaps, or aborts an incomplete
upload; class L loads line 0; FSYNC output goes high for 1 µs (R293, R295, R309, R312). Four frames of ignored FSYNC edges make the engine
hold once the frame in progress is complete (R314). -/
def execScanFrameStart (s : State) : Outcome State Fault Refusal :=
  .next (if !scanReady s then s
    else if s.panel.rephase && fsyncIn s && decide (predicted s ≤ 64 * s.deviceTime.toNat) then
      drivePins (setScanState 3 (s.updPanel fun q => { q with rephase := false, hold := true }))
    else match dueFrame s with
    | none => s
    | some (n, v, missed) =>
      let s := onlyIf (missed && !s.panel.lostSaid) (record 0x500A 0xFFFF 0) s
      let s := s.updPanel fun q => { q with
        n := some n, vAt := v, vFrac := if missed then (predicted s + 128000) % 64 else 0, edgeV := none
        ignored := if q.ignoredNow then q.ignored else 0, ignoredNow := false
        lostSaid := missed, hold := false, refresh := 1, latch := []
        processed := decide (q.selected = some n) && q.runNext
        shownF := q.shownF + 1, refValid := q.refValid || q.refKept
        fsyncOut := if s.field 0x2840 8 2 = 2 then v + 1000 else q.fsyncOut }
      let s := applyWords 0x2840 0x2880 s
      let s := onlyIf s.panel.changed (fun s => (s.setWord 0x2845 (BitVec.ofNat 32 n)).updPanel fun q => { q with changed := false }) s
      let s := s.setField 0x2844 8 24 n
      let s := s.setFlag 0x2844 5 (decide (s.modes.mode = .quiet) && decide (1 < quietQ s))
      let s := if classL s then frameL s else frameE n v s
      let s := setScanState (if classL s && lanesOut s then (if s.panel.lanes = .training then 1 else 0) else 2) s
      drivePins (quietEnds s))

/-- DRAM_REQUEST: a core's oldest waiting far access, an engine's access through its port, or the oldest that waits behind a port reaches
its channel (R225, R242); scan-out first asks for what its next rows still need (R276, R280). -/
def execDramRequest (src : DramSource) (s : State) : Outcome State Fault Refusal :=
  .next (match src with
    | .farOf c => sendFar c s
    | .engineRead port addr len => enginePieces port (readPieces addr.toNat len) s
    | .engineWrite port addr data => enginePieces port (writePieces .engine addr.toNat data) s
    | .waiting port => sendWaiting port (if s.blockOut 13 then s else askReads (nextRows s) s))

/-- FSYNC_EDGE: a qualified rising edge sets V_n within ±5 % of the prediction, and is ignored and counted outside; while
the engine holds, or before the first frame, any edge sets V (R295, R314). Ignored edges in a fourth frame on end raise
PANEL_FSYNC_IGNORED, and the engine holds after the frame in progress. -/
def execFsyncEdge (s : State) : Outcome State Fault Refusal :=
  .next (if !scanReady s || !fsyncIn s then s
    else
      let now := s.deviceTime.toNat
      if s.panel.hold || s.panel.n.isNone || (inWindow now s && s.panel.edgeV.isNone && !s.panel.rephase) then
        fsyncSwap (s.updPanel fun q => { q with edgeV := some (now + 2000), hold := false, lostSaid := false })
      else
        let again := s.panel.ignoredNow || s.panel.rephase
        let s := (s.countUp 0x2847 0 32).updPanel fun q => { q with
          ignoredNow := true, ignored := if again then q.ignored else q.ignored + 1 }
        onlyIf (!again && decide (4 ≤ s.panel.ignored)) (fun s =>
          (record 0x500B 0xFFFF 0 s).updPanel fun q => { q with ignored := 0, rephase := true }) s)

/-! ### KSL (R305, R308, R316) -/

/-- Class L can train: selected and agreed, the engine not out. -/
def kslReady (s : State) : Bool := !s.blockOut 13 && classL s && s.feature 6

/-- KSL_TRAIN_START: an attempt starts: every lane sends TP1. -/
def execKslTrainStart (s : State) : Outcome State Fault Refusal :=
  .next (if kslReady s && (s.panel.lanes = .electrical || s.panel.lanes = .training) && s.panel.trainAt.isNone then
      drivePins (setScanState 1 (kslFresh (s.updPanel fun p => { p with lanes := .training, trainAt := some s.clock, kslRd := [] })))
    else s)

/-- A failed attempt: the third one raises KSL_TRAIN_FAILED, sends EIDLE and blanks the gate outputs (R305). -/
def trainFails (s : State) : State :=
  let n := s.panel.tries + 1
  let s := s.updPanel fun p => { p with tries := n, trainAt := none }
  if 3 ≤ n then record 0x500C 0xFFFF 0 (setScanState 0 (kslSend (fun _ => kslEidle) (s.updPanel fun p => { p with lanes := .failed }))) else s

/-- KSL_LOCK_CHECK: KSL_NOLOCK_N is sampled 30 µs into an attempt. Where it is high CONFIG goes to each lane, then IDLE; line timing starts at
the next V_n (Table 12.7). -/
def execKslLockCheck (lockedHigh : Bool) (s : State) : Outcome State Fault Refusal :=
  .next (match s.panel.lanes, s.panel.trainAt with
    | .training, some t =>
      if s.clock < t + 30000 || !kslReady s then s
      else drivePins (if lockedHigh then
        (noteRegs (kslSend (fun _ => kslPacket 0x01 (configPayload s) ++ kslIdle) s)).updPanel fun p => { p with
          lanes := .idle, tries := 0, trainAt := none, sent := none, framed := none }
        else trainFails s)
    | _, _ => s)

/-- KSL_LOCK_LOST: KSL_NOLOCK_N falls during a line; the frame is finished with GOE low, and training follows in the next frame period
(R316). -/
def execKslLockLost (s : State) : Outcome State Fault Refusal :=
  .next (if kslReady s && decide (s.panel.lanes = .idle) then
      drivePins ((record 0x500D 0xFFFF 0 s).updPanel fun p => { p with lanes := .unlocked })
    else s)

/-- Sleeping lanes wake 8.0 µs, 5.5 µs or 4.0 µs before the last blank line of the next processed frame, at the three rates (R308): the
device time of the wake, once it has come. -/
def wakeDue (s : State) : Option Nat :=
  let before := match s.field 0x2860 4 2 with | 0 => 8000 | 1 => 5500 | _ => 4000
  let t := lineAt (linesTotal s - 1) s - before
  if frameProcessed (s.panel.n.getD 0 + 1) s && t ≤ s.deviceTime.toNat then some t else none

/-- When the lanes are checked after a wake: TP1 for 2 µs, 96 sets of TP2, and 0.5 µs (R308). -/
def wakeCheck (from_ : Nat) (s : State) : Nat :=
  from_ + 2000 + (match s.field 0x2860 4 2 with | 0 => 5120 | 1 => 2560 | _ => 1280) + 500

/-- KSL_QUIET_WAKE: sleeping lanes wake before a processed frame; woken lanes are checked: they send IDLE, or a low line trains in full
(R308). -/
def execKslQuietWake (lockedHigh : Bool) (s : State) : Outcome State Fault Refusal :=
  .next (if !kslReady s then s
    else match s.panel.lanes with
    | .sleeping => match wakeDue s with
      | some t => drivePins (kslFresh (s.updPanel fun p => { p with lanes := .waking t, kslRd := [] }))
      | none => s
    | .waking t =>
      if s.deviceTime.toNat < wakeCheck t s then s
      else drivePins (if lockedHigh then kslSend (fun _ => kslIdle) (s.updPanel fun p => { p with lanes := .idle }) else startTraining s)
    | _ => s)

/-- The lanes of a class that is no longer selected return to electrical idle (R310). -/
def releaseLanes (s : State) : State :=
  onlyIf (!classL s) (fun s => drivePins (s.updPanel fun p => { p with
    lanes := .electrical, tries := 0, trainAt := none, ksl := [], kslRd := [], sent := none, framed := none })) s

/-! ### Budgets and rules (R297, R309, R311) -/

/-- The limits of every class: Table 1.3, SCAN_PERIOD, and the LANES codes of Table 12.12. -/
def commonBudget (s : State) : Bool :=
  let w := panelW s
  let h := panelH s
  decide (533333333 ≤ scanPeriod s) && decide (s.field 0x2850 0 3 ≤ 4) && decide (w ≤ 4096) && decide (h ≤ 2048) && decide (w * h ≤ 2097152) &&
    decide (w * h * 64 * 1000000000 ≤ 260000000 * scanPeriod s)

/-- The budgets of class E (R297, Table 12.10). -/
def budgetE (s : State) : Bool :=
  let w := panelW s
  let h := panelH s
  let d := clampN 8 16 (s.field 0x280C 0 5)
  let div := s.field 0x2851 0 4 + 1
  let nr := s.field 0x2851 24 6 + 1
  let dead := s.field 0x2851 8 9
  let n := h / (lanesE s * muxM s) * w
  let codes := decide (s.field 0x2850 0 3 ≤ 4) && decide (s.field 0x2850 16 3 ≤ 6) && decide (8 ≤ dead) &&
    decide (4 * segsS s ≤ 2 ^ d)
  let refresh := decide ((segsS s * muxM s * dead * 10 + muxM s * 2 ^ d * 20 * div) * 64 * nr ≤ scanPeriod s)
  let geom := decide (h % (lanesE s * muxM s) = 0) && decide (n % 16 = 0) && decide (n ≤ 16384) &&
    decide (100 * (muxM s * (n * d + 1) + 3 + 4 * nr) * 640 * div ≤ 95 * scanPeriod s)
  codes && refresh && (decide (w = 0) || decide (h = 0) || geom)

/-- The lane rate of class L in units of 0.75 Gbit/s. -/
def laneRate (s : State) : Nat := match s.field 0x2860 4 2 with | 0 => 1 | 1 => 2 | _ => 4

/-- The budgets of class L (Table 12.10). -/
def budgetL (s : State) : Bool :=
  let w := panelW s
  let h := panelH s
  let lanes := s.field 0x2860 0 4
  let vt := s.field 0x2861 0 12
  let d := clampN 8 16 (s.field 0x280C 0 5)
  let c := if lanes = 0 then 0 else w / lanes
  let geom := decide (w ≤ 1920) && decide (h ≤ 1200) && decide (w % max 1 lanes = 0) && decide (h + 2 ≤ vt) &&
    decide (25 + (3 * d * c + 7) / 8 ≤ scanPeriod s * 3 * laneRate s / (64 * 4 * 10 * max 1 vt))
  s.feature 6 && decide (1 ≤ lanes) && decide (lanes ≤ 12) && (decide (w = 0) || decide (h = 0) || geom)

/-- The panel is within its budgets: of the class selected. -/
def panelBudget (s : State) : Bool := commonBudget s && (if classL s then budgetL s else budgetE s)

/-- The rule of a word that the budgets bear on: a write that breaks one is refused, and the previous values stay. -/
def budgetRule (addr : Nat) (val : Word) (s : State) : Rule :=
  .when (panelBudget (s.setWord addr val)) 0x5007 0xFFFF addr (.accept val fun s => s.updPanel fun p => { p with changed := true })

/-- The rule of a scan word. -/
def scanRule (addr : Nat) (val : Word) (s : State) : Rule :=
  match addr with
  | 0x2853 => .accept val fun s => s.updPanel fun p => { p with
      sendCur := p.sendCur || bit val 1, sendCfg := p.sendCfg || bit val 0 }
  | 0x2866 => .accept val fun s => if bit val 0 && kslReady s then drivePins (startTraining s) else s
  | 0x2840 => match budgetRule addr val s with
    | .accept v after => .accept v (releaseLanes ∘ after)
    | r => r
  | _ => budgetRule addr val s

/-- The rule of a word at base 0x2800 (Tables 11.7, 12.12). -/
def panelWordRule (addr : Nat) (val : Word) (s : State) : Rule :=
  if 0x2840 ≤ addr then scanRule addr val s
  else if addr = 0x2800 then
    .when (panelBudget (s.setWord addr val)) 0x5007 0xFFFF addr (.accept val fun s => judgeTiles addr (dropMisfits (s.updPanel fun p => { p with
      refValid := false, refKept := false, refTail := none })))
  else if addr = 0x280C then .when (panelBudget (s.setWord addr val)) 0x5007 0xFFFF addr (.plain val)
  else panelRule addr val s

/-- The panel engine's block goes out: panel pins are blanked and nothing is stored or shown (Table 2.6, R310). -/
def panelOut (s : State) : State := dropReads { s with panel := { groups := Vector.replicate 2 blankGroup } }

end Sys2Proof.Machine
end

