-- ==== Sys2Proof/Machine/Field.lean ====
section
/-! DEFINITION. The arithmetic of motor field control as pure functions: the sine table and its interpolation (R382),
Clarke and Park (R381), space-vector modulation (R383), the SSI word (R385), and the short-circuit limit (R393). -/
namespace Sys2Proof.Machine

/-- π × 2⁶⁰, to nearest. -/
def pi60 : Nat := 3622009729038561421

/-- The terms of sin x from the k-th on, x and the result × 2⁶⁰: each term is the one before × x² / ((2k)(2k + 1)). -/
def sinTerms (x2 : Nat) : Nat → Nat → Int → Int
  | 0, _, _ => 0
  | n + 1, k, t => t + sinTerms x2 n (k + 1) (-(t * x2 / ((2 * k) * (2 * k + 1) * 2 ^ 60 : Nat)))

/-- round(32,767 × sin(2π i / 1,024)) for i in the first quarter, 0 to 256. -/
def sinQuarter (i : Nat) : Int :=
  let x := pi60 * i / 512
  roundShift (32767 * sinTerms (x * x / 2 ^ 60) 14 1 x) 60

/-- The entry S[i] of the sine table, i taken modulo 1,024 (R382). -/
def sinEntry (i : Nat) : Int :=
  let j := i % 1024
  if j ≤ 256 then sinQuarter j else if j ≤ 512 then sinQuarter (512 - j)
  else if j ≤ 768 then -sinQuarter (j - 512) else -sinQuarter (1024 - j)

/-- The interpolated value at table index i with the fraction f of 22 bits, widened to Q1.31. -/
def sinInterp (i f : Nat) : Int := (sinEntry i + roundAway ((sinEntry (i + 1) - sinEntry i) * f) 22) * 65536

/-- sin θ, Q1.31. -/
def sinOf (theta : Nat) : Int := sinInterp (theta / 2 ^ 22 % 1024) (theta % 2 ^ 22)

/-- cos θ, Q1.31: the index moved by 256. -/
def cosOf (theta : Nat) : Int := sinInterp (theta / 2 ^ 22 % 1024 + 256) (theta % 2 ^ 22)

/-- 1/√3 in Q1.31. -/
def invSqrt3 : Int := 1239850262
/-- √3/2 in Q1.31. -/
def halfSqrt3 : Int := 1859775393

/-- A Q1.31 product, rounded to nearest once. -/
def mulQ (a b : Int) : Int := roundShift (a * b) 31

/-- i_β from the two phase currents (R381). -/
def clarkeBeta (ia ib : Int) : Int := satS 32 (mulQ (ia + 2 * ib) invSqrt3)

/-- The rotation into the frame of θ: (d, q) of (α, β) (R381). -/
def park (al be : Int) (theta : Nat) : Int × Int :=
  let c := cosOf theta
  let s := sinOf theta
  (satS 32 (mulQ al c + mulQ be s), satS 32 (-mulQ al s + mulQ be c))

/-- The rotation back: (α, β) of (d, q) (R381). A component can exceed 1.0; R383 limits the magnitude. -/
def invPark (d q : Int) (theta : Nat) : Int × Int :=
  let c := cosOf theta
  let s := sinOf theta
  (mulQ d c - mulQ q s, mulQ d s + mulQ q c)

/-- |v| in Q1.31. -/
def magnitude (al be : Int) : Nat := isqrt (al * al + be * be).toNat

/-- Voltages scaled to magnitude 1.0 with their angle kept where they exceed it (R383). -/
def limitVector (al be : Int) : Int × Int :=
  let m := magnitude al be
  if m ≤ 2 ^ 31 then (al, be) else (roundDivI (al * 2 ^ 31) m, roundDivI (be * 2 ^ 31) m)

/-- The compare values of a period by min-max injection (R383). -/
def svm (al be : Int) (period : Nat) : Nat × Nat × Nat :=
  let va := al
  let hb := mulQ be halfSqrt3
  let vb := -(roundShift al 1) + hb
  let vc := -(roundShift al 1) - hb
  let v0 := -(roundShift (max va (max vb vc) + min va (min vb vc)) 1)
  let duty (v : Int) : Nat :=
    clampN 0 period (roundShift (period * 2 ^ 61 + (v + v0) * invSqrt3 * period) 62).toNat
  (duty va, duty vb, duty vc)

/-- One component of the back-EMF e = v − R i − L di/dt in µV (R388): v in Q1.31 of V_bus/√3 with V_bus in µV, the
current and the one a sample before it in Q1.31 of the base in mA, R in mΩ, L in µH, the sample period in quarters of a
ns. -/
def backEmf (vbus base r l ns4 : Nat) (v i iOld : Int) : Int :=
  let volts := roundShift (v * vbus * invSqrt3) 62
  volts - roundShift (i * base * r) 31 - roundDivI ((i - iOld) * (base * l * 4000000 : Nat)) (ns4 * 2 ^ 31)

/-- Ke of a sample in units of 2⁻²⁰ µV·s/rad: |e| in µV over the electrical speed, from the speed in Q1.31 of the base
in rpm and the pole pairs (R396). -/
def keOf (e speed base pp : Nat) : Nat := e * 60 * 2 ^ 51 * 10 ^ 15 / (speed * base * pp * 2 * 3141592653589793)

/-- A Gray code of n bits read as a number. -/
def grayValue (n v : Nat) : Nat := (List.range n).foldl (fun x k => x ^^^ (v >>> k)) 0

/-- The CRC of polynomial x⁶ + x + 1 with initial value 0 over the low n bits of a word, the first bit the highest
(R385). -/
def crc6 (n v : Nat) : Nat :=
  (List.range n).foldl (fun r k =>
    let b := (v / 2 ^ (n - 1 - k)) % 2
    let top := (r / 32) % 2
    let r' := (r * 2) % 64
    if top != b then r' ^^^ 3 else r') 0

/-- ω_SC as Q1.31 of base speed, all ones where it is unlimited (R393): the current limit in mA × 2¹⁵, R in mΩ, L in µH,
Ke in µV·s/rad, the pole pairs and the base speed in rpm. -/
def shortLimit (ilim r l ke pp base : Nat) : Nat :=
  let il := ilim * l
  let k := ke * 1000 * 2 ^ 15
  if k ≤ il then 2 ^ 32 - 1
  else
    let root := isqrt (k * k - il * il)
    let den := root * 2 * 3141592653589793 * pp * base
    if den = 0 then 2 ^ 32 - 1 else min (2 ^ 32 - 2) (ilim * r * 1000 * 60 * 2 ^ 31 * 10 ^ 15 / den)

end Sys2Proof.Machine
end

