-- ==== Sys2Proof/Machine/Gate.lean ====
section
/-! DEFINITION. Gate drive and power-stage protection (chapter 16): compare groups and their reload, pulse forming and
the interlock, the trip path and its latches, the bootstrap hold, the comparator self-test, and the rules of the gate
words. -/
namespace Sys2Proof.Machine

open Host (Outcome)

/-! ### Sources and latch bits -/

/-- The dies a protection source lies on: its own, or both for TRIP and STO (R419). -/
def tripDies : TripSource → List (Fin 2)
  | .desat d _ | .isoFault d _ | .overcurrent d _ _ | .busOv d | .busUv d | .shoot d _ => [(dieIx d)]
  | _ => [0, 1]

/-- The latch bit of a source in GATE_STATE (Table 16.7). -/
def tripBit : TripSource → Nat
  | .desat _ c | .isoFault _ c => c.val
  | .overcurrent _ a p => 12 + 3 * a.val + p.val
  | .busOv _ => 18
  | .busUv _ => 19
  | .trip n => 20 + n.val
  | .stoA => 24
  | .stoB => 25
  | .shoot _ a => 26 + a.val

/-- The axis of a source, where it has one. -/
def tripAxis : TripSource → Option AxisId
  | .desat d c | .isoFault d c => some ⟨(2 * (dieIx d).val + c.val / 6) % 4, by omega⟩
  | .overcurrent d a _ | .shoot d a => some ⟨(2 * (dieIx d).val + a.val) % 4, by omega⟩
  | _ => none

/-- The fault of a latch bit, and the UNIT it carries (Table 16.6, Table 23.7). -/
def tripFault (src : TripSource) : Nat × Nat :=
  match src with
  | .desat _ _ => (0x9001, ((tripAxis src).map (·.val)).getD 0)
  | .isoFault _ _ => (0x900E, ((tripAxis src).map (·.val)).getD 0)
  | .overcurrent _ _ _ => (0x9002, ((tripAxis src).map (·.val)).getD 0)
  | .busOv d => (0x9003, dieNo (dieIx d))
  | .busUv d => (0x9004, dieNo (dieIx d))
  | .trip _ => (0x9005, 0xFFFF)
  | .stoA | .stoB => (0x9006, 0xFFFF)
  | .shoot _ _ => (0x9009, ((tripAxis src).map (·.val)).getD 0)

/-- The UNIT that the fault of a latch bit of a die names (Table 23.7, for TRIP_ACTIVE). -/
def latchUnit (d : Fin 2) (b : Nat) : Nat :=
  if b < 12 then 2 * d.val + b / 6 else if b < 18 then 2 * d.val + (b - 12) / 3
  else if b < 20 then dieNo d else if b < 26 then 0xFFFF else 2 * d.val + (b - 26)

/-- An axis of a die has its gates enabled. -/
def dieEnabled (d : Fin 2) (s : State) : Bool := (dieAxes d).any fun a => gatesEnabled a s

/-- The channel of a die's local channel. -/
def dieChannel (d : Fin 2) (c : Fin 12) : Fin 24 := ⟨12 * d.val + c.val, by omega⟩

/-- A pin's reading qualifies its source (Table 16.3): the desaturation comparator at 2.0 + 0.5 × DSAT_V volts, the isolator's fault line, the
overcurrent window of ±THR about 2.50 V for OC_FILT, the bus thresholds, the active level of TRIPn, a high STO input. -/
def qualifies (r : TripReading) (s : State) : Bool :=
  match r.src with
  | .desat d c => decide ((2000 + 500 * s.field (gateAddr (dieIx d) (0x30 + c.val)) 12 4 : Nat) < r.mV)
  | .isoFault _ _ => decide (r.mV < 1000) && decide (200 ≤ r.ns)
  | .overcurrent d a _ =>
    let w := gateAddr (dieIx d) (0x11 + 8 * a.val)
    decide (clampN 5 240 (s.field w 16 8) * 10 < (r.mV - 2500).natAbs) && decide (clampN 10 200 (s.field w 0 8) * 10 ≤ r.ns)
  | .busOv d => decide ((s.field (gateAddr (dieIx d) 5) 24 8 * 10 : Nat) < r.mV)
  | .busUv d => decide (r.mV < (s.field (gateAddr (dieIx d) 5) 16 8 * 10 : Nat))
  | .trip n => (r.high == s.flag 0x4808 (4 + n.val)) && decide (100 ≤ r.ns)
  | .stoA | .stoB => r.high && decide (100 ≤ r.ns)
  | .shoot _ _ => true

/-- DSAT_BLANK in ns (Table 16.5). -/
def dsatBlank (ch : Fin 24) (s : State) : Nat := clampN 2 50 (s.field (channelCfg ch) 0 8) * 100

/-- A qualified source is armed: a trip (Table 16.3). Desaturation needs a channel that is not in isolator mode and has been on for DSAT_BLANK,
which one that its bootstrap holds off is not (R409, R429); the isolator fault one in isolator mode; TRIPn needs its enable; bus undervoltage an
axis of the die with gates enabled. -/
def tripArmed (src : TripSource) (s : State) : Bool :=
  match src with
  | .desat d c =>
    let ch := dieChannel (dieIx d) c
    !s.flag (channelCfg ch) 31 && (s.gate.outs[ch]).onAt.any fun t => decide (t + dsatBlank ch s ≤ s.clock)
  | .isoFault d c => s.flag (gateAddr (dieIx d) (0x30 + c.val)) 31
  | .trip n => s.flag 0x4808 n.val
  | .busUv d => dieEnabled (dieIx d) s
  | _ => true

/-- The numbers of the bridge phase (R420). -/
def phaseNum : BridgePhase → Nat
  | .bothOff => 0 | .highOn => 1 | .lowOn => 2 | .deadTime => 3 | .noBridge => 4

/-! ### The trip path -/

/-- A latch bit is set in a die. The first after its latch was wholly clear is recorded with its time and the phase of
the half-bridge concerned; of two in one moment, the lower bit (R420, R426). -/
def latchBit (b phase : Nat) (d : Fin 2) (s : State) : State :=
  let same := decide (s.gate.recAt[d] = s.clock) && decide (b < s.field (gateAddr d 2) 27 5)
  let s := if latched d s && !same then s
    else (({ s with gate := { s.gate with recAt := modAt s.gate.recAt d fun _ => s.clock } }.setWord (gateAddr d 2)
      (BitVec.ofNat 32 (b * 2 ^ 27 + phase))).setWord (gateAddr d 3) (s.deviceTime.setWidth 32))
  s.setFlag (gateAddr d 0) b true

/-- A self-test in progress ends aborted (R428). -/
def abortTest (d : Fin 2) (s : State) : State :=
  match s.gate.tests[d] with
  | some _ => ({ s with gate := { s.gate with tests := modAt s.gate.tests d fun _ => none } }).setField (gateAddr d 7) 29 3 4
  | none => s

/-- A trip: the latch bits, the fault, every gate off and every brake not conducting, the announcement, the category 0
demand (R415, R416, R417). Desaturation and overcurrent turn the channels of their axis off at SOFT_OFF. -/
def trip (src : TripSource) (phase : Nat) (s : State) : State :=
  let s := forAll (latchBit (tripBit src) phase) (tripDies src) s
  let s := forAll abortTest [0, 1] s
  let soft : BitVec 24 := match src with
    | .desat _ _ | .overcurrent _ _ _ => match (tripAxis src) with
      | some a => BitVec.ofNat 24 (63 * 2 ^ (6 * a.val))
      | none => 0
    | _ => 0
  let s := { s with gate := { s.gate with soft := soft } }
  let s := record (tripFault src).1 (tripFault src).2 (tripBit src) s
  demandCat0 0xFF (announce 0 (tripFault src).1 (tripAxis src) (machineryOff s))

/-- A source is qualified, armed and not latched. -/
def stands (s : State) (src : TripSource) : Bool :=
  tripArmed src s && (tripDies src).any fun d => s.flag (gateAddr d 9) (tripBit src) && !s.flag (gateAddr d 0) (tripBit src)

/-- The inputs of a die that stay qualified through its reset are trips again: TRIPn that are enabled, STO, bus overvoltage and overcurrent,
whose levels GATE_LEVELS holds (R414, R67). -/
def standingTrips (s : State) : State :=
  let currents (d : Die) : List TripSource :=
    (List.finRange 6).map fun i => .overcurrent d ⟨i.val / 3, by omega⟩ ⟨i.val % 3, by omega⟩
  let sources : List TripSource := (List.finRange 4).map TripSource.trip ++
    [.stoA, .stoB, .busOv .west, .busOv .east] ++ currents .west ++ currents .east
  forAll (fun src => trip src 4) (sources.filter (stands s)) s

/-- A DSATn level that stands as its blanking ends is a trip then (R414); the half-bridge's phase is that of the channel that is on. -/
def standingDesat (s : State) : State :=
  if s.field (gateAddr 0 9) 0 12 = 0 && s.field (gateAddr 1 9) 0 12 = 0 then s
  else
    let of (ch : Fin 24) : TripSource := .desat (if ch.val < 12 then .west else .east) ⟨ch.val % 12, by omega⟩
    forAll (fun ch => trip (of ch) (1 + ch.val % 2)) ((List.finRange 24).filter fun ch => stands s (of ch)) s

/-- The STO inputs differ from now on, or agree again (R417). -/
def stoWatch (s : State) : State :=
  let differ := s.flag 0x4809 24 != s.flag 0x4809 25
  { s with gate := { s.gate with stoSince := if differ then (match s.gate.stoSince with
    | some t => some t
    | none => some s.clock) else none } }

/-- GATE_TRIP: a pin's reading that qualifies its source. Its level shows in GATE_LEVELS; where it is armed it is a trip, unless the edge
dies stand in reset or without power (R50, R414, R415). -/
def execGateTrip (r : TripReading) (phase : BridgePhase) (s : State) : Outcome State Fault Refusal :=
  .next (if qualifies r s then
      let s := stoWatch (forAll (fun d s => s.setFlag (gateAddr d 9) (tripBit r.src) true) (tripDies r.src) s)
      if coresPowered s && tripArmed r.src s then trip r.src (phaseNum phase) s else s
    else s)

/-- TRIP_SOURCE_INACTIVE: a source stops being qualified, and its inactive time starts to count (R419). -/
def execTripSourceInactive (src : TripSource) (s : State) : Outcome State Fault Refusal :=
  let quiet (d : Fin 2) (s : State) : State :=
    if s.flag (gateAddr d 9) (tripBit src) then
      let s := s.setFlag (gateAddr d 9) (tripBit src) false
      let key := (d.val, (tripBit src))
      { s with gate := { s.gate with
        quietAt := (key, s.clock) :: s.gate.quietAt.filter fun e => decide (e.1 ≠ key) } }
    else s
  .next (stoWatch (forAll quiet (tripDies src) s))

/-- STO_DISCREPANCY: the STO inputs have differed for 20 ms; the missing bit latches as well (R417). -/
def execStoDiscrepancy (s : State) : Outcome State Fault Refusal :=
  .next (match s.gate.stoSince with
    | some t =>
      if coresPowered s && decide (t + 20000000 ≤ s.clock) then
        let b := if s.flag 0x4809 24 then 25 else 24
        let s := record 0x9007 0xFFFF b (forAll abortTest [0, 1] (forAll (latchBit b 4) [0, 1] s))
        demandCat0 0xFF (announce 0 0x9007 none (hardOff s))
      else s
    | none => s)

/-! ### Clearing -/

/-- The clear filter of a die in ns (Table 16.5). -/
def clearFilter (d : Fin 2) (s : State) : Nat := clampN 1 1000 (s.field (gateAddr d 4) 0 10) * 1000

/-- A source of a die's latch bit has been inactive without a break for the filter time (R419). -/
def quietLong (d : Fin 2) (b : Nat) (s : State) : Bool :=
  !s.flag (gateAddr d 9) b &&
    match s.gate.quietAt.lookup (d.val, b) with
    | some t => decide (t + clearFilter d s ≤ s.clock)
    | none => true

/-- One named latch bit is judged: it clears, in both dies for bits 20 to 25, or stays with TRIP_ACTIVE (R419). -/
def clearLatch (d : Fin 2) (b : Nat) (s : State) : State :=
  if !s.flag (gateAddr d 0) b then s
  else if quietLong d b s then
    if 20 ≤ b && b < 26 then (s.setFlag (gateAddr 0 0) b false).setFlag (gateAddr 1 0) b false
    else s.setFlag (gateAddr d 0) b false
  else record 0x900A (latchUnit d b) b s

/-! ### Compare groups, pulses and the interlock -/

/-- PERIOD of an axis in ticks (R377). -/
def pwmPeriod (a : AxisId) (s : State) : Nat := s.field (axisAddr a 2) 0 19

/-- The index of the PWM period that device time lies in (R377): T = PERIOD × 2.5 ns. -/
def periodIndex (a : AxisId) (s : State) : Nat :=
  let p := pwmPeriod a s
  if p = 0 then 0 else s.deviceTime.toNat * 2 / (p * 5)

/-- DT in ticks; 0 acts as 1 (Table 16.5). -/
def deadTicks (a : AxisId) (s : State) : Nat := 4 * max 1 (s.field (gateAxisAddr a 0) 0 9)

/-- A segment long enough to be emitted (R412). -/
def longEnough (x : Nat × Nat) : Bool := decide (x.1 + 20 ≤ x.2)

/-- The pulse of one phase over a period of `p` ticks, after the pulse of a period of `q` ticks. In mode 0 the high switch conducts for `c`
ticks about the centre, and the low switch from `dt` after it to `dt` before it; modes 2 and 3 hold one switch on. Neither conducts within `dt`
of the other across the boundary. A segment below 20 ticks is not emitted; a low segment that crosses the boundary is measured as one, with
the head that the same values would give where the next period is not known yet (R411, R412; DESIGN CHOICE: log entry 187). -/
def formPulse (p dt c mode q : Nat) (was : Pulse) : Pulse :=
  let afterHigh := match was.high with | some (_, e) => e + dt - q | none => 0
  let afterLow := (was.low.map (·.2)).foldl max 0 + dt - q
  let afterLow := if was.low.isEmpty then 0 else afterLow
  let carried := if afterHigh = 0 then ((was.low.filter fun x => decide (x.2 = q)).map fun x => x.2 - x.1).foldl max 0 else 0
  let fullLow : List (Nat × Nat) := if 20 ≤ carried + (p - afterHigh) then [(afterHigh, p)] else []
  let start := (p - c) / 2
  let high := (max start afterLow, min p (start + c))
  match mode with
  | 0 =>
    if !longEnough high then { high := none, low := fullLow }
    else
      let head := (afterHigh, start - dt)
      let tail := (min p (start + c + dt), p)
      let keepHead := decide (head.1 < head.2) && decide (20 ≤ carried + (head.2 - head.1))
      let keepTail := decide (tail.1 < tail.2) && decide (20 ≤ (tail.2 - tail.1) + (start - dt))
      { high := some high, low := (if keepHead then [head] else []) ++ (if keepTail then [tail] else []) }
  | 2 => { high := none, low := fullLow }
  | 3 => { high := if longEnough (afterLow, p) then some (afterLow, p) else none, low := [] }
  | _ => {}

/-- The first tick at which the high and the low switch of a pulse are both commanded on (R413). -/
def Pulse.clash (q : Pulse) : Option Nat :=
  match q.high with
  | some h => (q.low.filterMap fun l => if max h.1 l.1 < min h.2 l.2 then some (max h.1 l.1) else none).min?
  | none => none

/-- Both switches of a pulse are commanded on at some tick. -/
def Pulse.overlaps (q : Pulse) : Bool := q.clash.isSome

/-- The interlock ignores both on commands from the first clash to the end of the period (R413). -/
def Pulse.interlocked (q : Pulse) : Pulse :=
  match q.clash with
  | some t =>
    let cut (x : Nat × Nat) : Option (Nat × Nat) := if x.1 < t then some (x.1, min x.2 t) else none
    { high := q.high.bind cut, low := q.low.filterMap cut }
  | none => q

/-- The compare value and mode of each phase of a group. -/
def groupPhases (g : CompareGroup) : Vector (Nat × Nat) 3 :=
  #v[(g.ca.toNat, g.ma.toNat), (g.cb.toNat, g.mb.toNat), (g.cc.toNat, g.mc.toNat)]

/-- The block of an axis's gates (Table 2.6). -/
def gateBlock (a : AxisId) : Fin 25 := if axisDie a = 0 then 18 else 19

/-- GATE_COMPARE_GROUP: a group that motor field control writes reaches the axis shadow (R410). -/
def execGateCompareGroup (a : AxisId) (g : CompareGroup) (s : State) : Outcome State Fault Refusal :=
  .next (if s.blockOut 16 || s.blockOut (gateBlock a) then s else s.updGate a fun x => { x with shadow := g, fresh := true })

/-- The shoot-through events of a reload, one for each half-bridge: counted and reported, and a trip at the third consecutive period (R413). -/
def shootThrough (a : AxisId) (events k : Nat) (s : State) : State :=
  let s := forAll (fun _ s => recordLimited 0x9008 a 0 (s.countUp (gateAxisAddr a 3) 0 32)) (List.range events) s
  let x := s.gate.axes[a]
  let n := if x.shootRun = 0 || decide (x.shootAt + 1 ≠ k) then 1 else x.shootRun + 1
  let s := s.updGate a fun x => { x with shootRun := if n = 3 then 0 else n, shootAt := k }
  if n = 3 then      -- the interlock holds both switches of the half-bridge off: phase 0
    trip (.shoot (if axisDie a = 0 then .west else .east) ⟨a.val % 2, by omega⟩) 0 s
  else s

/-- The gate outputs of an axis may follow its pulses: enabled, no latch bit set, its die in contact and not in its safe state, no boundary test,
and motor field control, the loop engine and the gate block admitted (R55, R416, Table 2.6, R162). -/
def gatesRun (a : AxisId) (s : State) : Bool :=
  let d := axisDie a
  gatesEnabled a s && !anyLatched s && !s.dies[d].safe && !s.dies[d].lost && decide (s.sec.jtagIr ≠ 3)
    && !s.blockOut 16 && !s.blockOut 17 && !s.blockOut (if d = 0 then 18 else 19)

/-- A high side that its bootstrap holds off; the hold does not apply in isolator mode (R409, R418). -/
def bootHeld (ch : Fin 24) (s : State) : Bool := decide (ch.val % 2 = 0) && s.gate.bootHold.getLsbD ch && !s.flag (channelCfg ch) 31

/-- A channel is commanded on at this moment of its period, neither STO input holds its side off, nor its bootstrap (R409, R411, R417). -/
def channelOn (ch : Fin 24) (s : State) : Bool :=
  let a := channelAxis ch
  let q := (s.gate.axes[a]).pulses[(Fin.ofNat 3 (ch.val % 6 / 2) : Fin 3)]
  let t := 2 * s.deviceTime.toNat % (pwmPeriod a s * 5) / 5
  let within (x : Nat × Nat) : Bool := decide (x.1 ≤ t) && decide (t < x.2)
  gatesRun a s && !bootHeld ch s &&
    (if ch.val % 2 = 0 then q.high.any within && !s.flag 0x4809 24 else q.low.any within && !s.flag 0x4809 25)

/-- What a gate output drives now: SRC_ON while its channel is on, ISO_CUR in isolator mode (R408, R418). -/
def gateOut (ch : Fin 24) (s : State) : GateOut :=
  if channelOn ch s then
    let mA := if s.flag (channelCfg ch) 31 then GateDrive.iso (s.field (channelCfg ch) 8 4 + 5)
      else .source (sourceMa (s.field (channelCfg ch) 24 4))
    ⟨mA, some (((s.gate.outs[ch]).onAt).getD s.clock)⟩
  else ⟨offDrive ch s, none⟩

/-- The gate outputs follow device time. -/
def driveGates (s : State) : State := { s with gate := { s.gate with outs := Vector.ofFn fun ch => gateOut ch s } }

/-- One gate output follows. -/
def driveGate (ch : Fin 24) (s : State) : State := { s with gate := { s.gate with outs := modAt s.gate.outs ch fun _ => gateOut ch s } }

/-- The whole shadow is copied where a group has been written since the last reload: GATE_APPLIED and the reply to that group take the
index of the period (R410). -/
def copyGroup (a : AxisId) (k : Nat) (s : State) : State :=
  if (s.gate.axes[a]).fresh then
    (s.setWord (gateAxisAddr a 2) (BitVec.ofNat 32 k)).updGate a fun x => { x with
      applied := x.shadow, waiting := false, fresh := false, reply := some k }
  else s

/-- GATE_RELOAD: at the start of a new period the shadow is copied; pulses are formed and pass the interlock. No pulse is formed while the
gates are not enabled or a latch bit is set (R410–R413, R416), nor while motor field control, the loop engine or the gate block is out (Table
2.6). -/
def execGateReload (a : AxisId) (s : State) : Outcome State Fault Refusal :=
  let k := periodIndex a s
  let p := pwmPeriod a s
  let dt := deadTicks a s
  .next (if s.blockOut (gateBlock a) || (s.gate.axes[a]).period == some k then s
    else
      let on := gatesRun a s
      let was := s.gate.axes[a]
      let s := copyGroup a k s
      let x := s.gate.axes[a]
      let modes := groupPhases x.applied
      let form (i : Fin 3) : Pulse := formPulse p dt modes[i].1 (if x.waiting then 1 else modes[i].2) was.ticks was.pulses[i]
      let pulses : Vector Pulse 3 := if on then Vector.ofFn form else Vector.replicate 3 {}
      let bad := (pulses.toList.filter Pulse.overlaps).length
      let s := s.updGate a fun x => { x with
        period := some k, ticks := p, pulses := pulses.map Pulse.interlocked, shootRun := if bad = 0 then 0 else x.shootRun }
      if on then driveGates (if bad = 0 then s else shootThrough a bad k s) else s)

/-! ### Bootstrap hold -/

/-- A channel is a high side, not in isolator mode. -/
def bootstrapped (ch : Fin 24) (s : State) : Bool := decide (ch.val % 2 = 0) && !s.flag (channelCfg ch) 31

/-- BOOT_UV_HOLD: the high side is held off at once; each hold is counted and raised (R409). -/
def execBootUvHold (ch : Fin 24) (s : State) : Outcome State Fault Refusal :=
  .next (if !s.blockOut (gateBlock (channelAxis ch)) && bootstrapped ch s && !s.gate.bootHold.getLsbD ch then
      let s := { s with gate := { s.gate with bootHold := s.gate.bootHold ||| BitVec.ofNat 24 (2 ^ ch.val) } }
      let s := driveGate ch s
      record 0x900B ch 0 (s.countUp (gateAxisAddr (channelAxis ch) 4) 0 32)
    else s)

/-- BOOT_UV_RELEASE: the high side is released, and its output follows its pulse again (R409). -/
def execBootUvRelease (ch : Fin 24) (s : State) : Outcome State Fault Refusal :=
  .next (if s.gate.bootHold.getLsbD ch then
      driveGate ch { s with gate := { s.gate with bootHold := s.gate.bootHold &&& ~~~BitVec.ofNat 24 (2 ^ ch.val) } }
    else s)

/-! ### Comparator self-test -/

/-- GATE_TEST_END: 10 µs after the write the result stands: a pass where the output tripped within 2 µs, with its delay
in 10 ns units; else a failure, whose delay the spec leaves open (R421). -/
def execGateTestEnd (d : Die) (tripped : Option Nat) (s : State) : Outcome State Fault Refusal :=
  .next (match s.gate.tests[(dieIx d)] with
    | some t =>
      if s.clock < t.since + 10000 then s
      else
        let s := { s with gate := { s.gate with tests := modAt s.gate.tests (dieIx d) fun _ => none } }
        match tripped with
        | some n =>
          if n ≤ 200 then s.setWord (gateAddr (dieIx d) 7) (BitVec.ofNat 32 (2 ^ 29 + n))
          else record 0x900C (dieNo (dieIx d)) t.comp (s.setWord (gateAddr (dieIx d) 7) (BitVec.ofNat 32 (2 * 2 ^ 29 + min n 1023)))
        | none =>
          record 0x900C (dieNo (dieIx d)) t.comp
            (s.setWord (gateAddr (dieIx d) 7) (BitVec.ofNat 32 (2 * 2 ^ 29 + s.freeVal % 1024))).bump
    | none => s)

/-- A GATE_TEST write with GO: accepted in Hold or Maintenance with every gate off and the comparator's source not
qualified; else the result reads REFUSED (R421). -/
def startTest (d : Fin 2) (comp : Nat) (s : State) : State :=
  let ok := (decide (s.modes.mode = .hold) || decide (s.modes.mode = .maintenance)) && !dieEnabled 0 s && !dieEnabled 1 s
    && decide (comp < 20) && !s.flag (gateAddr d 9) comp && s.gate.tests[d].isNone
  if ok then { s with gate := { s.gate with tests := modAt s.gate.tests d fun _ => some ⟨comp, s.clock⟩ } }
  else s.setField (gateAddr d 7) 29 3 3

/-! ### The rules of the gate words -/

/-- 2 × DT × 10 ns + 50 ns lie within a period (Table 16.5). -/
def dtFits (period dt : Nat) : Bool := decide ((2 * max 1 dt * 10 + 50) * 2 < period * 5)

/-- The outputs of an axis will turn off at SNK_OFF again. -/
def softEnds (a : AxisId) (s : State) : State :=
  { s with gate := { s.gate with soft := s.gate.soft &&& ~~~BitVec.ofNat 24 (63 * 2 ^ (6 * a.val)) } }

/-- A GATE_AXIS_CTRL write: EN from 0 to 1 only in Run, Degraded or Stop, with no latch bit set and HEST_N high (R416);
bus undervoltage that stands is armed by it and trips (Table 16.3). EN from 1 to 0 turns the axis's gates off. A DT that the period does not
hold is refused in Admission (Table 16.5). -/
def gateCtrlRule (a : AxisId) (addr : Nat) (val : Word) (s : State) : Rule :=
  let was := gatesEnabled a s
  if bit val 31 && !was then
    let ok := (match s.modes.mode with | .run | .degraded | .stop => true | _ => false) && !anyLatched s && !hestLow s
      && (List.range 6).all fun i => !unitFailed .gatePin (6 * a.val + i) s
    .when ok 0x900D (dieNo (axisDie a)) addr (.accept val fun s =>
      let s := softEnds a (s.updGate a fun x => { x with waiting := true, fresh := false })
      onlyIf (s.flag (gateAddr (axisDie a) 9) 19) (trip (.busUv (if axisDie a = 0 then .west else .east)) 4) s)
  else if !bit val 31 && was then .accept val (axisGatesOff a)
  else .when (decide (s.modes.mode ≠ .admission) || dtFits (pwmPeriod a s) (bits val 0 9)) 0x7007 a addr (.plain val)

/-- The other polarity of a trip input: the level that was active is no longer, and the other one is (R414). -/
def turnLevel (n : Fin 4) (s : State) : State :=
  let active := !s.flag (gateAddr 0 9) (20 + n.val)
  forAll (fun d s =>
    let s := s.setFlag (gateAddr d 9) (20 + n.val) active
    if active then s
    else { s with gate := { s.gate with quietAt := ((d.val, 20 + n.val), s.clock) :: s.gate.quietAt.filter fun e => decide (e.1 ≠ (d.val, 20 + n.val)) } })
    [0, 1] s

/-- The rule of a word of a gate block, at an offset of die d (R414, R416, R419, R421, Table 16.5): a TRIP_EN bit or a polarity that leaves
an enabled input qualified makes it a trip. -/
def gateRule (d : Fin 2) (off addr : Nat) (val : Word) (s : State) : Rule :=
  let quietDie := Rule.when (!dieEnabled d s) 0x900D (dieNo d) addr (.plain val)
  match off with
  | 0x01 => .accept val (forAll (fun b s => if bit val b then clearLatch d b s else s) (List.range 28))
  | 0x05 => quietDie
  | 0x06 => .accept val (onlyIf (bit val 31) (startTest d (bits val 0 5)))
  | 0x10 => gateCtrlRule ⟨(2 * d.val) % 4, by omega⟩ addr val s
  | 0x18 => gateCtrlRule ⟨(2 * d.val + 1) % 4, by omega⟩ addr val s
  | 0x08 =>
    .accept val fun t =>
      let turned := (List.finRange 4).filter fun n => s.flag addr (4 + n.val) != t.flag addr (4 + n.val)
      let t := forAll turnLevel turned t
      forAll (fun n => trip (.trip n) 4) ((List.finRange 4).filter fun n => stands t (.trip n)) t
  | 0x11 | 0x19 => quietDie
  | _ => if 0x30 ≤ off then quietDie else .plain val

end Sys2Proof.Machine
end

