-- ==== Sys2Proof/Machine/Axes.lean ====
section
/-! DEFINITION. Motor commutation and field control (chapter 15): sample points and current paths, angle sources and
the loss of feedback, alignment, the sensorless start, shorting, Ke supervision, and the rules of the axis words. -/
namespace Sys2Proof.Machine

open Host (Outcome)

/-! ### Configuration -/

/-- ANGLE_SRC. -/
def angleSrc (a : AxisId) (s : State) : Nat := s.field (axisAddr a 0) 24 2
/-- Pole pairs: PP + 1. -/
def polePairs (a : AxisId) (s : State) : Nat := s.field (axisAddr a 3) 24 6 + 1
/-- BASE_RPM. -/
def baseRpm (a : AxisId) (s : State) : Nat := s.field (axisAddr a 3) 0 16
/-- CPR. -/
def cprOf (a : AxisId) (s : State) : Nat := (s.word (axisAddr a 0xD)).toNat
/-- An unsigned Q1.15 field as Q1.31. -/
def q15 (s : State) (addr lo : Nat) : Int := (s.field addr lo 16 : Int) * 65536
/-- A bit of AXIS_STATUS set. -/
def axisFlag (a : AxisId) (i : Nat) (b : Bool) (s : State) : State := s.setFlag (axisAddr a 1) i b
/-- W_HAND as Q1.31. -/
def wHand (a : AxisId) (s : State) : Int := q15 s (axisAddr a 0x13) 16
/-- The observer of an axis is locked: AXIS_STATUS.LOCK. -/
def obsLocked (a : AxisId) (s : State) : Bool := s.flag (axisAddr a 1) 19
/-- SAMPLES: two current samples a period. -/
def twoSamples (a : AxisId) (s : State) : Bool := s.flag (axisAddr a 0) 16
/-- The time between current samples, in ns × 4 (R377). -/
def sampleNs4 (a : AxisId) (s : State) : Nat := pwmPeriod a s * 10 / (if twoSamples a s then 2 else 1)

/-- The electrical angle a speed passes in a time, in units of 2⁻³² revolution. -/
def angleStep (a : AxisId) (speed ns : Int) (s : State) : Int :=
  roundDivI (speed * ns * (baseRpm a s * polePairs a s * 2 : Nat)) 60000000000

/-- An angle taken modulo one revolution. -/
def wrapAngle (x : Int) : Nat := (x % 2 ^ 32).toNat

/-! ### Slots under an alignment or a start (R390) -/

/-- The shadow of a slot's gains: the words as written (R352). -/
def shadowGains (n : Nat) (s : State) : Gains :=
  ⟨s.word (slotAddr n 1), s.word (slotAddr n 2), s.word (slotAddr n 3), s.word (slotAddr n 4), s.word (slotAddr n 5),
    s.word (slotAddr n 6)⟩

/-- A slot is enabled: all that an enable does happens at its next evaluation (R352, R353). -/
def enableSlot (n : Fin 24) (s : State) : State := s.updSlot n fun x => { x with apply := some true, fresh := true }

/-- A set-point that the unit sets itself. -/
def fixSlot (n : Fin 24) (v : Option Int) (s : State) : State := s.updSlot n fun x => { x with spFixed := v }

/-- The current slots of an axis close the unit's own loop with set-points d and q. -/
def fixCurrent (a : AxisId) (d q : Int) (s : State) : State :=
  fixSlot (axisSlot a 3) (some q) (fixSlot (axisSlot a 2) (some d) s)

/-- The current slots return to what their EN bits select. -/
def freeCurrent (a : AxisId) (s : State) : State :=
  fixSlot (axisSlot a 3) none (fixSlot (axisSlot a 2) none s)

/-- The current slots are taken over, as an enable does. -/
def takeCurrent (a : AxisId) (d q : Int) (s : State) : State :=
  fixCurrent a d q (enableSlot (axisSlot a 3) (enableSlot (axisSlot a 2) s))

/-! ### Feedback (R387, R358, Table 14.3) -/

/-- The FB_LOST bits of an axis's slots. -/
def markLost (a : AxisId) (s : State) : State :=
  forAll (fun r s => s.setFlag (slotAddr (axisSlot a r) 0xD) 2 true) (List.finRange 4) s

/-- Feedback of an axis is lost or frozen: the fault, and the reaction of Table 14.3. While a loss stands nothing is raised
again, a freeze neither (R369). -/
def loseFeedback (a : AxisId) (code : Nat) (s : State) : State :=
  if s.axes[a].lost then s
  else
    let s := markLost a (record code a 0 (s.updAxis a fun x => { x with lost := decide (code = 0x8002) }))
    let obs := s.flag (0x4180 + a.val) 31 && s.feature 11 && decide (wHand a s < (axisSpeed a s).natAbs)
    let s := s.updAxis a fun x => { x with byObs := obs }
    raiseStop 1 code (some a) s

/-! ### Position and angle -/

/-- The electrical angle of a position count without the offset (R384). -/
def countAngle (a : AxisId) (p : Int) (s : State) : Int :=
  let cpr := cprOf a s
  if cpr = 0 then 0 else (p % cpr) * 2 ^ 32 / cpr * polePairs a s

/-- The source angle from a position count (R384). -/
def sourceAngle (a : AxisId) (p : Int) (s : State) : Nat :=
  wrapAngle (countAngle a p s + (s.word (axisAddr a 0x10)).toNat)

/-- The speed: the mean of the count differences over the last 8 samples, scaled to BASE_RPM (R384). -/
def speedOf (a : AxisId) (hist : List Int) (s : State) : Int :=
  match hist with
  | [] => 0
  | p :: _ =>
    let old := (hist.drop 8).head?.getD (hist.getLast?.getD p)
    let den := 8 * cprOf a s * baseRpm a s * sampleNs4 a s
    satS 32 (roundDivI ((p - old) * (60 * 10 ^ 9 * 4 * 2 ^ 31)) den)

/-- The count differs from what the record holds: AXIS_POS follows. -/
def setPos (a : AxisId) (p : Int) (s : State) : State :=
  let w : DWord := BitVec.ofInt 64 p
  ((s.updAxis a fun x => { x with pos := p }).setWord (axisAddr a 0x1A) (w.setWidth 32)).setWord (axisAddr a 0x1B)
    ((w >>> 32).setWidth 32)

/-- The count moves by a number of counts; with DIR_INVERT it counts negatively (R384). -/
def movePos (a : AxisId) (d : Int) (s : State) : State :=
  let d := if s.flag (axisAddr a 0) 12 then -d else d
  setPos a (s.axes[a].pos + d) (s.updAxis a fun x => { x with posAt := s.clock })

/-- The index of the last sample point that device time has passed: a period has its centre, or its start and its centre
(R377). -/
def samplePoint (a : AxisId) (s : State) : Nat :=
  let t := s.deviceTime.toNat * 4
  let p := pwmPeriod a s * 5                        -- half a period in quarters of a ns
  if twoSamples a s then t / p else (t + p) / (2 * p)

/-- LOSS_N of an axis. -/
def lossN (a : AxisId) (s : State) : Nat := max 1 (s.field (axisAddr a 0xF) 24 4)

/-- A loss of an ABZ source has ended with a sample period without it (R387). -/
def abzRecovers (a : AxisId) (s : State) : State :=
  let x := s.axes[a]
  if angleSrc a s = 1 && x.abzIll < lossN a s && x.disagree < 16 then s.updAxis a fun x => { x with lost := false } else s

/-- AXIS_SAMPLE: a current sample point holds the inputs, and an SSI frame starts where RECOVERY µs have passed since
the last clock edge (R377, R379, R385). Missed frames and illegal transitions are judged per sample period (R387). A sample
point is taken once. -/
def execAxisSample (a : AxisId) (s : State) : Outcome State Fault Refusal :=
  if s.blockOut 16 || axisDisabled a s || decide (s.axes[a].point = samplePoint a s) then .next s
  else
    let s := (abzRecovers a s).updAxis a fun x => { x with
      point := samplePoint a s, holdAt := s.clock, sarLeft := if s.flag (axisAddr a 0) 17 then 2 else 0, abzIll := 0 }
    .next (if angleSrc a s = 0 then
        let x := s.axes[a]
        let rec_ := s.field (axisAddr a 0xE) 0 8 * 1000
        let starts := !x.ssiOpen && decide (x.ssiEdge + rec_ ≤ s.clock)
        let miss := if x.ssiSeen then 0 else x.ssiMiss + 1
        let s := s.updAxis a fun x => { x with
          ssiOpen := x.ssiOpen || starts, ssiAt := if starts then s.clock else x.ssiAt, ssiSeen := false, ssiMiss := miss }
        if 4 ≤ miss then loseFeedback a 0x8002 s else s
      else s)

/-- The value an SSI word carries over its position bits, and whether the frame is good (R385). -/
def ssiValue (a : AxisId) (word : Word) (crc : BitVec 6) (s : State) : Nat × Bool :=
  let bits := clampN 8 32 (s.field (axisAddr a 0xE) 24 6)
  let withCrc := s.flag (axisAddr a 0xE) 20
  let n := if withCrc then bits - 6 else bits
  let raw := word.toNat % 2 ^ n
  let all := if withCrc then raw * 64 + crc.toNat else raw
  let good := decide (all ≠ 0) && decide (all ≠ 2 ^ bits - 1) && (!withCrc || decide (crc6 n raw = crc.toNat))
  (if s.flag (axisAddr a 0xE) 19 then grayValue n raw else raw, good)

/-- SSI_FRAME: a frame completes. A good frame moves the count by the shortest way; a bad one is counted, and LOSS_N bad
frames in a row lose the feedback (R385, R387). -/
def execSsiFrame (a : AxisId) (word : Word) (crc : BitVec 6) (s : State) : Outcome State Fault Refusal :=
  if s.blockOut 16 || !s.axes[a].ssiOpen then .next s
  else
    let s := s.updAxis a fun x => { x with ssiOpen := false, ssiEdge := s.clock, ssiSeen := true }
    let v := ssiValue a word crc s
    .next (if v.2 then
        let n := clampN 8 32 (s.field (axisAddr a 0xE) 24 6) - (if s.flag (axisAddr a 0xE) 20 then 6 else 0)
        let x := s.axes[a]
        let at_ := x.ssiAt
        let s := match x.ssiLast with
          | none => setPos a (if s.flag (axisAddr a 0) 12 then -(v.1 : Int) else v.1) s
          | some old => movePos a (signed n (v.1 + 2 ^ n - old)) s
        s.updAxis a fun x => { x with
          ssiLast := some v.1, ssiBadRun := 0, posAt := at_, lost := x.lost && decide (16 ≤ x.disagree) }
      else
        let s := s.countUp (axisAddr a 0x1F) 16 16
        let run := s.axes[a].ssiBadRun + 1
        let s := s.updAxis a fun x => { x with ssiBadRun := run }
        if lossN a s ≤ run then loseFeedback a 0x8002 s else s)

/-- The quadrature phase of two levels. -/
def quadPhase (la lb : Bool) : Nat := match la, lb with
  | false, false => 0 | true, false => 1 | true, true => 2 | false, true => 3

/-- The least time between two changes of A and B, in ns: an edge rate of 20 MHz / (FILTER + 1) (R386, Table 15.4). -/
def abzGap (a : AxisId) (s : State) : Nat := 50 * (s.field (axisAddr a 0xF) 16 2 + 1)

/-- ABZ_EDGE: a level that the filter has accepted changes. ×4 decoding; a change of both A and B, or one that comes above
the edge rate, is an illegal transition, counted; the first Z edge is the reference of the later ones (R386, R387, Table
15.4). -/
def execAbzEdge (a : AxisId) (la lb lz : Bool) (s : State) : Outcome State Fault Refusal :=
  if s.blockOut 16 || decide (angleSrc a s ≠ 1) then .next s
  else
    let x := s.axes[a]
    let d := (quadPhase la lb + 4 - quadPhase x.abzA x.abzB) % 4
    let early := match x.abzAt with | some t => decide (s.clock < t + abzGap a s) | none => false
    let s := s.updAxis a fun x => { x with
      abzA := la, abzB := lb, abzZ := lz, abzAt := if d = 0 then x.abzAt else some s.clock }
    let s := match d, early with
      | 0, _ => s
      | 1, false => movePos a 1 s
      | 3, false => movePos a (-1) s
      | _, _ =>
        let s := (s.countUp (axisAddr a 0x1F) 0 16).updAxis a fun x => { x with abzIll := x.abzIll + 1 }
        if lossN a s ≤ s.axes[a].abzIll then loseFeedback a 0x8002 s else s
    .next (if lz && !x.abzZ then
        let p := s.axes[a].pos
        match x.abzZero with
        | none => s.updAxis a fun x => { x with abzZero := some p }
        | some z =>
          let cpr : Nat := cprOf a s
          let e := if cpr = 0 then (p - z).natAbs else min ((p - z) % cpr).natAbs ((z - p) % cpr).natAbs
          if s.field (axisAddr a 0xF) 0 16 < e then loseFeedback a 0x8002 s else s
      else s)

/-! ### Currents and the sample -/

/-- The phase current of a code: offset, gain, rounding, saturation (R380). -/
def phaseCurrent (c off gain : Int) : Int := satS 32 (((c - off) * gain + 2 ^ 15) >>> 16)

/-- The back-EMF observer runs: AXIS_RL and AXIS_KE nonzero (R388). -/
def obsRuns (a : AxisId) (s : State) : Bool :=
  decide (s.word (axisAddr a 5) ≠ 0) && decide (s.word (axisAddr a 4) ≠ 0)

/-- Below W_HAND / 2 a sensorless stop finishes with a blind ramp: the field turns open-loop from the speed reached down to 0, at I_RAMP
(R391). -/
def beginBlind (a : AxisId) (v : Int) (s : State) : State :=
  let i := q15 s (axisAddr a 0x12) 16
  fixCurrent a 0 (if v < 0 then -i else i) (s.updAxis a fun x => { x with start := .blind, rampSpeed := v, rampDone := false })

/-- The observer's estimate of a sample: its angle, its speed and its PLL error are free values, since the spec gives no
gains; lock follows from them as R388 states. Loss of lock in RUN raises OBSERVER_LOST, and a stop below W_HAND / 2 goes on by the blind ramp (R391). -/
def observe (a : AxisId) (s : State) : State :=
  if !obsRuns a s then s
  else
    let th := Config.freeBits s.free % 2 ^ 32
    let sp := satS 32 (signed 32 (Config.freeBits (s.free + 1)))
    let err := Config.freeBits (s.free + 2) % 2 ^ 31        -- magnitude, in units of 2⁻³² revolution
    let s := { s with free := s.free + 3 }
    let x := s.axes[a]
    let half := wHand a s / 2
    let fast := decide (half ≤ sp.natAbs)
    let good := if err < 119304647 && fast then x.obsGood + 1 else 0     -- 10° of a revolution
    let bad := if 357913941 < err then x.obsBad + 1 else 0               -- 30°
    let was := obsLocked a s
    let lock := if was then decide (bad < 16) && fast else decide (64 ≤ good)
    let s := s.updAxis a fun x => { x with obsTheta := th, obsSpeed := sp, obsGood := good, obsBad := bad }
    let s := axisFlag a 19 lock s
    if x.start = .run && !fast && s.mach.stop.isSome then beginBlind a sp s
    else if was && !lock && x.start = .run then raiseStop 1 0x7003 (some a) (record 0x7003 a 0 s) else s

/-- Source and observer are compared at the measuring instant while the observer is locked above W_HAND: 16 samples beyond 45°
lose the feedback (R387). -/
def compareSource (a : AxisId) (at_ : Int) (s : State) : State :=
  let x := s.axes[a]
  let theta := sourceAngle a x.pos s + angleStep a (axisSpeed a s) (at_ - x.posAt) s
  let d := wrapAngle (theta - x.obsTheta)
  let off := min d (2 ^ 32 - d)
  let n := if obsLocked a s && decide (wHand a s < x.obsSpeed.natAbs) && decide (2 ^ 29 < off) then x.disagree + 1 else 0
  let s := s.updAxis a fun x => { x with disagree := n }
  if 16 ≤ n && decide (angleSrc a s < 2) then loseFeedback a 0x8002 s else s

/-- Freeze: the count unchanged for FREEZE_N samples under torque while the observer turns, raised once for each run of
such samples (R358). -/
def watchFreeze (a : AxisId) (s : State) : State :=
  let x := s.axes[a]
  let still := match x.posHist with
    | p :: q :: _ => decide (p = q)
    | _ => false
  let on := still && decide (q15 s (0x4184 + a.val) 16 ≤ x.iQ.natAbs) && decide (q15 s (0x4184 + a.val) 0 ≤ x.obsSpeed.natAbs)
  let n := if on then x.frozen + 1 else 0
  let limit := s.field (0x4180 + a.val) 0 16
  let froze := decide (limit ≠ 0) && decide (0 < n) && (x.froze || decide (limit ≤ n))
  let s := s.updAxis a fun x => { x with frozen := n, froze := froze }
  if froze && !x.froze then loseFeedback a 0x8003 s else s

/-- The advance at a speed: linear between the 16 points, 0 below the first, the last above the last (R392). -/
def advanceAt (speed : Int) : List (Int × Int) → Int
  | [] => 0
  | [(_, a)] => a
  | (s0, a0) :: (s1, a1) :: r =>
    if speed < s0 then 0
    else if speed ≤ s1 then (if s1 = s0 then a1 else a0 + roundDivI ((a1 - a0) * (speed - s0)) (s1 - s0).toNat)
    else advanceAt speed ((s1, a1) :: r)

/-- The points of AXIS_ADV0–15: speed and advance in units of 2⁻³² revolution. -/
def advPoints (a : AxisId) (s : State) : List (Int × Int) :=
  (List.range 16).map fun i =>
    let w := s.word (axisAddr a (0x20 + i))
    (sbits w 16 16 * 65536, (bits w 0 16 : Int) * 65536)

/-- Phase advance applies (R392). -/
def advances (a : AxisId) (s : State) : Bool := decide (s.field (axisAddr a 0) 20 2 = 2) && s.feature 13
/-- Field weakening applies (R392). -/
def weakens (a : AxisId) (s : State) : Bool := decide (s.field (axisAddr a 0) 20 2 = 1) && s.feature 12

/-- The advance of an axis at its speed, by the points of its last sample (R403). -/
def advanceOf (a : AxisId) (s : State) : Int :=
  if advances a s then
    let pts := s.axes[a].adv
    match pts with
    | (s0, _) :: _ => if axisSpeed a s < s0 then 0 else advanceAt (axisSpeed a s) pts
    | [] => 0
  else 0

/-- The field-weakening output of a sample (R392). -/
def weaken (a : AxisId) (s : State) : State :=
  let x := s.axes[a]
  let w := if weakens a s then
      let idMin := sbits (s.word (axisAddr a 0x15)) 0 16 * 65536
      let vfw : Int := s.field (axisAddr a 0x15) 16 16 * 32768
      clampI idMin 0 (x.fw + mulQ (s.word (axisAddr a 0x16)).toInt (vfw - x.vMag))
    else 0
  axisFlag a 18 (decide (w < 0)) (s.updAxis a fun x => { x with fw := w })

/-- The speed limits (Table 15.4): beyond one, AXIS_OVERSPEED and a category 1 stop, once until it falls back. -/
def watchSpeed (a : AxisId) (s : State) : State :=
  let v := (axisSpeed a s).natAbs
  let beyond := decide (q15 s (axisAddr a 0x19) 16 < v) || decide (2000 * 60 * 2 ^ 31 < v * baseRpm a s * polePairs a s)
  let was := s.axes[a].beyond
  let s := s.updAxis a fun x => { x with beyond := beyond }
  if beyond && !was then raiseStop 1 0x7005 (some a) (record 0x7005 a 0 s) else s

/-- The short-circuit limit speed follows KE_EST: AXIS_W_SC (R393). -/
def refreshShortLimit (a : AxisId) (s : State) : State :=
  let ke := max (s.word (axisAddr a 4)).toNat (s.word (axisAddr a 0x18)).toNat
  let ilim := s.field (axisAddr a 7) 0 16 * s.field (axisAddr a 6) 0 24
  let w := shortLimit ilim (s.field (axisAddr a 5) 16 16) (s.field (axisAddr a 5) 0 16) ke (polePairs a s) (baseRpm a s)
  s.setWord (axisAddr a 8) (BitVec.ofNat 32 w)

/-- |e| of a sample in µV, from the currents of this sample and of the one before it (R388). -/
def emfOf (a : AxisId) (al be alOld beOld : Int) (s : State) : Nat :=
  let x := s.axes[a]
  let vbus := (s.loop.ain[Fin.ofNat 16 (s.field (axisAddr a 0xC) 28 4)]).toNat * s.field (axisAddr a 0xC) 0 24
  let e := backEmf vbus (s.field (axisAddr a 6) 0 24) (s.field (axisAddr a 5) 16 16) (s.field (axisAddr a 5) 0 16) (sampleNs4 a s)
  magnitude (e x.vAl al alOld) (e x.vBe be beOld)

/-- KE_EST of a sample: |e| / ω from the observer, filtered with a time constant of 100 ms; the first estimate is taken as
it is. Below KE_MIN_SPEED, and where the observer reports no speed, it holds its value (R396). -/
def estimateKe (a : AxisId) (emf : Nat) (s : State) : State :=
  let w := (s.axes[a]).obsSpeed.natAbs
  if !obsRuns a s || decide ((axisSpeed a s).natAbs ≤ q15 s (axisAddr a 0x17) 0) || decide (w * baseRpm a s = 0) then s
  else
    let new : Int := keOf emf w (baseRpm a s) (polePairs a s)
    let ke := match (s.axes[a]).ke with
      | none => new
      | some old => old + roundDivI ((new - old) * sampleNs4 a s) 400000000
    refreshShortLimit a ((s.updAxis a fun x => { x with ke := some ke.toNat }).setWord (axisAddr a 0x18)
      (BitVec.ofNat 32 (min (2 ^ 32 - 1) (ke.toNat / 2 ^ 20))))

/-- Ke supervision (R396): KE_EST, once estimated, outside its window for 100 ms, KE_ABNORMAL and KE_OUT, and with KE_ACT a
category 1 stop; back inside for 100 ms, KE_OUT clears. -/
def superviseKe (a : AxisId) (s : State) : State :=
  if !obsRuns a s || (s.axes[a]).ke.isNone then s
  else
    let nom := (s.word (axisAddr a 4)).toNat
    let est := (s.word (axisAddr a 0x18)).toNat
    let win := s.field (axisAddr a 0x17) 16 8
    let out := decide (nom * (100 + win) < est * 100) || decide (est * 100 < nom * (100 - win))
    let x := s.axes[a]
    let start (o : Option Nat) : Option Nat := some (o.getD s.clock)
    let s := s.updAxis a fun x => { x with
      keBadAt := if out then start x.keBadAt else none, keGoodAt := if out then none else start x.keGoodAt }
    let long (o : Option Nat) : Bool := match o with | some t => decide (t + 100000000 ≤ s.clock) | none => false
    let isOut := s.flag (axisAddr a 1) 16
    if out && long x.keBadAt && !isOut then
      let s := axisFlag a 16 true (record 0x7004 a 0 s)
      onlyIf (s.flag (axisAddr a 0) 8) (raiseStop 1 0x7004 (some a)) s
    else if !out && long x.keGoodAt && isOut then axisFlag a 16 false s
    else s

/-- HANDOVER to RUN: the current vector is held, re-expressed in the observer frame, and the speed slot's accumulator is
preset to the resulting i_q (R391). -/
def handOver (a : AxisId) (theta : Nat) (s : State) : State :=
  let x := s.axes[a]
  let (al, be) := invPark x.iD x.iQ theta
  let (_, iq) := park al be x.obsTheta
  let n := axisSlot a 1
  let sh := bits (s.loop.slots[n]).gains.cfg 16 5
  let s := s.updSlot n fun k => { k with acc := iq * 2 ^ sh }
  freeCurrent a (s.updAxis a fun x => { x with start := .run, byObs := true })

/-- The start states at a sample: RAMP turns the field until W_HAND, HANDOVER passes to RUN when the observer locks
(Table 15.3); under a stop both go over to the blind ramp, which goes down to 0 at the rate of RAMP (R391). -/
def rampStart (a : AxisId) (theta : Nat) (s : State) : State :=
  let x := s.axes[a]
  if (x.start = .ramp || x.start = .handover) && s.mach.stop.isSome then beginBlind a x.rampSpeed s
  else match x.start with
  | .ramp =>
    let rate : Int := s.field (axisAddr a 0x12) 0 16
    let v := x.rampSpeed + x.startDir * roundDivI (rate * 2 ^ 23 * sampleNs4 a s) 4000000000
    if wHand a s ≤ v.natAbs then
      takeCurrent a 0 (x.startDir * q15 s (axisAddr a 0x12) 16)
        (s.updAxis a fun x => { x with start := .handover, startAt := s.clock, rampSpeed := x.startDir * wHand a s })
    else s.updAxis a fun x => { x with rampSpeed := v }
  | .blind =>
    let step := roundDivI ((s.field (axisAddr a 0x12) 0 16 : Int) * 2 ^ 23 * sampleNs4 a s) 4000000000
    let v := if x.rampSpeed < 0 then min 0 (x.rampSpeed + step) else max 0 (x.rampSpeed - step)
    s.updAxis a fun x => { x with rampSpeed := v, rampDone := decide (v = 0) }
  | .handover => if obsLocked a s then handOver a theta s else s
  | _ => s

/-- The commanded angle of a row of Table 15.2 at a time. -/
def alignAngle (a : AxisId) (t : Int) (s : State) : Nat :=
  let x := s.axes[a]
  match x.alignRow with
  | 2 => 1431655765
  | 6 => wrapAngle (clampI 0 400000000 (t - x.alignAt) * 2 ^ 32 / 400000000)
  | _ => 0

/-- The angle the axis runs on before extrapolation: open-loop during alignment and start, the observer's, or the
source's. -/
def axisAngle (a : AxisId) (s : State) : Nat :=
  let x := s.axes[a]
  if x.alignRow ≠ 0 then alignAngle a s.clock s
  else match x.start with
    | .align => 0
    | .ramp | .handover | .blind => wrapAngle ((s.word (axisAddr a 0x1D)).toNat + angleStep a x.rampSpeed (sampleNs4 a s / 4) s)
    | .run => x.obsTheta
    | _ => if x.byObs || decide (angleSrc a s = 2) then x.obsTheta else sourceAngle a x.pos s

/-- The angle extrapolated to a time, with the phase advance (R381, R385): that of AXIS_ANGLE moved on by the speed, which in
a start is that of the ramp; in an alignment the commanded one. -/
def angleAt (a : AxisId) (t : Int) (s : State) : Nat :=
  let x := s.axes[a]
  if x.alignRow ≠ 0 then wrapAngle (alignAngle a t s + advanceOf a s)
  else
    let speed := match x.start with
      | .align => 0
      | .ramp | .handover | .blind => x.rampSpeed
      | _ => axisSpeed a s
    wrapAngle ((s.word (axisAddr a 0x1D)).toNat + angleStep a speed (t - x.thetaAt) s + advanceOf a s)

/-- The centre of the PWM period that follows, in which a group written now applies (R377, R381). -/
def applyCentre (a : AxisId) (s : State) : Int :=
  let period := pwmPeriod a s * 5                   -- in half ns
  s.clock + (period - 2 * s.deviceTime.toNat % period + period / 2) / 2

/-! ### The compare group -/

/-- A group with one mode for every phase. -/
def uniformGroup (m : Nat) : CompareGroup := ⟨0, 0, 0, BitVec.ofNat 2 m, BitVec.ofNat 2 m, BitVec.ofNat 2 m⟩

/-- What the modulation of a sample gives: the compare group, |v| before the limit, and the voltage after it (R383). -/
structure Modulated where
  group : CompareGroup
  vMag  : Nat := 0
  vAl   : Int := 0
  vBe   : Int := 0
  deriving DecidableEq, Repr

/-- The compare group of an axis: both switches off in RETRY, the short, or the modulation of v_d and v_q (R383, R394,
R410). -/
def formGroup (a : AxisId) (s : State) : Modulated :=
  let x := s.axes[a]
  if x.start = .retry then ⟨uniformGroup 1, 0, 0, 0⟩
  else if s.flag (axisAddr a 1) 17 then ⟨uniformGroup (if s.flag (axisAddr a 0) 28 then 3 else 2), 0, 0, 0⟩
  else
    let p := pwmPeriod a s
    let (al, be) := invPark x.vD x.vQ (angleAt a (applyCentre a s) s)
    let m := magnitude al be
    let (al', be') := limitVector al be
    let (ca, cb, cc) := svm al' be' p
    let (cb, cc) := if s.flag (axisAddr a 0) 12 then (cc, cb) else (cb, cc)
    ⟨⟨BitVec.ofNat 19 ca, BitVec.ofNat 19 cb, BitVec.ofNat 19 cc, 0, 0, 0⟩, m, al', be'⟩

/-- The group is formed and written to the gate channels' shadow (R354, R383). -/
def writeGroup (a : AxisId) (s : State) : State :=
  let m := formGroup a s
  let s := axisFlag a 21 (decide (2 ^ 31 < m.vMag)) (s.updAxis a fun x => { x with vMag := m.vMag, vAl := m.vAl, vBe := m.vBe })
  s.updGate a fun x => { x with shadow := m.group, fresh := true }

/-- A short asked for is taken at once below 0.9 × ω_SC, its group written, and deferred behind regenerative braking above it (R394, R400). -/
def judgeShort (a : AxisId) (s : State) : State :=
  let x := s.axes[a]
  if !x.shorting || s.flag (axisAddr a 1) 17 then s
  else
    let w := (s.word (axisAddr a 8)).toNat
    if w = 2 ^ 32 - 1 || decide ((axisSpeed a s).natAbs * 10 < w * 9) then
      writeGroup a (axisFlag a 17 true (s.updAxis a fun x => { x with braking := false }))
    else if x.braking then s
    else record 0x7006 a 0 (s.updAxis a fun x => { x with braking := true })

/-- A current sample is complete (R380, R381): position, speed and angle, supervision, the d and q currents for the
current slots, which become ready while the gates are enabled (R347, R360). `back` is the time from the measuring
instant to now. -/
def currentSample (a : AxisId) (back : Nat) (s : State) : State :=
  let x := s.axes[a]
  let hist := (x.pos :: x.posHist).take 9
  let s := observe a (s.updAxis a fun x => { x with posHist := hist, sampleAt := s.clock, adv := advPoints a s })
  let sensor := !(s.axes[a].byObs) && decide (angleSrc a s < 2)
  let speed := if s.axes[a].start = .blind then s.axes[a].rampSpeed else if sensor then speedOf a hist s else s.axes[a].obsSpeed
  let s := s.setWord (axisAddr a 0x1C) (wordOf speed)
  let theta := axisAngle a s
  let measured := s.clock - back
  let s := (s.setWord (axisAddr a 0x1D) (BitVec.ofNat 32 theta)).updAxis a fun x => { x with
    thetaAt := if sensor then x.posAt else measured }
  let th := angleAt a measured s
  let s := watchSpeed a (compareSource a measured s)
  let gain := (s.word (axisAddr a 0xB)).toInt
  let ia := phaseCurrent x.cA (sbits (s.word (axisAddr a 9)) 0 24) gain
  let im := phaseCurrent x.cB (sbits (s.word (axisAddr a 0xA)) 0 24) gain
  let ib := if s.flag (axisAddr a 0) 12 then satS 32 (-ia - im) else im
  let (d, q) := park ia (clarkeBeta ia ib) th
  let emf := emfOf a ia (clarkeBeta ia ib) x.iA (clarkeBeta x.iA x.iB) s
  let s := s.updAxis a fun x => { x with iA := ia, iB := ib, iD := d, iQ := q }
  let s := superviseKe a (estimateKe a emf (watchFreeze a (weaken a (rampStart a theta s))))
  let s := judgeShort a s
  let on := gatesEnabled a s
  let slot (r : Fin 4) (v : Int) (s : State) : State :=
    s.updSlot (axisSlot a r) fun k => { k with fb := v, ready := k.ready || on }
  let s := slot 3 q (slot 2 d s)
  (s.updSlot (axisSlot a 0) fun k => { k with fb := satS 32 s.axes[a].pos }).updSlot (axisSlot a 1) fun k => { k with fb := speed }

/-- The modulator's period × 1.5 × OSR: the group delay of the filter in ns (R378). -/
def filterDelay (s : State) : Nat :=
  let osr := match s.field 0x3900 0 2 with | 0 => 64 | 1 => 128 | _ => 256
  clampN 4 20 (s.field 0x3900 16 5) * 10 * osr * 3 / 2

/-- SDM_WORD: a sinc3 output word of both phases ends at the sample point; each sample point has one (R378). -/
def execSdmWord (a : AxisId) (ca cb : BitVec 24) (s : State) : Outcome State Fault Refusal :=
  if s.blockOut 16 || axisDisabled a s || s.flag (axisAddr a 0) 17 || decide (s.axes[a].wordPoint = samplePoint a s) then .next s
  else
    let s := s.updAxis a fun x => { x with wordPoint := samplePoint a s, cA := ca.toInt, cB := cb.toInt }
    .next (currentSample a (filterDelay s) s)

/-- The axis whose phase an analogue input carries, and whether it is its second phase (R379). -/
def sarPhase (i : Fin 16) : Option (AxisId × Bool) :=
  let p := i.val / 2
  let second := decide (i.val % 2 = 1)
  match p with
  | 0 => some (0, second) | 1 => some (1, second) | 4 => some (2, second) | 5 => some (3, second) | _ => none

/-- The edge die whose SAR converts an analogue input (Table 1.2). -/
def ainDie (i : Fin 16) : Fin 2 := if i.val < 8 then 0 else 1

/-- The axis whose held currents a die's SAR converts next: of those that wait, the one held first. -/
def sarFront (d : Fin 2) (s : State) : Option AxisId :=
  (dieAxes d).foldl (fun best a =>
    if axisDisabled a s || decide (s.axes[a].sarLeft = 0) then best
    else match best with
      | some b => if s.axes[a].holdAt < s.axes[b].holdAt then some a else best
      | none => some a) none

/-- The input is the one whose held current an axis waits for. -/
def sarAwaits (a : AxisId) (i : Fin 16) (s : State) : Bool :=
  decide (sarPhase i = some (a, decide (s.axes[a].sarLeft = 1)))

/-- A conversion of an input can end now: 0.5 µs after the die's last, and while held currents wait, theirs in turn, behind
none but one that was in progress at the hold (R379, R398). -/
def sarEnds (i : Fin 16) (s : State) : Bool :=
  decide (s.dies[ainDie i].sarAt + 500 ≤ s.clock) &&
    match sarFront (ainDie i) s with
    | none => true
    | some a => decide (sarAwaits a i s ↔ s.axes[a].holdAt + 500 ≤ s.clock)

/-- SAR_CONVERSION: a conversion ends. The second conversion of an axis on the SAR path ends its sample (R379). -/
def execSarConversion (i : Fin 16) (code : BitVec 16) (s : State) : Outcome State Fault Refusal :=
  if s.blockOut 16 || !sarEnds i s then .next s
  else
    let c : Int := ((code.toNat : Int) - 32768) * 256
    let front := sarFront (ainDie i) s
    let s := { s with loop := { s.loop with ain := modAt s.loop.ain i fun _ => code } }.updDie (ainDie i) fun x => { x with sarAt := s.clock }
    .next (match front with
      | none => s
      | some a =>
        if !sarAwaits a i s then s
        else if s.axes[a].sarLeft = 2 then s.updAxis a fun x => { x with cA := c, sarLeft := 1 }
        else currentSample a (s.clock - s.axes[a].holdAt) (s.updAxis a fun x => { x with cB := c, sarLeft := 0 }))

/-! ### Alignment (R389) -/

/-- ALIGN is accepted (R389). -/
def canAlign (a : AxisId) (mode1 : Bool) (s : State) : Bool :=
  (decide (s.modes.mode = .run) || decide (s.modes.mode = .degraded)) && standstill a 0 s && gatesEnabled a s &&
    decide (s.mach.brakes[a].phase = .set) && s.mach.stop.isNone && decide (s.axes[a].alignRow = 0) &&
    !unitFailed .encoder a s &&
    (!mode1 || (decide (angleSrc a s = 0) && s.flag (axisAddr a 0x1E) 0))

/-- The alignment begins with the row of phase a. -/
def beginAlign (a : AxisId) (s : State) : State :=
  takeCurrent a 0 0 ((axisFlag a 20 false s).updAxis a fun x => { x with alignRow := 1, alignAt := s.clock, alignCode := 0, lost := false })

/-- A row passes: the next row begins, its count from the position reached. -/
def alignNext (a : AxisId) (row : Nat) (s : State) : State :=
  s.updAxis a fun x => { x with alignRow := row, alignAt := s.clock, alignPos := x.pos }

/-- The open-loop voltage of the first two rows of Table 15.2, at the angle of the row. -/
def openLoop (a : AxisId) (volts : Int) (s : State) : State := writeGroup a (s.updAxis a fun x => { x with vD := volts, vQ := 0 })

/-- One of the first two rows passes: the voltage is taken off, and the next row begins 5 ms after this one began. -/
def alignOpenNext (a : AxisId) (row : Nat) (s : State) : State :=
  openLoop a 0 (s.updAxis a fun x => { x with alignRow := row, alignAt := x.alignAt + 5000000 })

/-- A row fails: the brake is set, i_d is ramped to 0, the code and AXIS_ALIGN_FAILED stand (R389). -/
def alignFails (a : AxisId) (code : Nat) (s : State) : State :=
  let s := brakeOff a s
  let s := record 0x7001 a code (s.setField (axisAddr a 1) 24 4 code)
  s.updAxis a fun x => { x with alignRow := 8, alignAt := s.clock, alignCode := code }

/-- The alignment ends with ALIGN_OK. -/
def alignOkay (a : AxisId) (s : State) : State :=
  freeCurrent a ((axisFlag a 20 true (s.setField (axisAddr a 1) 24 4 0)).updAxis a fun x => { x with alignRow := 0 })

/-- I_ALIGN as Q1.31. -/
def iAlign (a : AxisId) (s : State) : Int := q15 s (axisAddr a 0x11) 16
/-- I_MIN and T_REL of an axis's brake. -/
def iMin (a : AxisId) (s : State) : Nat := s.field (machAddr a 8) 8 8
/-- T_REL in ns. -/
def tRel (a : AxisId) (s : State) : Nat := s.field (machAddr a 8) 24 8 * 1000000

/-- The count of the turn against CPR / PP: the code of what is wrong with it, none within 12.5 % (Table 15.2). -/
def turnCode (count : Int) (want : Nat) : Option Nat :=
  if 100 * count.natAbs < want then some 4
  else if count < 0 then some 5
  else if (8 * count.natAbs) < 7 * want || 9 * want < 8 * count.natAbs then some 6
  else none

/-- ALIGN_PHASE_TIMER: a row of Table 15.2 is judged by what it measured. -/
def execAlignPhaseTimer (a : AxisId) (m : AlignMeasure) (s : State) : Outcome State Fault Refusal :=
  if s.blockOut 16 then .next s
  else
    let x := s.axes[a]
    let past (ns : Nat) : Bool := decide (x.alignAt + ns ≤ s.clock)
    let reached := decide (iAlign a s ≤ 2 * max m.ia.natAbs (max m.ib.natAbs m.ic.natAbs))
    let full := decide (429496730 ≤ m.volts) || past 5000000       -- 0.2 per unit, or the end of the row
    .next (match x.alignRow with
      | 1 =>
        let s := openLoop a m.volts s
        if !reached then (if full then alignFails a 7 s else s)
        else if m.ia ≤ 0 then alignFails a 1 s
        else if 0 ≤ m.ib then alignFails a 2 s
        else alignOpenNext a 2 s
      | 2 =>
        if !past 0 then s
        else
        let s := openLoop a m.volts s
        if !reached then (if full then alignFails a 7 s else s)
        else if m.ib ≤ 0 || m.ib ≤ m.ia || m.ib ≤ m.ic then alignFails a 3 s
        else if s.flag (axisAddr a 0) 11 then alignOkay a s
        else alignOpenNext a 3 (fixCurrent a (iAlign a s) 0 s)
      | 3 =>
        if past 20000000 then
          alignNext a 4 (s.updBrake a fun b => { b with phase := .energised, since := s.clock })
        else s
      | 4 =>
        let s := coilMeasured a m.coil s
        if iMin a s ≤ m.coil && decide (s.mach.brakes[a].phase ≠ .set) then alignNext a 5 (s.updBrake a fun b => { b with phase := .released, since := s.clock })
        else if past (tRel a s) then alignFails a 9 s
        else s
      | 5 =>
        if past (s.field (axisAddr a 0x11) 0 16 * 1000000) then
          if angleSrc a s = 2 then alignNext a 7 (brakeOff a s)
          else alignNext a 6 (s.setWord (axisAddr a 0x10) (BitVec.ofInt 32 (-countAngle a x.pos s)))
        else s
      | 6 =>
        if past 400000000 then
          match turnCode (x.pos - x.alignPos) (cprOf a s / polePairs a s) with
          | some code => alignFails a code s
          | none => alignNext a 7 (brakeOff a s)
        else s
      | 7 =>
        let s := coilMeasured a m.coil s
        if m.coil < iMin a s then
          alignNext a 8 (s.updBrake a fun b => { b with falling := false })
        else if past (brakeSetTime a s) then
          alignFails a 9 (record 0xA009 a 0 (s.updBrake a fun b => { b with falling := false }))
        else s
      | 8 =>
        if past 20000000 then
          if x.alignCode = 0 then alignOkay a s
          else freeCurrent a (s.updAxis a fun x => { x with alignRow := 0, alignCode := 0 })
        else s
      | _ => s)

/-! ### The sensorless start (R391) -/

/-- The sign of an integer. -/
def signOf (x : Int) : Int := if x < 0 then -1 else if 0 < x then 1 else 0

/-- The motion that the speed slot of an axis asks for: the sign of its set-point while it is enabled. -/
def motionAsked (a : AxisId) (s : State) : Int :=
  if s.flag (slotAddr (axisSlot a 1) 0) 31 then signOf (s.loop.slots[axisSlot a 1]).sp else 0

/-- A sensorless start may run: ANGLE_SRC 2, ALIGN_OK, the brake released, gates enabled, standstill, and a speed slot that
asks for motion. -/
def canStart (a : AxisId) (s : State) : Bool :=
  decide (angleSrc a s = 2) && decide (motionAsked a s ≠ 0) && alignOk a s && decide (s.mach.brakes[a].phase = .released) && gatesEnabled a s &&
    standstill a 0 s

/-- The ALIGN state of a start: i_d := I_ALIGN at θ = 0. -/
def startAlign (a : AxisId) (s : State) : State :=
  takeCurrent a (iAlign a s) 0 (s.updAxis a fun x => { x with start := .align, startAt := s.clock, byObs := false, rampDone := false })

/-- The RAMP state of a start: the field turns from standstill, with i_q of magnitude I_RAMP in the sense of the motion. -/
def startRamp (a : AxisId) (s : State) : State :=
  takeCurrent a 0 (s.axes[a].startDir * q15 s (axisAddr a 0x12) 16) (s.updAxis a fun x => { x with start := .ramp, startAt := s.clock, rampSpeed := 0 })

/-- SENSORLESS_START: a speed slot asks for motion from standstill (R391). After a stop whose blind ramp down completed, the start goes without
the ALIGN state (R395). -/
def execSensorlessStart (a : AxisId) (s : State) : Outcome State Fault Refusal :=
  let x := s.axes[a]
  .next (if !s.blockOut 16 && canStart a s && (x.start = .idle || x.start = .run || x.start = .fault || (x.start = .blind && x.rampDone)) then
      let s := (s.setField (axisAddr a 1) 0 4 0).updAxis a fun x => { x with startDir := motionAsked a s, tries := 0 }
      if x.rampDone then startRamp a (s.updAxis a fun x => { x with byObs := false, rampDone := false })
      else startAlign a s
    else s)

/-- START_STATE_TIMER: T_ALIGN, T_LOCK or T_RETRY passes and the start advances; lock is judged before expiry (R391,
R399). -/
def execStartStateTimer (a : AxisId) (s : State) : Outcome State Fault Refusal :=
  let x := s.axes[a]
  let past (ms : Nat) : Bool := decide (x.startAt + ms * 1000000 ≤ s.clock)
  .next (match x.start with
    | .align =>
      if past (s.field (axisAddr a 0x11) 0 16) then
        startRamp a (s.setWord (axisAddr a 0x1D) 0)
      else s
    | .handover =>
      if obsLocked a s then handOver a (s.word (axisAddr a 0x1D)).toNat s
      else if past (s.field (axisAddr a 0x14) 16 16) then
        let s := freeCurrent a (s.updAxis a fun x => { x with start := .retry, startAt := s.clock, tries := x.tries + 1 })
        writeGroup a (s.setField (axisAddr a 1) 0 4 (min 15 (x.tries + 1)))
      else s
    | .retry =>
      if past (s.field (axisAddr a 0x14) 0 16) then
        if s.field (axisAddr a 0x13) 8 4 < x.tries then axisGatesOff a s else startAlign a s
      else s
    | _ => s)

/-! ### The rules of the axis words -/

/-- The points of AXIS_ADV0–15 ascend in speed (R392). -/
def advAscends (a : AxisId) (s : State) : Bool := ((advPoints a s).zip ((advPoints a s).drop 1)).all fun p => decide (p.1.1 < p.2.1)

/-- An axis is enabled: its samples begin with the next sample point, and its feedback is judged anew (R377, R387). -/
def enableAxis (a : AxisId) (s : State) : State :=
  let k := samplePoint a s
  s.updAxis a fun x => { judgeAnew x with byObs := false, point := k, wordPoint := k, sarLeft := 0, ssiSeen := true }

/-- The rule of AXIS_CTRL (R377, R384, R389, R392, R394, R405). -/
def axisCtrlRule (a : AxisId) (addr : Nat) (val : Word) (s : State) : Rule :=
  let w := s.word addr
  let same (lo n : Nat) : Bool := decide (bits val lo n = bits w lo n)
  let idle := axisDisabled a s
  let ok := (idle || (same 24 2 && same 11 2)) && (same 16 1 || (decide (s.modes.mode = .admission) && (!bit val 16 || decide (25000 ≤ pwmPeriod a s)))) &&
    decide (bits val 24 2 < 3) && (decide (bits val 24 2 ≠ 2) || s.feature 11) &&
    (decide (bits val 20 2 ≠ 2) || same 20 2 || advAscends a s) &&
    (!bit val 30 || (bit val 31 && canAlign a (bit val 11) s))
  .when ok 0x7007 a addr (.accept val fun s =>
    let s := onlyIf (!same 17 1 || !same 12 1) (axisFlag a 20 false) s
    let s := onlyIf (idle && bit val 31) (enableAxis a) s
    let s := onlyIf (bit val 30) (beginAlign a) s
    if bit val 29 then
      onlyIf (gatesEnabled a s) (fun s => judgeShort a (refreshShortLimit a (s.updAxis a fun x => { x with shorting := true }))) s
    else axisFlag a 17 false (s.updAxis a fun x => { x with shorting := false, braking := false }))

/-- The sample rate of an axis is at most 32 kHz, its PWM frequency 1–60 kHz and its dead time fits (R377, Table 15.4,
Table 16.5). -/
def pwmFits (a : AxisId) (period : Nat) (s : State) : Bool :=
  decide (6667 ≤ period) && decide (period ≤ 400000) && decide ((if twoSamples a s then 25000 else 12500) ≤ period) &&
    dtFits period (s.field (gateAxisAddr a 0) 0 9)

/-- The rule of a word of the axes block (R405). -/
def axisRule (addr : Nat) (val : Word) (s : State) : Rule :=
  if addr = 0x3900 then .when (decide (s.modes.mode = .admission)) 0x7007 0xFFFF addr (.plain val)
  else
    let a : AxisId := Fin.ofNat 4 ((addr - 0x3800) / 0x40)
    let idle := Rule.when (axisDisabled a s) 0x7007 a addr
    let unaligned := axisFlag a 20 false
    match (addr - 0x3800) % 0x40 with
    | 0x00 => axisCtrlRule a addr val s
    | 0x02 => .when (decide (s.modes.mode = .admission) && pwmFits a (bits val 0 19) s) 0x7007 a addr (.plain val)
    | 0x03 => idle (.accept val fun s => unaligned (refreshShortLimit a s))
    | 0x04 | 0x05 | 0x06 | 0x07 => .accept val (refreshShortLimit a)
    | 0x0D => idle (.accept val unaligned)
    | 0x0E =>
      let ok := decide (8 ≤ bits val 24 6) && decide (bits val 24 6 ≤ 32) && decide (10 ≤ bits val 8 8)
      idle (.when ok 0x7007 a addr (.accept val unaligned))
    | off =>
      if 0x20 ≤ off && off < 0x30 then
        .when (decide (s.field (axisAddr a 0) 20 2 ≠ 2) || advAscends a (s.setWord addr val)) 0x7007 a addr (.plain val)
      else .plain val

end Sys2Proof.Machine
end

