-- ==== Sys2Proof/Machine/Loop.lean ====
section
/-! DEFINITION. The loop engine (chapter 14): the evaluation of a slot, its set-points and feedback, saturation and lost
feedback, the grid with its shock and hem checks (R437, R442), and the rules of the loop words. -/
namespace Sys2Proof.Machine

open Host (Outcome)

/-! ### What a slot is -/

/-- The axis and role of a slot; none for a general slot (R346). -/
def slotAxis (n : Fin 24) : Option (AxisId × Fin 4) :=
  if n.val < 16 then some (Fin.ofNat 4 (n.val / 4), Fin.ofNat 4 (n.val % 4)) else none

/-- A slot's EN. -/
def slotOn (n : Fin 24) (s : State) : Bool := s.flag (slotAddr n 0) 31
/-- A slot's SP_SRC. -/
def spSrc (n : Fin 24) (s : State) : Nat := s.field (slotAddr n 0) 24 3
/-- A slot's FB_SRC. -/
def fbSrc (n : Fin 24) (s : State) : Nat := s.field (slotAddr n 0) 20 3
/-- INDEX of a slot's source. -/
def srcIndex (n : Fin 24) (s : State) : Fin 16 := Fin.ofNat 16 (s.field (slotAddr n 8) 20 4)

/-- A source value through the slot's scale (R350). -/
def scaled (n : Fin 24) (x : Int) (s : State) : Int :=
  satS 32 (roundShift (x * (s.word (slotAddr n 9)).toInt) (s.field (slotAddr n 8) 27 5))

/-- The code of the slot's AIN less OFFSET, signed 17 bits, scaled (Table 14.1). -/
def ainValue (n : Fin 24) (s : State) : Int :=
  scaled n ((s.loop.ain[srcIndex n s].toNat : Int) - s.field (slotAddr n 8) 0 16) s

/-- The slot's AIN reads at a rail (R359). -/
def ainRail (n : Fin 24) (s : State) : Bool :=
  let c := s.loop.ain[srcIndex n s]
  decide (c = 0) || decide (c = 0xFFFF)

/-- The axis belongs to a group in position lock. -/
def locks (a : AxisId) (s : State) : Bool := grouped a s && s.flag (machAddr a 0) 29

/-- A category 1 or 2 stop runs. -/
def stopping (s : State) : Bool := s.mach.stop.isSome

/-- The slot is to evaluate: its EN, a set-point that a unit sets itself (R390, R441), the speed loop of a stop (R440), or
the current loops of regenerative braking (R394). -/
def slotRuns (n : Fin 24) (s : State) : Bool :=
  slotOn n s || (s.loop.slots[n]).spFixed.isSome ||
    (match slotAxis n with
     | some (a, r) => (decide (r = 1) && stopping s) || (decide (2 ≤ r.val) && (s.axes[a]).braking)
     | none => false)

/-! ### Set-points (R350, R395, R440–R442) -/

/-- The ramp of a stop: from the speed at the demand to 0 at DECEL per second (R440). -/
def stopRamp (a : AxisId) (st : StopSeq) (s : State) : Int :=
  let v0 := st.speed[a]
  let down : Nat := s.field (machAddr a 4) 16 16 * 2 ^ 23 * (s.clock - st.since) / 1000000000
  if v0 < 0 then min 0 (v0 + down) else max 0 (v0 - down)

/-- √(2 × DECEL × d) as Q1.31 of base speed, d in µm; base speed is BASE_RPM × CPR counts a minute of MACH_POS_SCALE nm
each (R433, R442). -/
def hemSpeed (a : AxisId) (d : Nat) (s : State) : Int :=
  let base := baseRpm a s * cprOf a s * (s.word (machAddr a 1)).toNat      -- µm/s × 60,000
  if base = 0 then 2 ^ 31 - 1
  else
    let v : Nat := isqrt (2 * s.field (machAddr a 4) 16 16 * d * 60000 * 2 ^ 62 / (256 * base))
    min (2 ^ 31 - 1) (v : Int)

/-- A speed set-point clamped toward a hem (R442). -/
def hemClamp (a : AxisId) (v : Int) (s : State) : Int :=
  if !s.flag (machAddr a 0xD) 31 then v
  else
    let p := posUm a s
    let up := (s.word (machAddr a 0xC)).toInt - p
    let down := p - (s.word (machAddr a 0xB)).toInt
    if 0 < v then (if up ≤ 0 then 0 else min v (hemSpeed a up.toNat s))
    else if v < 0 then (if down ≤ 0 then 0 else max v (-hemSpeed a down.toNat s))
    else v

/-- The upstream output of a role (Table 14.1). -/
def upstream (a : AxisId) (r : Fin 4) (s : State) : Int :=
  match r with
  | 1 => (s.loop.slots[axisSlot a 0]).out
  | 3 => (s.loop.slots[axisSlot a 1]).out
  | _ => (s.axes[a]).fw

/-- The last evaluation period of a slot in ns: of its RATE; of a current slot the time since its last evaluation, or where
there was none, between samples (R347, R350). -/
def evalPeriod (n : Fin 24) (s : State) : Nat :=
  match slotAxis n with
  | some (a, r) =>
    if r.val < 2 then 125000 * 2 ^ s.field (slotAddr n 0) 16 2
    else match (s.loop.slots[n]).evalAt with
      | some t => if t < s.deviceTime.toNat then s.deviceTime.toNat - t else sampleNs4 a s / 4
      | none => sampleNs4 a s / 4
  | none => 125000 * 2 ^ s.field (slotAddr n 0) 16 2

/-- The set-point its SP_SRC gives a slot: the value, and the PLS count where one was read (Table 14.1). The count of a
PLS input comes from outside, and no command of the table carries it: it is a free value. -/
def sourceSetPoint (n : Fin 24) (s : State) : Int × State :=
  let x := s.loop.slots[n]
  match spSrc n s with
  | 0 => ((s.word (slotAddr n 7)).toInt, s)
  | 1 => match slotAxis n with
    | some (a, r) => (upstream a r s, s)
    | none => (x.sp, s)
  | 2 =>
    let rails := if ainRail n s then x.rails + 1 else 0
    let s := s.updSlot n fun y => { y with rails := rails }
    if s.flag (slotAddr n 0xD) 3 then (x.sp, s)
    else if 4 ≤ rails then (x.sp, record 0x8004 n 0 (s.setFlag (slotAddr n 0xD) 3 true))
    else (ainValue n s, s)
  | 3 =>
    let count := signed 32 s.freeVal
    let s := s.bump.updSlot n fun y => { y with pulses := count }
    if s.flag (slotAddr n 8) 18 then (scaled n count s, s)
    else
      (scaled n (Int.fdiv ((count - x.pulses) * 1000000000) (evalPeriod n s)) s, s)
  | 4 => (x.net, s)
  | _ => match slotAxis n with
    | some (a, r) =>
      let m := s.mach.axes[a]
      (if m.own then upstream a r s else (if r = 1 then m.spSpeed else m.spQ).getD x.sp, s)
    | none => (x.sp, s)

/-- The set-point of a speed slot: of its source, of the stop that runs, clamped toward a hem, and 0 until the brake is
released or while the entries of its group disagree (R435, R440–R442). -/
def speedSetPoint (a : AxisId) (s : State) : Int × State :=
  let n := axisSlot a 1
  let (v, s) := match s.mach.stop with
    | some st =>
      if st.cat = 2 && st.done[a] then (if slotOn (axisSlot a 0) s then upstream a 1 s else 0, s)
      else (satS 32 (stopRamp a st s + (if locks a s then s.mach.axes[a].corr else 0)), s)
    | none => if grouped a s && s.mach.clashed.contains (groupOf a s) then (0, s) else sourceSetPoint n s
  (if s.mach.brakes[a].phase = .released then hemClamp a v s else 0, s)

/-- The limit that field weakening leaves the q set-point: √(ILIM² − w²) (R392). -/
def qLimit (a : AxisId) (s : State) : Int :=
  let w := s.axes[a].fw
  let il := q15 s (axisAddr a 7) 0
  if w < 0 then isqrt (il * il - w * w).toNat else 2 ^ 31 - 1

/-- The set-point a q slot follows: regenerative braking (R394), a value the unit sets itself (R390, R441), the speed loop of
a stop (R440), or its source; the last two limited through a reversal (R395). -/
def qWanted (a : AxisId) (s : State) : Int × State :=
  let n := axisSlot a 3
  if (s.axes[a]).braking then (-signOf (axisSpeed a s) * q15 s (axisAddr a 0x19) 0, s)
  else match (s.loop.slots[n]).spFixed with
    | some v => (v, s)
    | none =>
      let (v, s) :=
        if stopping s && !(locks a s && decide (spSrc n s = 5)) then (upstream a 3 s, s) else sourceSetPoint n s
      let rev := q15 s (axisAddr a 7) 16
      let against := decide ((s.loop.slots[axisSlot a 1]).sp * axisSpeed a s < 0)
      (if against then clampI (-rev) rev v else v, s)

/-- The set-point of a q slot: every one is limited while the field is weakened (R392). -/
def qSetPoint (a : AxisId) (s : State) : Int × State :=
  let (v, s) := qWanted a s
  let lim := qLimit a s
  (clampI (-lim) lim v, s)

/-- The d set-point that an alignment sets: i_d is ramped up over its third row and down to 0 over its last, 20 ms each (Table 15.2). -/
def alignD (a : AxisId) (v : Int) (s : State) : Int :=
  let x := s.axes[a]
  let t : Nat := min 20000000 (s.clock - x.alignAt)
  match x.alignRow with
  | 3 => roundDivI (v * t) 20000000
  | 8 => roundDivI (v * (20000000 - t : Nat)) 20000000
  | _ => v

/-- The set-point a slot evaluates with. -/
def setPoint (n : Fin 24) (s : State) : Int × State :=
  match slotAxis n with
  | some (a, 1) => speedSetPoint a s
  | some (a, 3) => qSetPoint a s
  | some (a, 2) =>
    match (s.loop.slots[n]).spFixed with
    | some v => (alignD a v s, s)
    | none => sourceSetPoint n s
  | _ => sourceSetPoint n s

/-! ### Feedback of a general slot (R351, R359) -/

/-- The feedback a slot evaluates with. An FB_SRC for which the spec gives no source leaves a free value. -/
def feedback (n : Fin 24) (s : State) : Int × State :=
  match slotAxis n with
  | some _ => ((s.loop.slots[n]).fb, s)
  | none =>
    match fbSrc n s with
    | 1 => (ainValue n s, s)
    | 2 => ((s.word (slotAddr n 0xB)).toInt, s)
    | 3 => (scaled n (signed 32 s.freeVal) s, s.bump)
    | _ => (signed 32 s.freeVal, s.bump)

/-- A general slot's feedback is lost: FEEDBACK_LOST, and the slot stops with its output held or 0 (R359, Table 14.3). -/
def loseSlot (n : Fin 24) (s : State) : State :=
  let s := record 0x8002 n 0 (s.setFlag (slotAddr n 0xD) 2 true)
  let s := s.updSlot n fun x => { x with stopped := true }
  if s.flag (slotAddr n 0) 12 then (s.updSlot n fun x => { x with out := 0 }).setWord (slotAddr n 0xC) 0 else s

/-- The feedback of a general slot is judged: 4 evaluations at a rail, or 4 periods without a write of LOOP_FB_IN. -/
def judgeSlotFeedback (n : Fin 24) (s : State) : State :=
  match slotAxis n with
  | some _ => s
  | none =>
    let x := s.loop.slots[n]
    let rails := if fbSrc n s = 1 && ainRail n s then x.fbRails + 1 else 0
    let stale := if fbSrc n s = 2 then x.fbStale + 1 else 0
    let s := s.updSlot n fun y => { y with fbRails := rails, fbStale := stale }
    if 4 ≤ rails || 5 ≤ stale then loseSlot n s else s

/-! ### The evaluation (R348, R349) -/

/-- What an evaluation gives: the error, the filtered measurement, the accumulator, the sum before the clamp, the output
and whether it is clamped. -/
structure Evaluated where
  err     : Int
  mf      : Int
  acc     : Int
  sum     : Int
  out     : Int
  clamped : Bool
  deriving DecidableEq, Repr

/-- The computation of R348. -/
def compute (pid : Bool) (g : Gains) (acc mf mfPrev sp fb : Int) : Evaluated :=
  let e := satS 32 (sp - fb)
  let alpha : Int := if bits g.cfg 0 16 = 0 then 65535 else bits g.cfg 0 16
  let mf := if pid then mf + roundAway (alpha * (fb - mf)) 16 else mf
  let p := g.kp.toInt * e
  let d := if pid then -g.kd.toInt * (mf - mfPrev) else 0
  let shift := bits g.cfg 16 5
  let value (a : Int) : Int := satS 32 (roundShift (satS 64 (p + a + d)) shift)
  let a1 := satS 64 (acc + g.ki.toInt * e)
  let lo := g.omin.toInt
  let hi := g.omax.toInt
  let inside (v : Int) : Bool := decide (lo ≤ v) && decide (v ≤ hi)
  if inside (value a1) then ⟨e, mf, a1, value a1, value a1, false⟩
  else ⟨e, mf, acc, value acc, clampI lo hi (value acc), true⟩

/-- LOOP_SAT_LIMIT in ns; values outside 0.1 ms to 10 s act as the nearer bound (Table 14.4). -/
def satLimit (n : Fin 24) (s : State) : Nat := clampN 1 100000 (s.field (slotAddr n 0xA) 0 17) * 100000

/-- Saturation supervision after an evaluation (R357, R368). -/
def superviseSat (n : Fin 24) (clamped : Bool) (elapsed : Nat) (s : State) : State :=
  let x := s.loop.slots[n]
  let ns := if clamped then x.satNs + elapsed else 0
  let due := clamped && decide (satLimit n s ≤ ns) && !x.satSaid
  let s := s.updSlot n fun y => { y with satNs := ns, satSaid := clamped && (y.satSaid || due) }
  let s := (s.setField (slotAddr n 0xD) 8 20 (min (ns / 100000) (2 ^ 20 - 1))).setFlag (slotAddr n 0xD) 0 clamped
  if due then
    let s := record 0x8001 n 0 (s.latch (slotAddr n 0xD) 1)
    match slotAxis n with
    | some (a, _) => onlyIf (s.flag (slotAddr n 0) 8) (raiseStop 1 0x8001 (some a)) s
    | none => s
  else s

/-- The output a general slot applies: its LOSS_ACT while SAT_TRIPPED stands and SAT_ACT is 1 (R357). -/
def appliedOut (n : Fin 24) (out : Int) (s : State) : Int :=
  if n.val < 16 || !s.flag (slotAddr n 0xD) 1 || !s.flag (slotAddr n 0) 8 then out
  else if s.flag (slotAddr n 0) 12 then 0 else (s.loop.slots[n]).out

/-- The stamps of an evaluation, kept while LATENCY_STAMPS is agreed (R356). The sample time of a current slot is that
of its sample; of any other slot, the grid point. -/
def stamp (n : Fin 24) (s : State) : State :=
  if !s.feature 20 then s
  else
    let delay := match slotAxis n with
      | some (a, r) => if 2 ≤ r.val then s.clock - s.axes[a].sampleAt else s.deviceTime.toNat % 125000
      | none => s.deviceTime.toNat % 125000
    let s := s.setWord (slotAddr n 0xE) (BitVec.ofNat 32 (s.deviceTime.toNat + 2 ^ 64 - delay))
    let d := min delay 65535
    (s.setField (slotAddr n 0xF) 0 16 d).setField (slotAddr n 0xF) 16 16 (max d (s.field (slotAddr n 0xF) 16 16))

/-- The output of a current slot goes to the compare group: v_d and v_q, and the group once both slots of the sample are
done (R354). In the first two rows of an alignment the voltage is open-loop, and the outputs reach no group (Table 15.2). -/
def applyCurrent (n : Fin 24) (out : Int) (s : State) : State :=
  let open_ (a : AxisId) : Bool := decide (s.axes[a].alignRow = 1) || decide (s.axes[a].alignRow = 2)
  match slotAxis n with
  | some (a, 2) =>
    let s := onlyIf (!open_ a) (fun s => s.updAxis a fun x => { x with vD := out }) s
    onlyIf (!(s.loop.slots[axisSlot a 3]).ready) (writeGroup a) s
  | some (a, 3) =>
    let s := onlyIf (!open_ a) (fun s => s.updAxis a fun x => { x with vQ := out }) s
    onlyIf (!(s.loop.slots[axisSlot a 2]).ready) (writeGroup a) s
  | _ => s

/-- OUT_MIN of the slot's shadow does not exceed OUT_MAX (R349). -/
def limitsOrdered (n : Fin 24) (s : State) : Bool :=
  decide ((s.word (slotAddr n 6)).toInt ≤ (s.word (slotAddr n 5)).toInt)

/-- The rest of an enable: the saturation time is cleared, and a loss or source fault ends (R352, R353, R359). -/
def freshen (n : Fin 24) (s : State) : State :=
  (s.updSlot n fun x => { x with
    fresh := false, satNs := 0, satSaid := false, rails := 0, fbRails := 0, fbStale := 0, stopped := false, evalAt := none })
    |>.setWord (slotAddr n 0xD) (s.word (slotAddr n 0xD) &&& 2)

/-- The copy of a shadow whose OUT_MIN exceeds its OUT_MAX is refused: the slot keeps its gains, and one that was being
enabled stays disabled (R349). -/
def refuseGains (n : Fin 24) (s : State) : State :=
  let x := s.loop.slots[n]
  let s := record 0x8005 n 0 (s.updSlot n fun x => { x with apply := none, fresh := false })
  onlyIf (x.fresh && x.spFixed.isNone) (fun s => s.setFlag (slotAddr n 0) 31 false) s

/-- The copy that LOOP_APPLY or an enable asked for is made before the evaluation (R352, R353, R367). -/
def takeGains (n : Fin 24) (fb : Int) (s : State) : State :=
  match (s.loop.slots[n]).apply with
  | none => s
  | some reset =>
    if !limitsOrdered n s then refuseGains n s
    else
      let s := onlyIf (s.loop.slots[n]).fresh (freshen n) s
      let g := shadowGains n s
      s.updSlot n fun x => if reset then { x with gains := g, apply := none, acc := 0, mf := fb, mfPrev := fb }
        else { x with gains := g, apply := none }

/-- One evaluation of a slot. -/
def evaluate (n : Fin 24) (s : State) : State :=
  let (fb, s) := feedback n s
  let s := judgeSlotFeedback n (takeGains n fb s)
  if (s.loop.slots[n]).stopped || !slotRuns n s then s.updSlot n fun x => { x with ready := false }
  else
    let (sp, s) := setPoint n s
    let x := s.loop.slots[n]
    let r := compute (s.flag (slotAddr n 0) 30) x.gains x.acc x.mf x.mfPrev sp fb
    let now := s.deviceTime.toNat
    let elapsed := match x.evalAt with | some t => now - t | none => 0
    let s := superviseSat n r.clamped elapsed s
    let out := appliedOut n r.out s
    let s := s.updSlot n fun x => { x with
      ready := false, acc := r.acc, mf := r.mf, mfPrev := r.mf, sp := sp, fb := fb, err := r.err, sum := r.sum,
      out := out, evalAt := some now }
    applyCurrent n out (stamp n (s.setWord (slotAddr n 0xC) (wordOf out)))

/-- A slot that goes before this one in its unit is ready: q, d, position, speed (R346, R347). -/
def waitsBehind (n : Fin 24) (s : State) : Bool :=
  match slotAxis n with
  | some (a, r) =>
    let ready (q : Fin 4) : Bool := (s.loop.slots[axisSlot a q]).ready
    match r with
    | 3 => false
    | 2 => ready 3
    | 0 => ready 3 || ready 2
    | 1 => ready 3 || ready 2 || ready 0
  | none => false

/-- LOOP_EVAL: the unit evaluates a ready slot. A slot that is not enabled is passed over; a general slot holds its
output in Update (R360). -/
def execLoopEval (n : Fin 24) (s : State) : Outcome State Fault Refusal :=
  .next (if s.blockOut 17 || !(s.loop.slots[n]).ready || waitsBehind n s then s
    else if !slotRuns n s || (16 ≤ n.val && s.modes.mode = .update) then
      applyCurrent n (s.loop.slots[n]).out (s.updSlot n fun x => { x with ready := false })
    else evaluate n s)

/-! ### The grid (R347, R437, R442) -/

/-- The speed of an axis is below STILL, or not: since when is noted (R440). -/
def noteStill (a : AxisId) (s : State) : State :=
  let still := decide ((axisSpeed a s).natAbs < stillSpeed s)
  s.updMach a fun x => { x with stillAt := if still then some (x.stillAt.getD s.clock) else none }

/-- A slot is readied at a grid point of its RATE: an axis slot with its gates enabled, a general slot that is enabled
(R347, R360). -/
def readySlot (grid : Nat) (n : Fin 24) (s : State) : State :=
  let due := decide (grid % 2 ^ s.field (slotAddr n 0) 16 2 = 0)
  let on := match slotAxis n with
    | some (a, r) => decide (r.val < 2) && gatesEnabled a s && slotRuns n s
    | none => slotOn n s && (!(s.loop.slots[n]).stopped || (s.loop.slots[n]).fresh)
  if due && on then s.updSlot n fun x => { x with ready := true } else s

/-- The stop that a shock asks for: 0 report only, 1 category 2, 2 category 1, 3 category 0 (R437). A ramp that begins
here starts from the clamped set-point (R448). -/
def shockStop (act fault : Nat) (a : AxisId) (s : State) : State :=
  match act with
  | 0 => s
  | 1 | 2 =>
    let s := raiseStop (3 - act) fault (some a) s
    match s.mach.stop with
    | some st =>
      if st.since = s.clock then
        { s with mach := { s.mach with stop := some { st with speed := modAt st.speed a fun v => hemClamp a v s } } }
      else s
    | none => s
  | _ => raiseCat0 fault (some a) s

/-- Slack and snatch of one axis at a grid point (R437). -/
def shockCheck (a : AxisId) (s : State) : State :=
  if !s.flag (machAddr a 7) 0 then s.updMach a fun x => { x with slackRun := 0, torque := [], slack := false, snatch := false }
  else
    let x := s.mach.axes[a]
    let iq := s.axes[a].iQ
    let tau := if s.flag (machAddr a 7) 12 then -iq else iq
    let moving := decide (q15 s (machAddr a 6) 0 ≤ (axisSpeed a s).natAbs)
    let run := if moving && decide (tau < q15 s (machAddr a 5) 16) then x.slackRun + 1 else 0
    let slack := decide (max 1 (s.field (machAddr a 5) 0 16) ≤ run)
    let hist := (tau :: x.torque).take 9
    let snatch := match hist.drop 8 with
      | old :: _ => decide (q15 s (machAddr a 6) 16 < tau - old)
      | [] => false
    let s := s.updMach a fun y => { y with slackRun := run, torque := hist, slack := slack, snatch := snatch }
    let s := if slack && !x.slack then shockStop (s.field (machAddr a 7) 4 2) 0xA004 a (record 0xA004 a 0 s) else s
    if snatch && !x.snatch then shockStop (s.field (machAddr a 7) 8 2) 0xA005 a (record 0xA005 a 0 s) else s

/-- The hems of one axis at a grid point (R442). -/
def hemCheck (a : AxisId) (s : State) : State :=
  if !s.flag (machAddr a 0xD) 31 then s.updMach a fun x => { x with hem := false, overrun := false }
  else
    let x := s.mach.axes[a]
    let p := posUm a s
    let hi := (s.word (machAddr a 0xC)).toInt
    let lo := (s.word (machAddr a 0xB)).toInt
    let margin : Int := s.field (machAddr a 0xD) 0 16 * 1000
    let at_ := decide (hi ≤ p) || decide (p ≤ lo)
    let beyond := decide (hi + margin < p) || decide (p < lo - margin)
    let s := s.updMach a fun y => { y with hem := at_, overrun := beyond }
    let s := if at_ && !x.hem then record 0xA00A a 0 s else s
    if beyond && !x.overrun then raiseStop 1 0xA00B (some a) (record 0xA00B a 0 s) else s

/-- LOOP_GRID_TICK: the grid point of device time that has passed readies slots and runs the shock and hem checks. A point
already taken has no effect again. -/
def execLoopGridTick (s : State) : Outcome State Fault Refusal :=
  let grid := s.deviceTime.toNat / 125000
  .next (if s.loop.grid = some grid then s
    else
      let s := { s with loop := { s.loop with grid := some grid } }
      let s := forAll noteStill allAxes s
      let s := if s.blockOut 20 then s else forAll (fun a s => hemCheck a (shockCheck a s)) allAxes s
      if s.blockOut 17 then s else forAll (readySlot grid) (List.finRange 24) s)

/-! ### The rules of the loop words (R349, R351–R353, R389, R390, Table 14.1) -/

/-- Table 14.1 allows the set-point source to the slot. -/
def srcAllowed (n : Fin 24) (src : Nat) (s : State) : Bool :=
  match src, slotAxis n with
  | 0, _ | 2, _ | 3, _ => true
  | 1, some (_, r) => decide (r ≠ 0)
  | 4, none => true
  | 5, some (a, r) => (decide (r = 1) || decide (r = 3)) && grouped a s
  | _, _ => false

/-- The rule of LOOP_CTRL. -/
def loopCtrlRule (n : Fin 24) (val : Word) (s : State) : Rule :=
  let w := s.word (slotAddr n 0)
  let same (lo k : Nat) : Bool := decide (bits val lo k = bits w lo k)
  let on := bit val 31
  let was := bit w 31
  let held := was && !(same 30 1 && same 24 3 && same 20 3 && same 16 2)
  let axisOk := match slotAxis n with
    | some (a, r) =>
      let current := decide (2 ≤ r.val)
      decide (bits val 20 3 = 0) && !(current && drivesSlots a s) && (!current || !on || was || alignOk a s)
    | none => true
  let ok := !held && srcAllowed n (bits val 24 3) s && axisOk && (!on || limitsOrdered n s)
  .when ok 0x8005 n 0 (.accept val (onlyIf (on && !was) (enableSlot n)))

/-- The rule of a loop word. SAT_TRIPPED keeps its value while the slot is clamped (R357, R545). -/
def loopRule (addr : Nat) (val : Word) (s : State) : Rule :=
  if addr < 0x4180 then
    let n : Fin 24 := Fin.ofNat 24 ((addr - 0x4000) / 0x10)
    match (addr - 0x4000) % 0x10 with
    | 0x0 => loopCtrlRule n val s
    | 0xB => .accept val fun s => s.updSlot n fun x => { x with fbStale := 0 }
    | 0xD => .plain (if s.flag addr 0 then setBit val 1 false else val)
    | _ => .plain val
  else if addr = 0x4190 then
    let named : List (Fin 24) := (List.finRange 24).filter fun (n : Fin 24) => bit val n.val
    match named.find? fun n => !limitsOrdered n s with
    | some n => .fault 0x8005 n 0
    | none => .accept val fun s =>
        forAll (fun n s => s.updSlot n fun x => { x with apply := some (bit val 31 || decide (x.apply = some true)) }) named s
  else .plain val

end Sys2Proof.Machine
end

