-- ==== Sys2Proof/Machine/Trace.lean ====
section
/-! DEFINITION. The trace channels (R361–R364): arming, triggers, sampling, block coding, staging and destinations, and the
rules of the trace words. -/
namespace Sys2Proof.Machine

open Host (Outcome)

/-- A word of a trace channel (R375). -/
def traceAddr (n : Fin 8) (off : Nat) : Nat := 0x6800 + 8 * n.val + off
/-- A trace channel changed. -/
def State.updTrace (s : State) (n : Fin 8) (f : TraceCh → TraceCh) : State := { s with trace := modAt s.trace n f }
/-- TRACE_STATUS.STATE. -/
def traceState (n : Fin 8) (s : State) : Nat := s.field (traceAddr n 7) 0 3
/-- TRACE_STATUS.STATE set. -/
def setTraceState (n : Fin 8) (v : Nat) (s : State) : State := s.setField (traceAddr n 7) 0 3 v
/-- The coding in effect: 3 acts as 1, and 2 as 1 without TRACE_LOSSY (R363, Table 14.7). -/
def traceCoder (n : Fin 8) (s : State) : Nat :=
  match s.field (traceAddr n 0) 28 2 with
  | 0 => 0
  | 2 => if s.feature 16 then 2 else 1
  | _ => 1
/-- K: values above 8 act as 8 (Table 14.4). -/
def traceK (n : Fin 8) (s : State) : Nat := min 8 (s.field (traceAddr n 0) 24 4)
/-- The tapped slot; none beyond L23. -/
def tapSlot (n : Fin 8) (s : State) : Option (Fin 24) :=
  let k := s.field (traceAddr n 1) 8 5
  if h : k < 24 then some ⟨k, h⟩ else none

/-- A tap may be traced: a slot and a node of Table 14.7, the stamp node only while LATENCY_STAMPS is agreed (R356), and
an axis node only of an axis slot. -/
def tapAllowed (slot node : Nat) (s : State) : Bool :=
  decide (slot < 24) && decide (node < 12) && (decide (node ≠ 6) || s.feature 20) && (decide (node < 8) || decide (slot < 16))

/-- The value at a tap (Table 14.7). -/
def tapValue (k : Fin 24) (node : Nat) (s : State) : Int :=
  let x := s.loop.slots[k]
  let ax : Axis := s.axes[(Fin.ofNat 4 (k.val / 4) : AxisId)]
  match node with
  | 0 => x.sp | 1 => x.fb | 2 => x.err | 3 => x.out
  | 4 => Int.fdiv x.acc (2 ^ 32) | 5 => x.mf | 6 => s.field (slotAddr k 0xF) 0 16 | 7 => x.sum
  | 8 => ax.iA | 9 => ax.iB
  | 10 => signed 32 (s.word (axisAddr (Fin.ofNat 4 (k.val / 4)) 0x1D)).toNat
  | _ => ax.obsSpeed

/-- The bank a channel names. -/
def traceBank (n : Fin 8) (s : State) : BankId := Fin.ofNat 32 (s.field (traceAddr n 0) 16 5)
/-- The channel's destination is the DRAM ring. -/
def traceToDram (n : Fin 8) (s : State) : Bool := s.flag (traceAddr n 0) 30

/-- Arming is accepted (R362, Table 14.4). -/
def canArm (n : Fin 8) (val : Word) (s : State) : Bool :=
  let w := s.word (traceAddr n 4)
  let total := bits w 16 16 + bits w 0 16
  let bank : BankId := Fin.ofNat 32 (bits val 16 5)
  tapAllowed (s.field (traceAddr n 1) 8 5) (s.field (traceAddr n 1) 0 4) s &&
    (bit val 30 || (decide (s.banks[bank].owner = 11) && (decide (bits val 28 2 ≠ 0) || decide (total ≤ 32760))))

/-- A sample is due: at every evaluation of the tapped slot with DIV 0, else on the grid of 32 kHz / DIV (R361). -/
def sampleDue (n : Fin 8) (k : Fin 24) (s : State) : Option (Nat × Nat) :=
  let div := s.field (traceAddr n 0) 0 8
  let now := s.deviceTime.toNat
  let last := s.trace[n].sampled
  if div = 0 then
    match (s.loop.slots[k]).evalAt with
    | some t => if last = some t then none else some (t, match last with | some l => t - l | none => 0)
    | none => none
  else
    let t := now - now % (div * 31250)
    if last = some t then none else some (t, div * 31250)

/-- A channel is armed: nothing is stored, STATE reads armed, and its first sample is one that falls due after it (R361). -/
def armTrace (n : Fin 8) (s : State) : State :=
  let t := match tapSlot n s with
    | some k => (sampleDue n k s).map fun (r : Nat × Nat) => r.1
    | none => none
  let s := s.updTrace n fun x => { mark := s.faults.count, sampled := t.or x.sampled }
  (s.setWord (traceAddr n 7) 0).setField (traceAddr n 7) 0 3 1

/-- A block of 16 samples as its coding spells it (R363). -/
def codeBlock (n : Fin 8) (xs : List Int) (s : State) : Bytes :=
  match traceCoder n s with
  | 0 => (xs.map fun x => leBytes 4 (x % 2 ^ 32).toNat).flatten
  | 1 => losslessBlock 6 32 [xs]
  | _ => losslessBlock 6 32 [xs.map fun (x : Int) => Int.fdiv x (2 ^ traceK n s : Nat)]

/-- Bytes go to the destination at an offset of the record; none where it cannot take them now: P5 without credit, or a
bank that is full or not the trace unit's. -/
def traceStore (n : Fin 8) (off : Nat) (bs : Bytes) (s : State) : Option State :=
  if traceToDram n s then
    let size := 4096 * 2 ^ s.field (traceAddr n 0) 12 4
    let base := s.addr64 (traceAddr n 5)
    let a := base + off % size
    let (x, y) := bs.splitAt (size - off % size)                     -- what lies beyond the end of the ring goes to its base
    if allRoom true (linePieces a x.length ++ linePieces base y.length) s then
      some (enginePieces 5 (writePieces .engine a x ++ writePieces .engine base y) s)
    else none
  else
    let b := traceBank n s
    if s.banks[b].owner = 11 ∧ off + bs.length ≤ 0x20000 then some (s.storeBytes (b.val * 0x20000 + off) bs) else none

/-- Staged blocks go to the destination, oldest first, as far as it takes them. -/
def drainTrace (n : Fin 8) : Nat → State → State
  | 0, s => s
  | fuel + 1, s =>
    match s.trace[n].staged with
    | [] => s
    | b :: rest =>
      match traceStore n s.trace[n].wrote b s with
      | some s => drainTrace n fuel (s.updTrace n fun x => { x with
          staged := rest, wrote := x.wrote + b.length, total := x.total + 16 })
      | none => s

/-- STORED follows the samples at the destination. -/
def noteStored (n : Fin 8) (v : Nat) (s : State) : State := s.setField (traceAddr n 7) 8 24 v

/-- The record's header (R362). -/
def traceHeader (n : Fin 8) (count : Nat) (s : State) : Bytes :=
  let x := s.trace[n]
  leBytes 8 x.trigAt ++ leBytes 4 x.period ++ leBytes 4 (s.word (traceAddr n 1)).toNat ++
    leBytes 4 (traceCoder n s + 256 * traceK n s) ++ leBytes 4 count ++ leBytes 8 0

/-- The samples of a capture are coded block by block; what does not fill a block waits. -/
def stageBlocks (n : Fin 8) : Nat → State → State
  | 0, s => s
  | fuel + 1, s =>
    let xs := s.trace[n].samples
    if xs.length < 16 then s
    else
      let b := codeBlock n (xs.take 16) s
      stageBlocks n fuel (s.updTrace n fun x => { x with samples := xs.drop 16, staged := x.staged ++ [b] })

/-- The last block of a capture: a raw one holds the samples there are, since 32,760 of them fill a bank (Table 14.4); a coded one is filled up
with free values. -/
def lastBlock (n : Fin 8) (s : State) : State :=
  let xs := s.trace[n].samples
  if xs.isEmpty then s
  else if traceCoder n s = 0 then
    let b := codeBlock n xs s
    s.updTrace n fun x => { x with samples := [], staged := x.staged ++ [b] }
  else stageBlocks n 1 (s.updTrace n fun x => { x with samples := xs ++ List.replicate (16 - xs.length) (signed 32 s.freeVal) }).bump

/-- The header of a truncated record is written once its blocks are at the destination (R364). -/
def dueHeader (n : Fin 8) (s : State) : State :=
  match s.trace[n].due with
  | some count =>
    if s.trace[n].staged.isEmpty then
      match traceStore n 0 (traceHeader n count s) s with
      | some s => s.updTrace n fun x => { x with due := none }
      | none => s
    else s
  | none => s

/-- A capture ends at its last stored sample: truncated (R364). What is staged for the DRAM ring still goes there as P5 takes it, and the
header after it; what a bank does not hold is lost with the bank. -/
def truncateTrace (n : Fin 8) (s : State) : State :=
  let s := onlyIf (traceToDram n s) (lastBlock n) s
  let x := s.trace[n]
  let count := if traceToDram n s then x.pre + x.after else min x.total (x.pre + x.after)
  let s := s.updTrace n fun x => { x with samples := [], due := some count, staged := if traceToDram n s then x.staged else [] }
  record 0x8006 n (count % 65536) (dueHeader n (setTraceState n 4 (noteStored n count s)))

/-- What waits in the staging of a capture: the bytes of its blocks, but for those of pre-trigger samples, which lie in the destination's
ring already (R361, R364). -/
def stagedBytes (x : TraceCh) : Nat :=
  ((x.staged.drop (x.pre / 16 - x.total / 16)).map List.length).foldl (fun a b : Nat => a + b) 0

/-- A capture goes on: blocks are coded and drained; with POST samples stored, nothing staged and the header written it is done; with more
than 4 KiB staged it is truncated (R364). An access to a bank that is not the trace unit's is refused (R254). -/
def advanceTrace (n : Fin 8) (s : State) : State :=
  let post := s.field (traceAddr n 4) 0 16
  let full := decide (post ≤ s.trace[n].after)
  let s := stageBlocks n 4100 s
  let s := onlyIf full (lastBlock n) s
  let s := drainTrace n 4100 s
  let x := s.trace[n]
  let bank := traceBank n s
  if !traceToDram n s && decide (s.banks[bank].owner ≠ 11) then truncateTrace n (bankRefused 11 (bank.val * 0x20000) s)
  else if decide (4096 < stagedBytes x) then truncateTrace n s
  else if !traceToDram n s && !x.staged.isEmpty then truncateTrace n s
  else
    let count := x.pre + x.after
    let s := noteStored n count s
    if full && x.staged.isEmpty then
      match traceStore n 0 (traceHeader n count s) s with
      | some s => setTraceState n 3 s
      | none => s
    else s

/-- The staging of a truncated record drains (R364). -/
def settleTrace (n : Fin 8) (s : State) : State :=
  if traceState n s = 4 && s.trace[n].due.isSome then dueHeader n (drainTrace n 4100 s) else s

/-- The blocks that the ring of pre-trigger samples has at the destination: those of PRE samples, as far as they fit behind the header. -/
def ringBlocks (n : Fin 8) (len : Nat) (s : State) : Nat :=
  let room := if traceToDram n s then 4096 * 2 ^ s.field (traceAddr n 0) 12 4 else 0x20000
  max 1 (min (s.field (traceAddr n 4) 16 16 / 16) ((room - 32) / len))

/-- Until the trigger the destination runs as a ring of pre-trigger samples: every sixteenth sample, the last sixteen go there as one block
(R361). -/
def ringSample (n : Fin 8) (s : State) : State :=
  let x := s.trace[n]
  let count := x.ringPos + 1
  let s := s.updTrace n fun x => { x with ringPos := count }
  if count % 16 = 0 && decide (16 ≤ x.samples.length) then
    let len := if traceCoder n s = 0 then 64 else 68
    let at_ := 32 + (count / 16 - 1) % ringBlocks n len s * len
    (traceStore n at_ (codeBlock n (x.samples.drop (x.samples.length - 16)) s) s).getD s
  else s

/-- A fault with the trigger's code has been recorded since the last sample. -/
def faultSince (n : Fin 8) (s : State) : Bool :=
  let x := s.trace[n]
  let fresh := if s.faults.count < x.mark then s.faults.count else s.faults.count - x.mark
  (s.faults.ring.take fresh).any fun e => decide (e.code.toNat = s.field (traceAddr n 2) 16 16)

/-- The trigger condition at a sample (Table 14.7): a crossing of THRESH in the direction of MODE. -/
def traceTriggers (n : Fin 8) (v : Int) (s : State) : Bool :=
  let x := s.trace[n]
  let t := (s.word (traceAddr n 3)).toInt
  let rises := x.last.any fun l => decide (l < t) && decide (t ≤ v)
  let falls := x.last.any fun l => decide (t < l) && decide (v ≤ t)
  x.fired || (match s.field (traceAddr n 2) 0 4 with
    | 0 => true | 1 => rises | 2 => falls | 3 => rises || falls | 4 => faultSince n s | _ => false)

/-- TRACE_SAMPLE: the channel samples its node and checks its trigger; a capture ends after POST samples (R361, R371). -/
def execTraceSample (n : Fin 8) (s : State) : Outcome State Fault Refusal :=
  .next (if s.blockOut 24 then s
    else match tapSlot n s with
    | none => settleTrace n s
    | some k =>
      match sampleDue n k s with
      | none => if traceState n s = 2 then advanceTrace n s else settleTrace n s
      | some (t, period) =>
        let v := tapValue k (s.field (traceAddr n 1) 0 4) s
        let x := s.trace[n]
        let post := s.field (traceAddr n 4) 0 16
        let seen := fun x : TraceCh => { x with last := some v, sampled := some t, mark := s.faults.count, period := period }
        match traceState n s with
        | 1 =>
          if traceTriggers n v s then
            let pre := x.samples
            let add := if post = 0 then [] else [v]
            let s := s.updTrace n fun x => seen { x with
              samples := pre ++ add, pre := pre.length, after := add.length, trigAt := t, fired := false }
            advanceTrace n (setTraceState n 2 s)
          else
            let keep := s.field (traceAddr n 4) 16 16
            let ring := x.samples ++ [v]
            let ring := ring.drop (ring.length - keep)
            ringSample n (noteStored n ring.length (s.updTrace n fun x => seen { x with samples := ring }))
        | 2 =>
          if post ≤ x.after then advanceTrace n s
          else advanceTrace n (s.updTrace n fun x => seen { x with samples := x.samples ++ [v], after := x.after + 1 })
        | _ => settleTrace n (s.updTrace n seen))

/-- A bank is reclaimed from under a capture: what the channel holds is stored, and the capture is truncated (R257, R364). -/
def cutCapture (n : Fin 8) (s : State) : State :=
  let s := onlyIf (decide (traceState n s = 1)) (fun s => s.updTrace n fun x => { x with pre := x.samples.length }) s
  truncateTrace n (drainTrace n 4100 (lastBlock n (stageBlocks n 4100 s)))

/-- The trace bank of a capture is reclaimed (R364). -/
def traceReclaim (b : BankId) (s : State) : State :=
  forAll (fun n s =>
    if (traceState n s = 1 || traceState n s = 2) && !traceToDram n s && decide (traceBank n s = b) then cutCapture n s
    else s) (List.finRange 8) s

/-- The rule of a trace word. -/
def traceRule (addr : Nat) (val : Word) (s : State) : Rule :=
  if addr = 0x6840 then
    .accept val fun s => forAll (fun (n : Fin 8) s =>
      if bit val n.val && traceState n s = 1 then s.updTrace n fun x => { x with fired := true } else s) (List.finRange 8) s
  else
    let n : Fin 8 := Fin.ofNat 8 ((addr - 0x6800) / 8)
    match addr % 8 with
    | 0 =>
      if bit val 31 then .when (canArm n val s) 0x8007 n 0 (.accept val (armTrace n))
      else .accept val fun s =>
        if traceState n s = 1 || traceState n s = 2 then setTraceState n 0 (s.updTrace n fun _ => {}) else s
    | 1 => .when (decide (bits val 8 5 < 24) && decide (bits val 0 4 < 12)) 0x8007 n 0 (.plain val)
    | _ => .plain val

end Sys2Proof.Machine
end

