-- ==== Sys2Proof/Machine/TwoWire.lean ====
section
/-! DEFINITION. The two-wire interfaces (chapter 19): controller transfers, the target window, notices, the stretch timeout,
bus recovery, the TW0 boot target, and the rules of their words. -/
namespace Sys2Proof.Machine

open Host (Outcome)

/-- A word of instance i (R499). -/
def twAddr (i : Fin 3) (off : Nat) : Nat := 0x5C00 + 0x100 * i.val + off
/-- An instance changed. -/
def State.updTw (s : State) (i : Fin 3) (f : TwoWire → TwoWire) : State := { s with tw := modAt s.tw i f }
/-- A bit of TW_CFG. -/
def twCfg (i : Fin 3) (b : Nat) (s : State) : Bool := s.flag (twAddr i 0) b
/-- The block and the instance run, and the device is not in Standby or Dormant (R492). -/
def twRuns (i : Fin 3) (s : State) : Bool :=
  !s.blockOut 22 && twCfg i 31 s && !(match s.modes.mode with | .standby | .dormant => true | _ => false)
/-- The instance is a controller. -/
def twController (i : Fin 3) (s : State) : Bool := twRuns i s && twCfg i 30 s
/-- The instance is a target. -/
def twTarget (i : Fin 3) (s : State) : Bool := twRuns i s && twCfg i 29 s
/-- The bus is busy (R479). -/
def twBusy (i : Fin 3) (s : State) : Bool := s.flag (twAddr i 5) 28
/-- BUS_BUSY taken; a bus that becomes free is free from now on. -/
def setBusy (i : Fin 3) (b : Bool) (s : State) : State :=
  let s := s.setFlag (twAddr i 5) 28 b
  if b then s else s.updTw i fun x => { x with freeAt := s.clock }
/-- N, the size of the window (R483, Table 19.3). -/
def twWindow (i : Fin 3) (s : State) : Nat := 16 * 2 ^ min 4 (s.field (twAddr i 0) 0 3)

/-- The result of a transfer in TW_STATUS, with COUNT and PEC_BAD (R481). -/
def twResult (i : Fin 3) (result count : Nat) (pecBad : Bool) (s : State) : State :=
  ((s.setField (twAddr i 5) 29 3 result).setField (twAddr i 5) 16 6 count).setFlag (twAddr i 5) 25 pecBad

/-- A transfer ends: its result is posted, and sent on queue 224 + i where a core holds that end (R481). -/
def endTransfer (i : Fin 3) (result count : Nat) (pecBad : Bool) (s : State) : State :=
  let s := twResult i result count pecBad (s.updTw i fun x => { x with xfer := none })
  let w : Word := BitVec.ofNat 32 (s.field (twAddr i 5) 16 16)
  onlyIf (anyHolds (224 + i.val) false s) (offer (224 + i.val) 22 w) s

/-- NOTICE_PENDING follows the notice. -/
def setNotice (i : Fin 3) (n : Option TwNotice) (s : State) : State :=
  (s.updTw i fun x => { x with notice := n }).setFlag (twAddr i 5) 26 n.isSome

/-- A byte of the buffer or window words, from a base word on. -/
def twByte (base k : Nat) (s : State) : Byte := BitVec.ofNat 8 (s.field (base + k / 4) (8 * (k % 4)) 8)

/-- A byte of the buffer or window words stored. -/
def setTwByte (base k : Nat) (b : Byte) (s : State) : State := s.setField (base + k / 4) (8 * (k % 4)) 8 b.toNat

/-- The SMBus PEC of bytes: the CRC-8 of polynomial x⁸ + x² + x + 1 with initial value 0 (R480). -/
def smbusPec (bs : Bytes) : Byte :=
  bs.foldl (fun (r : Byte) b => (List.range 8).foldl (fun (r : Byte) _ => if r.msb then (r <<< 1) ^^^ 7 else r <<< 1) (r ^^^ b)) 0

/-- The bytes of a transfer that follow its address byte, a PEC among them where it ends the write (R480). -/
def xferBytes (i : Fin 3) (t : TwTransfer) (s : State) : Bytes :=
  let bs := (List.range t.wlen).map fun k => twByte (twAddr i 8) k s
  if t.pec && decide (t.rlen = 0) then bs ++ [smbusPec (BitVec.ofNat 8 (2 * t.addr) :: bs)] else bs

/-- On a free bus the waiting transfer starts, else a notice that is due: never at its retry, which waits 1 ms
(R479, R488, R494, R497). The bytes that go onto the bus are kept. -/
def twStart (i : Fin 3) (s : State) : State :=
  if twBusy i s || !twController i s then s
  else match s.tw[i].xfer, s.tw[i].notice with
    | some t, _ =>
      if t.started then s
      else
        setBusy i true (s.updTw i fun x => { x with xfer := some { t with started := true }, wrote := xferBytes i t s })
    | none, some n =>
      if n.onBus || n.retry then s
      else
        let addr := 2 * s.field (twAddr i 0) 8 7
        setBusy i true (s.updTw i fun x => { x with
          notice := some { n with onBus := true },
          wrote := [BitVec.ofNat 8 addr, BitVec.ofNat 8 n.code, BitVec.ofNat 8 (n.code / 256)] })
    | none, none => s

/-- The bus becomes free, and what waits for it starts. -/
def busFrees (i : Fin 3) (s : State) : State := twStart i (setBusy i false s)

/-! ### Transfers -/

/-- A TW_XFER write with GO: refused while another transfer is busy or where a length is above 32 (R480, R493); a role of
controller that is not enabled starts nothing. -/
def xferRule (i : Fin 3) (val : Word) (s : State) : Rule :=
  if !bit val 31 then .plain val
  else
    let ok := s.tw[i].xfer.isNone && decide (bits val 8 6 ≤ 32) && decide (bits val 0 6 ≤ 32)
    .when ok 0xC005 i 0 (.accept val fun s =>
      if !twController i s then s
      else
        let t : TwTransfer := ⟨bits val 16 7, bits val 8 6, bits val 0 6, bit val 30, false⟩
        twStart i (twResult i 1 0 false (s.updTw i fun x => { x with xfer := some t })))

/-- An arbitration is lost: counted (Table 19.5). -/
def countLost (i : Fin 3) (s : State) : State := s.countUp (twAddr i 7) 16 16

/-- ARB_LOST_STOP: both lines are released, the transfer ends with result 6, and the bus stays busy until it is found free
(R487). -/
def arbLostStop (i : Fin 3) (count : Nat) (s : State) : State :=
  let s := setBusy i true (countLost i (record 0xC001 i 0 s))
  if s.tw[i].xfer.isSome then endTransfer i 6 count false s else s

/-- A notice's attempt ended: delivered, or to be retried 1 ms after the bus is next free (R488). -/
def noticeEnds (i : Fin 3) (n : TwNotice) (o : TwOutcome) (s : State) : State :=
  match o with
  | .ok _ _ => busFrees i (setNotice i none s)
  | .nackAddr _ | .nackData _ => busFrees i (setNotice i (some { n with onBus := false, retry := true }) s)
  | .arbLost _ _ => countLost i (setNotice i (some { n with onBus := false, retry := true }) s)
  | .arbLostStop _ => arbLostStop i 0 (setNotice i (some { n with onBus := false, retry := true }) s)

/-- COUNT of a transfer that has moved n bytes; the field holds at most 63, and what it shows of 64 the spec leaves open. -/
def twCount (n : Nat) (s : State) : Nat × State := if n < 64 then (n, s) else (s.freeVal % 64, s.bump)

/-- TW_XFER_DONE: what is on the bus for the instance, its transfer or its notice, ends (R480, R481, R487). -/
def execTwXferDone (i : Fin 3) (o : TwOutcome) (s : State) : Outcome State Fault Refusal :=
  .next (match s.tw[i].xfer, s.tw[i].notice with
    | some t, n =>
      if t.started then
        match o with
        | .ok read pecOk =>
          let s := forAll (fun (p : Byte × Nat) s => setTwByte (twAddr i 8) p.2 p.1 s) (read.take t.rlen).zipIdx s
          let bad := t.pec && decide (t.rlen ≠ 0) && !pecOk
          let (n, s) := twCount (t.wlen + t.rlen) s
          busFrees i (endTransfer i (if bad then 7 else 2) n bad s)
        | .nackAddr again => busFrees i (endTransfer i 3 (if again then t.wlen else 0) false s)
        | .nackData count => busFrees i (endTransfer i 4 (min count t.wlen) false s)
        | .arbLost _ count => endTransfer i 5 count false (countLost i s)
        | .arbLostStop count => arbLostStop i count s
      else match n with
        | some n => if n.onBus then noticeEnds i n o s else s
        | none => s
    | none, some n => if n.onBus then noticeEnds i n o s else s
    | none, none => s)

/-! ### The target window -/

/-- The pointer (R483). -/
def twPointer (i : Fin 3) (s : State) : Nat := s.field (twAddr i 1) 16 8
/-- The pointer set. -/
def setPointer (i : Fin 3) (v : Nat) (s : State) : State := s.setField (twAddr i 1) 16 8 (v % twWindow i s)

/-- A data byte of a write transaction: stored at the pointer below RO_FROM; above it NACKed in mode 0, discarded and counted
in mode 1; the pointer advances in each case and wraps (R483, R484). Answers whether it was stored. -/
def windowByte (i : Fin 3) (b : Byte) (s : State) : Bool × State :=
  let p := twPointer i s
  let ok := decide (p < s.field (twAddr i 1) 0 9)
  let s := if ok then setTwByte (twAddr i 0x40) p b s
    else onlyIf (twCfg i 28 s) (fun s => s.countUp (twAddr i 7) 0 16) s
  (ok, setPointer i (p + 1) s)

/-- The data bytes of a write transaction, with the offset of the first byte stored and how many were. -/
def windowBytes (i : Fin 3) : Bytes → Option Nat × Nat → State → (Option Nat × Nat) × State
  | [], r, s => (r, s)
  | b :: bs, r, s =>
    let p := twPointer i s
    let (ok, s) := windowByte i b s
    windowBytes i bs (if ok then (some (r.1.getD p), r.2 + 1) else r) s

/-- The word of a window report (R486). -/
def reportWord (first count : Nat) (beyond : Bool) : Word :=
  BitVec.ofNat 32 (2 ^ 31 + b2n beyond * 2 ^ 30 + first % 256 * 2 ^ 16 + count % 512)

/-- A held report goes out where the queue has a credit (R486). -/
def sendReport (i : Fin 3) (s : State) : State :=
  match s.tw[i].report with
  | some (first, stop, beyond) =>
    if 0 < s.credits (227 + i.val) 22 then
      pushQueue (227 + i.val) 22 (reportWord first (stop - first) beyond) (s.updTw i fun x => { x with report := none })
    else s
  | none => s

/-- A write into the window ends: it is reported on queue 227 + i where a core holds that end; without a credit one report is
held, which later writes widen (R486). -/
def reportWrite (i : Fin 3) (first count : Nat) (s : State) : State :=
  if !anyHolds (227 + i.val) false s then s
  else
    let held := match s.tw[i].report with
      | some (f, e, _) => (min f first, max e (first + count), true)
      | none => (first, first + count, false)
    sendReport i (s.updTw i fun x => { x with report := some held })

/-- TW0 serves as boot target (R491). -/
def twBoots (i : Fin 3) (s : State) : Bool :=
  decide (i = 0) && decide (s.modes.mode = .boot) && !s.modes.held && decide (s.field 0x0014 0 2 = 1)

/-- A write transaction to the boot target: an image offset and bytes, or the end of the image (R491). -/
def bootWrite (bytes : Bytes) (s : State) : State :=
  if bytes.length < 4 then s
  else
    let off := fromBe (bytes.take 4)
    let data := bytes.drop 4
    if data.isEmpty then (if off = 0xFFFFFFFF then endPush s else s) else pushBytes off (data.take 256) s

/-- TW_TARGET_WRITE: a whole write transaction addressed to the instance. With `lostStop` its end is the defined error
ARB_LOST_STOP of the instance's own transfer (R487); else its STOP frees the bus. -/
def execTwTargetWrite (i : Fin 3) (bytes : Bytes) (lostStop : Bool) (s : State) : Outcome State Fault Refusal :=
  .next (if twBoots i s then bootWrite bytes s
    else if !twTarget i s then s
    else
      let (r, s) := match bytes with
        | [] => ((none, 0), s)
        | p :: data => windowBytes i data (none, 0) (setPointer i p.toNat s)
      if lostStop then arbLostStop i 0 s
      else
        let s := match r with
          | (some first, n) => reportWrite i first n s
          | (none, _) => s
        busFrees i s)

/-- The bytes a read transaction returns: each from the window word latched at the byte whose offset is a multiple of 4
(R483, R485). -/
def readBytes (i : Fin 3) : Nat → Bytes → State → Bytes × State
  | 0, acc, s => (acc, s)
  | n + 1, acc, s =>
    let p := twPointer i s
    readBytes i n (acc ++ [twByte (twAddr i 0x40) p s]) (setPointer i (p + 1) s)

/-- TW_TARGET_READ: a read transaction of n bytes. The boot target answers two bytes: 0 receiving, 1 accepted, 2 + REJECT
(R491). -/
def execTwTargetRead (i : Fin 3) (n : Nat) (s : State) : Outcome State Fault Refusal :=
  .next (if twBoots i s then s.updTw i fun x => { x with sent := (beBytes 2 s.sec.pushed).take n }
    else if !twTarget i s then s
    else
      let (bs, s) := readBytes i n [] s
      busFrees i (s.updTw i fun x => { x with sent := bs }))

/-- TW_REPORT_SEND: a held report goes out when its queue gains a credit (R486). -/
def execTwReportSend (i : Fin 3) (s : State) : Outcome State Fault Refusal :=
  .next (if s.blockOut 22 then s else sendReport i s)

/-! ### Notices, timeout, recovery -/

/-- A TW_NOTICE write with GO: refused while one is pending or TWO_WIRE_NOTICE is not agreed (R488). -/
def noticeRule (i : Fin 3) (val : Word) (s : State) : Rule :=
  if !bit val 16 then .plain val
  else .when (s.agreed.getLsbD 18 && s.tw[i].notice.isNone) 0xC005 i 0 (.accept val fun s =>
    if !twController i s then s else twStart i (setNotice i (some ⟨bits val 0 16, 0, false, false⟩) s))

/-- TW_NOTICE_RETRY: 1 ms after the bus is free a failed notice is tried again, at most three times; after that it is dropped
with NOTICE_FAILED (R488). -/
def execTwNoticeRetry (i : Fin 3) (s : State) : Outcome State Fault Refusal :=
  .next (match s.tw[i].notice with
    | some n =>
      if !n.retry || twBusy i s || !twRuns i s || decide (s.clock < s.tw[i].freeAt + 1000000) then s
      else if 3 ≤ n.tries then record 0xC003 i 0 (setNotice i none s)
      else twStart i (setNotice i (some { n with tries := n.tries + 1, retry := false }) s)
    | none => s)

/-- STRETCH_TIMEOUT: in mode 0 SCL has been low for TIMEOUT ms; the lines are released, the transaction state is reset, an open
transfer ends with result 7; window and pointer are kept (R489). How many of its bytes were completed the spec does not
say. -/
def execStretchTimeout (i : Fin 3) (s : State) : Outcome State Fault Refusal :=
  .next (if !twRuns i s || twCfg i 28 s then s
    else
      let s := record 0xC002 i 0 s
      let s := match s.tw[i].xfer with
        | some t => if t.started then endTransfer i 7 (s.freeVal % 64) false s.bump else s
        | none => s
      match s.tw[i].notice with
      | some n => if n.onBus then setNotice i (some { n with onBus := false, retry := true }) s else s
      | none => s)

/-- A TW_CTRL.RECOVER write on an idle instance clocks SCL until SDA reads high, at most 9 pulses, and sends STOP; a bus that
stays low is stuck (R490). `pulses`: after how many SDA read high. -/
def recoverBus (i : Fin 3) (pulses : Option (Fin 10)) (s : State) : State :=
  let idle := s.tw[i].xfer.isNone && !((s.tw[i].notice.map (·.onBus)).getD false)
  if !twController i s || !idle then s
  else match pulses with
    | some _ => busFrees i s
    | none => record 0xC004 i 0 s

/-- TW_BUS_FREE: SCL and SDA have stayed high for 50 µs (R479). -/
def execTwBusFree (i : Fin 3) (s : State) : Outcome State Fault Refusal :=
  .next (if !twRuns i s then s
    else if (match s.tw[i].xfer with | some t => t.started | none => false)
      || ((s.tw[i].notice.map (·.onBus)).getD false) then s
    else if twBusy i s then busFrees i s else twStart i s)

/-- A TW_CFG write: accepted while EN is 0, and with EN 1 only where no other field changes (R493). Enabling clears RESULT;
disabling releases the lines and forgets what was open. -/
def twCfgRule (i : Fin 3) (val : Word) (s : State) : Rule :=
  let was := twCfg i 31 s
  let same := decide (setBit val 31 false &&& 0x737F7F07 = setBit (s.word (twAddr i 0)) 31 false &&& 0x737F7F07)
  .when (!was || same) 0xC005 i 0 (.accept val fun s =>
    if bit val 31 && !was then twResult i 0 0 false s
    else if !bit val 31 && was then
      setBusy i false (forgetClock (20 + i.val) ((setNotice i none s).updTw i fun x => { x with xfer := none, report := none }))
    else s)

/-- The rule of a two-wire word. A TW_CTRL write that does not say what the bus did finds SDA high or stuck as a free value
says. -/
def twRule (addr : Nat) (val : Word) (s : State) : Rule :=
  let i : Fin 3 := Fin.ofNat 3 ((addr - 0x5C00) / 0x100)
  match addr % 0x100 with
  | 0x00 => twCfgRule i val s
  | 0x03 => noticeRule i val s
  | 0x04 => xferRule i val s
  | 0x06 => .accept val (onlyIf (bit val 0) fun s =>
      recoverBus i (if s.freeVal % 2 = 0 then some 0 else none) s.bump)
  | _ => .plain val

/-- An instance's lines are released and its transaction ends; an open transfer's completion is RESET_ABORT (R492, R496,
Table 2.10). -/
def twRelease (i : Fin 3) (s : State) : State :=
  let open_ := match s.tw[i].xfer with | some t => t.started | none => false
  let s := onlyIf open_ (fun s => abortReply 22 22 s) s
  (s.updTw i fun _ => {}).setFlag (twAddr i 0) 31 false

/-- The block goes out: every instance releases its lines (Table 2.6); its words take their reset values with the block. -/
def twOut (s : State) : State := forAll twRelease (List.finRange 3) s

end Sys2Proof.Machine
end

