-- ==== Sys2Proof/Machine/Fabric.lean ====
section
/-! DEFINITION. The fabric (chapter 2): blocks taken out, reset and readmitted (R37–R40), the domain clocks (R33, R34, R546), the
stall report, the speed word, and the rules of the fabric words; with the watchdogs of the cores (R98, R99). -/
namespace Sys2Proof.Machine

open Host (Outcome)

/-! ### Blocks (Table 2.6) -/

/-- A block changes its phase. -/
def setPhase (b : Fin 25) (p : BlockPhase) (s : State) : State := { s with blocks := modAt s.blocks b fun _ => p }

/-- A block is due to present its feature word, or is not. -/
def setReadmit (b : Fin 25) (on : Bool) (s : State) : State :=
  { s with readmit := if on then s.readmit ||| BitVec.ofNat 25 (2 ^ b.val) else s.readmit &&& ~~~BitVec.ofNat 25 (2 ^ b.val) }

/-- A block may be reset or powered down alone in the present mode (R38, Table 2.6). -/
def aloneIn (b : Nat) (s : State) : Bool :=
  if b = 12 || (16 ≤ b && b ≤ 20) then
    match s.modes.mode with
    | .hold | .trip | .maintenance | .update => true
    | _ => false
  else decide (b < 25) && decide (b ≠ 11) && decide (b ≠ 23)

/-- The feature bits that every block implements: BASE and the vendor test bits (R40). -/
def commonFeatures : Nat := 1 + 0xFFFF * 2 ^ 48

/-- The feature bits that a block implements beside those (R40). -/
def ownFeatures (b : Nat) : Nat :=
  let bitsOf (l : List Nat) : Nat := l.foldl (fun n k => n + 2 ^ k) 0
  match b with
  | 8 | 9 => bitsOf [3, 4]
  | 11 => bitsOf [1, 2, 19]
  | 12 => bitsOf [14, 15]
  | 13 => bitsOf [5, 6, 7, 8, 15]
  | 14 | 15 => bitsOf [9, 10]
  | 16 => bitsOf [11, 12, 13]
  | 17 => bitsOf [11, 20]
  | 20 => bitsOf [14]
  | 21 => bitsOf [17]
  | 22 => bitsOf [18]
  | 24 => bitsOf [16]
  | _ => 0

/-- The features a block implements (R40). -/
def blockFeatures (b : Nat) : DWord := BitVec.ofNat 64 (commonFeatures + ownFeatures b)

/-- The features agreed in any open session (R40). -/
def openFeatures (s : State) : DWord :=
  s.sec.sessions.toList.foldl (fun m x => if x.phase = .opened then m ||| x.agreed else m) 0

/-- The features that a block's word lacks of those asked of it, by those it implements (R40). -/
def missingFeatures (b : Nat) (asked word : DWord) : DWord := asked &&& blockFeatures b &&& ~~~word

/-- The lowest bit of a map. -/
def lowestBit (m : DWord) : Nat := ((List.range 64).find? fun i => m.getLsbD i).getD 0

/-! ### A block goes out (Table 2.5, Table 2.6) -/

/-- A tack of KIND 3 targets a core (Table 4.4). -/
def signals (c : CoreId) (t : Tack) : Bool := decide (t.kind = 3) && decide (t.target / 256 % 8 = c.val)

/-- A request of a core that has lost its far accesses no longer has anyone to answer (R37, R99). -/
def disown (c : CoreId) (r : DramReq) : DramReq :=
  match r.from_ with
  | .core c' _ => if c' = c then { r with from_ := .engine } else r
  | _ => r

/-- How many of a sender's words on queue 240 make whole orders (Table 4.5). -/
def wholeWords : Nat → List Word → Nat
  | n + 1, h :: _ :: rest =>
    let len := bits h 16 7
    if rest.length < len then 0 else len + 2 + wholeWords n (rest.drop len)
  | _, _ => 0

/-- Of a gathered queue, the first n entries of a sender, and those of every other. -/
def keepOf (sender : Nat) : Nat → List QEntry → List QEntry
  | _, [] => []
  | n, e :: es =>
    if e.core = sender then
      match n with
      | 0 => keepOf sender 0 es
      | n + 1 => e :: keepOf sender n es
    else e :: keepOf sender n es

/-- The authority unit discards the words of an order that a reset core has begun without completing it (R99). -/
def dropBegun (c : CoreId) (s : State) : State :=
  let got := s.assembly[c]
  let ws := got ++ ((s.queue 240).filter (·.core == c.val)).map (·.val)
  let whole := wholeWords ws.length ws
  let s := s.setQueue 240 (keepOf c.val (whole - got.length) (s.queue 240))
  { s with assembly := modAt s.assembly c fun a => if whole = 0 then [] else a }

/-- The far stores that a core has issued go on without it, behind port P6; its far loads are lost (R99, R121). -/
def leaveStores (qs : List FarReq) (s : State) : State :=
  forAll (fun q s => if q.store then enginePieces 6 (writePieces .engine q.addr.toNat q.data) s else s) qs s

/-- A core is reset (R74, R99): its architectural state, latched events and held traps are gone, with its far loads, bindings,
tokens, the words of an order it has begun, and order replies; its banks, its other tacks and the entries of its queues stay. -/
def resetCore (c : CoreId) (s : State) : State :=
  let k := s.core c
  let s := s.updCore c fun _ => ({
    pc := codeAddr (s.word (coreAddr c 2)), kickAt := s.deviceTime.toNat, farTag := k.farTag
    trapCause := k.trapCause, trapPc := k.trapPc, trapF := k.trapF, trapLo := k.trapLo, trapHi := k.trapHi
    lateRun := k.lateRun, dropped := k.dropped } : Core)
  let s := forAll (fun ch s => s.updChan ch fun x => { x with queue := x.queue.map (disown c) }) (List.finRange 2) s
  let s := s.resetWords (coreAddr c 0x10) (coreAddr c 0x18)
  let s := releaseTokens c.val s
  let s := leaveStores k.farWait (dropBegun c s)
  let s := { (s.setQueue (241 + c.val) []) with
    waiting := s.waiting.filter fun e => decide (e.1 ≠ 241 + c.val)
    banks := s.banks.map fun (b : Bank) => { b with takers := b.takers.filter fun d => decide (d ≠ c) } }
  let lost := s.tacks.filter (signals c)
  forAll (fun t s => record 0x1013 t.core t.slot s) lost { s with tacks := s.tacks.filter fun t => !signals c t }

/-- An LED block is reset: its words, and its sinks off (Table 2.6). -/
def resetLed (d : Fin 2) (s : State) : State := ledOut d (s.resetWords (ledAddr d 0) (ledAddr d 0x400))

/-- A gate block is reset: gates off, brakes not conducting, its words but the levels of its inputs (Table 2.6). -/
def resetGateDie (d : Fin 2) (s : State) : State :=
  let s := forAll (fun a s => brakeOff a (axisGatesOff a s)) (dieAxes d) s
  let levels := s.word (gateAddr d 9)
  let s := (s.resetWords (gateAddr d 0) (gateAddr d 0x400)).setWord (gateAddr d 9) levels
  let s := forAll (fun a s => s.updGate a fun _ => {}) (dieAxes d) s
  let mine : BitVec 24 := BitVec.ofNat 24 (0xFFF * 2 ^ (12 * d.val))
  { s with gate := { s.gate with
    tests := modAt s.gate.tests d fun _ => none
    bootHold := s.gate.bootHold &&& ~~~mine
    soft := s.gate.soft &&& ~~~mine
    quietAt := s.gate.quietAt.filter fun e => decide (e.1.1 ≠ d.val) } }

/-- What the reset of a block does to it (Table 2.6): its words take their reset values (but those of the DRAM channels, R248, and
of the polder window), its sequencers their reset states, its pins the state of the table. -/
def tearDown (b : Fin 25) (s : State) : State :=
  if h : b.val < 8 then resetCore ⟨b.val, h⟩ s
  else match b.val with
  | 8 => chanOut 0 s
  | 9 => chanOut 1 s
  | 10 => (netOut s).resetWords 0x1C00 0x2000
  | 12 => holOut (s.resetWords 0x2400 0x2800)
  | 13 => panelOut (s.resetWords 0x2800 0x2C00)
  | 14 => resetLed 0 s
  | 15 => resetLed 1 s
  | 16 => State.resetWords { allGatesOff s with axes := Vector.replicate 4 {} } 0x3800 0x4000
  | 17 => State.resetWords { allGatesOff s with loop := {} } 0x4000 0x4800
  | 18 => resetGateDie 0 s
  | 19 => resetGateDie 1 s
  | 20 =>
    let s := allBrakesOff s
    State.resetWords { s with mach := { ({} : Mach) with brakes := s.mach.brakes } } 0x5000 0x5800
  | 21 => markStale s
  | 22 => twOut (s.resetWords 0x5C00 0x6000)
  | 24 => State.resetWords { s with trace := Vector.replicate 8 {} } 0x6800 0x6C00
  | _ => s

/-- The credit check of Table 2.5 on a block that goes out: a sender into it with a wrong count raises CREDIT_MISMATCH, the queue is set
to its depth, and only a device reset readmits the block (Table 2.7). -/
def creditCheck (b : Fin 25) (s : State) : State :=
  let wrong := s.miscount.filter fun e => decide (e.1 = b)
  let s := forAll (fun e s => record 0x1003 e.2.1 e.2.2 (setPhase b .mismatched s)) wrong s
  { s with miscount := s.miscount.filter fun e => decide (e.1 ≠ b) }

/-- A block goes out by the sequence of Table 2.5: its sluices close, actions handed to its retimers are discarded (R550), the credits are
checked, and it is reset or powered down. -/
def takeOut (b : Fin 25) (s : State) : State :=
  if s.admitted b then
    let s := { (setPhase b .out s) with launches := s.launches.filter fun l => decide (blockOfAddr l.target ≠ b.val) }
    tearDown b (creditCheck b s)
  else s

/-- A block goes out and is due to be readmitted, unless its credits were wrong. -/
def takeOutAndBack (b : Fin 25) (s : State) : State :=
  let s := takeOut b s
  setReadmit b (decide (s.blocks[b] ≠ .mismatched)) s

/-- A core starts at CORE_START_PC (R99, R109); a held trap is taken before its first instruction (R141). -/
def startCore (c : CoreId) (s : State) : State :=
  let pc := codeAddr (s.word (coreAddr c 2))
  takeHeld c (s.updCore c fun k => { k with pc := pc, status := .running, entryWait := false })

/-- The first access of a run that failed. -/
def firstFailed (es : List RunEntry) : Option RunEntry := es.find? fun e => decide (e.status = .refused) || decide (e.status = .resetAbort)

/-- The replies of a control-space run have arrived (R128, R129): the core traps once, for the first failing access, at its PC; else it
takes a held cause (R137). A core that has been halted meanwhile stays halted. -/
def collectRun (c : CoreId) (s : State) : State :=
  let k := s.core c
  if k.csRun.isEmpty then s
  else
    let s := s.updCore c fun k => { k with csRun := [] }
    let s := match firstFailed k.csRun with
      | some e => syncTrap c (if e.status = .refused then 5 else 6) e.pc (BitVec.ofNat 32 e.addr) 0 s
      | none => takeHeld c s
    onlyIf (decide (k.status = .halted)) (fun s => s.updCore c fun k => { k with
      status := match k.status with | .doubleTrap => .doubleTrap | _ => .halted }) s

/-- A core halts at its next instruction boundary, which comes after an open run, and after the fill that a BTAKE waits for (R109, R128,
R260). -/
def haltCore (c : CoreId) (s : State) : State :=
  collectRun c (s.updCore c fun k => match k.status with
    | .doubleTrap => k
    | .filling _ _ => { k with step := true }
    | _ => { k with status := .halted })

/-- A block's input sluice opens: a DRAM channel trains again (R248), a core with AUTO restarts (R99), the inputs of a gate block that are
active trip (R414). -/
def openBlock (b : Fin 25) (s : State) : State :=
  let s := setReadmit b false (setPhase b .admitted s)
  if h : b.val < 8 then
    let c : CoreId := ⟨b.val, h⟩
    onlyIf (s.flag (coreAddr c 1) 2) (startCore c) s
  else match b.val with
  | 8 => chanReadmit 0 s
  | 9 => chanReadmit 1 s
  | 18 | 19 => standingTrips s
  | _ => s

/-- A block presents its feature word: its sluice opens where it holds every feature asked of it, else it stays out with
READMIT_REFUSED (R40). -/
def judgeReadmit (b : Fin 25) (asked word : DWord) (opens : State → State) (s : State) : State :=
  let missing := missingFeatures b.val asked word
  if missing = 0 then opens s
  else record 0x1005 b.val (lowestBit missing) (setReadmit b false (setPhase b .out s))

/-- BLOCK_READMIT: a block that is out, due to return and not kept out by a lost clock presents its feature word (R40); a core whose image is being replaced does not (Table 2.5). -/
def execBlockReadmit (b : Fin 25) (feature : DWord) (s : State) : Outcome State Fault Refusal :=
  let replacing := decide (b.val < 8) && s.sec.update.isSome
  .next (if s.blocks[b] = .out && s.readmit.getLsbD b.val && !s.byClock.getLsbD b.val && !replacing then judgeReadmit b (openFeatures s) feature (openBlock b) s
    else s)

/-- A FABRIC_BLOCK_CMD write (R37–R39, R49): ACTION 0 has no effect; a command that names no block, a block never alone or its
writer is refused, and so is a reset or power-down outside the modes of Table 2.6; a reset of a block that is out starts from
readmission. -/
def blockCmdRule (writer : CoreId) (val : Word) (s : State) : Rule :=
  let n := bits val 0 5
  let action := bits val 8 2
  if action = 0 then .plain val
  else if h : n < 25 then
    let b : Fin 25 := ⟨n, h⟩
    let named := decide (n ≠ 11) && decide (n ≠ 23) && decide (n ≠ writer.val)
    .when (named && (decide (action = 3) || aloneIn n s)) 0x1006 n writer (.accept val fun s => match action with
      | 1 => if s.admitted b then takeOutAndBack b s else onlyIf (decide (s.blocks[b] = .out)) (setReadmit b true) s
      | 2 => setReadmit b false (takeOut b s)
      | _ => onlyIf (decide (s.blocks[b] = .out)) (setReadmit b true) s)
  else .fault 0x1006 n writer

/-! ### Watchdogs (R98, R99) -/

/-- CORE_WDOG_LIMIT in ns; 0 turns the watchdog off. -/
def wdogLimit (c : CoreId) (s : State) : Nat := s.field (coreAddr c 9) 0 16 * 1000

/-- Device time since the last kick. -/
def wdogAge (c : CoreId) (s : State) : Nat := s.deviceTime.toNat - (s.core c).kickAt

/-- WATCHDOG_TRAP: the limit has passed without a kick (R98). -/
def execWatchdogTrap (c : CoreId) (s : State) : Outcome State Fault Refusal :=
  .next (if decide (0 < wdogLimit c s) && decide (wdogLimit c s ≤ wdogAge c s) && !(s.core c).wdogFired then
      asyncTrap c 12 0 (s.updCore c fun k => { k with wdogFired := true })
    else s)

/-- CORE_WATCHDOG: a further limit has passed; the core is reset by the sequence of Table 2.5 (R98, R99). -/
def execCoreWatchdog (c : CoreId) (s : State) : Outcome State Fault Refusal :=
  let b : Fin 25 := c.castLE (by decide)
  .next (if decide (0 < wdogLimit c s) && decide (2 * wdogLimit c s ≤ wdogAge c s) && (s.core c).wdogFired && s.admitted b then
      record 0x1011 c 0 (takeOutAndBack b s)
    else s)

/-! ### Domain clocks (R33, R34, R546) -/

/-- Scan-out runs (R310). -/
def scanRuns (s : State) : Bool := 2 ≤ s.field 0x2844 0 3

/-- The panel lanes in use. -/
def panelLanes (s : State) : Nat := if classL s then s.field 0x2860 0 4 else lanesE s

/-- A domain's clock-presence detector is armed (R34). -/
def clockArmed (d : Fin 25) (s : State) : Bool :=
  let up := match s.modes.mode with | .dormant | .standby | .boot => false | _ => true
  let channel (ch : Fin 2) : Bool := up && !s.blockOut (chanBlock ch) &&
    match chanState ch s with | 0 | 1 | 3 => true | _ => false
  let tx (p : Fin 2) : Bool := decide (portMode p s ≠ 0)
  let rx (p : Fin 2) : Bool := tx p && portLink p s
  let hol := s.admitted 12
  let axis (f : AxisId → Bool) : Bool := allAxes.any fun a => s.flag (axisAddr a 0) 31 && f a
  match d.val with
  | 0 | 1 => !s.modes.held
  | 2 => channel 0
  | 3 => channel 1
  | 4 => tx 0
  | 5 => rx 0
  | 6 => tx 1
  | 7 => rx 1
  | 8 => hol
  | 9 => hol && s.hol.ports[(0 : Fin 2)].locked
  | 10 => hol
  | 11 => hol && s.hol.ports[(1 : Fin 2)].locked
  | 12 => scanRuns s
  | 13 => scanRuns s && decide (9 ≤ panelLanes s)
  | 14 => classL s && scanRuns s
  | 15 => s.flag 0x0008 0
  | 16 => s.flag 0x0008 1
  | 17 => (List.finRange 2).any fun e => matrixRuns e s
  | 18 => axis fun a => !s.flag (axisAddr a 0) 17
  | 19 => axis fun a => decide (angleSrc a s < 2)
  | 20 => twCfg 0 31 s
  | 21 => twCfg 1 31 s
  | 22 => twCfg 2 31 s
  | 23 => (decide (s.modes.mode = .boot) && s.modes.strapped && decide (s.field 0x0014 0 2 = 0) && !s.modes.slotsEnded) || s.sec.writing.isSome
  | _ => false

/-- The words of a block that a lost clock leaves: the panel engine and the LED blocks resume in the mode that their words set, class L
or matrix mode (Table 2.10). -/
def clockKeeps (b : Fin 25) : Nat × Nat :=
  match b.val with
  | 13 => (0x2800, 0x2C00) | 14 => (0x3000, 0x3400) | 15 => (0x3400, 0x3800) | _ => (0, 0)

/-- The stored fields of the words from lo to hi − 1 take the values they had in another state. -/
def keepWords (lo hi : Nat) (old s : State) : State :=
  forAll (fun i s =>
    let a := lo + i
    let m : Word := BitVec.ofNat 32 (maskOf (fun x => x == .rw || x == .rwl) (fieldsAt a))
    if m = 0 then s else s.setWord a ((s.word a &&& ~~~m) ||| (old.word a &&& m))) (List.range (hi - lo)) s

/-- A block goes out because a clock is lost, one that has not been admitted too, and stays out until the clock returns (R546). -/
def clockTakes (b : Fin 25) (s : State) : State :=
  let t := if s.blocks[b] = .fresh then tearDown b (setPhase b .out s) else takeOut b s
  let t := match b.val with
    | 14 => t.updLedDie 0 fun x => { x with waits := true }
    | 15 => t.updLedDie 1 fun x => { x with waits := true }
    | _ => t
  { keepWords (clockKeeps b).1 (clockKeeps b).2 s t with byClock := s.byClock ||| BitVec.ofNat 25 (2 ^ b.val) }

/-- The blocks that the lost clock of a domain takes out (Table 2.10). -/
def clockBlocks (d : Fin 25) (s : State) : List (Fin 25) :=
  match d.val with
  | 2 => [8]
  | 3 => [9]
  | 8 | 9 | 10 | 11 => [12]
  | 12 | 13 | 14 => [13]
  | 17 => (List.finRange 2).filter (fun e => matrixRuns e s) |>.map ledBlock
  | 18 | 19 => [16]
  | _ => []

/-- The contents of a channel are undefined unless it had entered self-refresh (Table 2.10). -/
def clockChannel (ch : Fin 2) (s : State) : State :=
  if chanState ch s = 2 then clockTakes (chanBlock ch) s else loseContents ch (clockTakes (chanBlock ch) s)

/-- The consequence of a domain's lost clock (Table 2.10). -/
def clockConsequence (d : Fin 25) (s : State) : State :=
  match d.val with
  | 0 | 1 => demandCat0 0xFF s
  | 2 => clockChannel 0 s
  | 3 => clockChannel 1 s
  | 4 | 5 => onlyIf (portLink 0 s) (loseLink 0) s
  | 6 | 7 => onlyIf (portLink 1 s) (loseLink 1) s
  | 15 => loseDie 0 3 s
  | 16 => loseDie 1 3 s
  | 18 | 19 => demandCat0 0xFF (hardOff (clockTakes 16 s))
  | 20 => twRelease 0 s
  | 21 => twRelease 1 s
  | 22 => twRelease 2 s
  | _ => forAll clockTakes (clockBlocks d s) s

/-- A detector that is not armed forgets what it has declared: armed again while the clock is absent, it declares the loss again
(R34). -/
def disarm (d : Fin 25) (s : State) : State :=
  if clockArmed d s then s else forgetClock d.val s

/-- Every detector that is not armed forgets. -/
def disarmAll (s : State) : State := if s.clockTold = 0 then s else forAll disarm (List.finRange 25) s

/-- DOMAIN_CLOCK_LOST: a domain's clock is absent; where its detector is armed the loss is declared, once until it is armed anew (R33,
R34, R546). -/
def execDomainClockLost (d : Fin 25) (s : State) : Outcome State Fault Refusal :=
  let mask : BitVec 25 := BitVec.ofNat 25 (2 ^ d.val)
  let s := { disarm d s with clockLost := s.clockLost ||| mask }
  .next (if clockArmed d s && !s.clockTold.getLsbD d.val then
      let s := { s with clockSaid := s.clockSaid ||| mask, clockTold := s.clockTold ||| mask }
      let s := s.latch 0x0406 d.val
      let s := onlyIf (decide (d.val ≠ 15) && decide (d.val ≠ 16)) (record 0x1004 (d.val + 1) 0) s
      disarm d (clockConsequence d s)
    else s)

/-- The blocks that a domain's clock can have taken out. -/
def clockHolds (d : Fin 25) : List (Fin 25) :=
  match d.val with
  | 2 => [8] | 3 => [9] | 8 | 9 | 10 | 11 => [12] | 12 | 13 | 14 => [13] | 17 => [14, 15] | 18 | 19 => [16] | _ => []

/-- Another declared loss still keeps a block out. -/
def stillHeld (b : Fin 25) (s : State) : Bool :=
  (List.finRange 25).any fun e => s.clockSaid.getLsbD e.val && (clockHolds e).contains b

/-- A block that a lost clock keeps out is due to return once no clock it needs is absent. -/
def clockFrees (b : Fin 25) (s : State) : State :=
  if s.byClock.getLsbD b.val && !stillHeld b s then
    setReadmit b true { s with byClock := s.byClock &&& ~~~BitVec.ofNat 25 (2 ^ b.val) }
  else s

/-- DOMAIN_CLOCK_RETURN: the clock is back and the units resume as the last column of Table 2.10 states. -/
def execDomainClockReturn (d : Fin 25) (s : State) : Outcome State Fault Refusal :=
  let mask : BitVec 25 := BitVec.ofNat 25 (2 ^ d.val)
  let said := s.clockSaid.getLsbD d.val
  let s := { s with clockLost := s.clockLost &&& ~~~mask, clockSaid := s.clockSaid &&& ~~~mask, clockTold := s.clockTold &&& ~~~mask }
  let s := forAll clockFrees (clockHolds d) s
  .next (onlyIf (said && decide (d.val < 2)) (fun s => (setTimeState 0 s).setWord 0x2004 0) s)

/-! ### Observation (R47, R48) -/

/-- FABRIC_STALL: a request in flight beyond FABRIC_STALL_LIMIT is reported and keeps waiting (R47). -/
def execFabricStall (requester target : Fin 25) (ageUs : Nat) (s : State) : Outcome State Fault Refusal :=
  .next (onlyIf (coresPowered s && decide (max 10 (s.field 0x0402 0 16) < ageUs)) (record 0x1002 requester.val target.val) s)

/-- FABRIC_SPEED_UPDATE: the replica's measured handshake time, in 10 ps (R24, R48). -/
def execFabricSpeedUpdate (hs : BitVec 16) (s : State) : Outcome State Fault Refusal :=
  .next (whileOn (fun s => s.setWord 0x0401 (hs.setWidth 32)) s)

/-- The rule of a fabric word (R38, R48). -/
def fabricRule (writer : CoreId) (addr : Nat) (val : Word) (s : State) : Rule :=
  match addr with
  | 0x0403 => blockCmdRule writer val s
  | 0x0409 => .accept val fun s => { (s.setWord 0x040A 0).setWord 0x040B 0 with probeAt := s.deviceTime }
  | 0x040C => .accept val (onlyIf (bit val 0) fun s => s.setField 0x0400 16 11 (min 2047 (inflight s)))
  | _ => .plain val

end Sys2Proof.Machine
end

