-- ==== Sys2Proof/Machine/FaultWords.lean ====
section
/-! DEFINITION. The words of the faults block and of the loss ledger (chapter 23): reading and clearing the fault record (R534–R537),
and the active approximations with their bounds (R539). -/
namespace Sys2Proof.Machine

/-! ### The fault record -/

/-- The entry at an index of the ring: FAULT_HEAD holds the newest, earlier ones lie below it modulo 256 (R534). -/
def faultAt (i : Nat) (s : State) : Option FaultEntry := s.faults.ring[(s.faults.head + 256 - i % 256) % 256]?

/-- A word of an entry (R535). -/
def entryWord (e : Option FaultEntry) (n : Nat) : Word :=
  match e, n with
  | none, _ => 0
  | some e, 0 => e.code ++ e.unit
  | some e, 1 => e.data
  | some e, 2 => e.time.setWidth 32
  | some e, _ => (e.time >>> 32).setWidth 32

/-- FAULT_SEL copies an entry into FAULT_ENTRY0–3 in one grant (R537). -/
def copyEntry (i : Nat) (s : State) : State :=
  let e := faultAt i s
  (((s.setWord 0x6404 (entryWord e 0)).setWord 0x6405 (entryWord e 1)).setWord 0x6406 (entryWord e 2)).setWord 0x6407 (entryWord e 3)

/-- FAULT_CLEAR clears the record with its counters (R534). -/
def clearFaults (s : State) : State :=
  { s with faults := { s.faults with count := 0, head := 255, suppressed := 0, ring := [] } }

/-- The rule of a word of the faults block. -/
def faultRule (addr : Nat) (val : Word) : Rule :=
  match addr with
  | 0x6403 => .accept val (copyEntry (bits val 0 8))
  | 0x6408 => .accept val (onlyIf (bit val 0) clearFaults)
  | _ => .plain val

/-- The words that show the record. -/
def faultWord (addr : Nat) (s : State) : Word :=
  match addr with
  | 0x6400 => BitVec.ofNat 32 s.faults.count
  | 0x6401 => BitVec.ofNat 32 s.faults.head
  | 0x6402 => BitVec.ofNat 32 s.faults.suppressed
  | _ => s.word addr

/-! ### The loss ledger (R539, Tables 23.4 and 23.6) -/

/-- A panel slot is enabled. -/
def anySlot (f : Fin 2 → Bool) (s : State) : Bool := (List.finRange 2).any fun k => panelOn k s && f k

/-- A slot shows a buffer received as lossy slices. -/
def showsLossy (k : Fin 2) (s : State) : Bool :=
  match s.panel.slots[k].shown with
  | some b => (s.panel.slots[k].bufs[b]).lossy
  | none => false

/-- An LED channel has a curve in effect. -/
def anyCurve (curve : Nat) (s : State) : Bool := s.led.chans.toList.any fun x => decide (bits x.cfg 0 2 = curve)

/-- A die has made a diagnostic stretch in the last 250 ms. -/
def stretched (d : Fin 2) (s : State) : Bool :=
  match s.led.dies[d].stretchAt with
  | some t => decide (s.clock < t + 250000000)
  | none => false

/-- The largest K of the trace channels that are armed with CODER 2. -/
def traceBound (s : State) : Option Nat :=
  let ks := (List.finRange 8).filterMap fun n =>
    if (traceState n s = 1 || traceState n s = 2) && decide (traceCoder n s = 2) then some (traceK n s) else none
  match ks with
  | [] => none
  | k :: ks => some (256 * 2 ^ ks.foldl max k)

/-- The users of an entry: its UNIT and its BOUND while any is active. -/
def ledgerUser (n : Nat) (s : State) : Option (Nat × Nat) :=
  let when (b : Bool) (u bound : Nat) : Option (Nat × Nat) := if b then some (u, bound) else none
  match n with
  | 0 => when (anySlot (fun k => if slotSrc k s = 3 then s.flag 0x2832 2 && s.feature 5 else decide (storeMode s = 2)) s) 0 512
  | 1 => when (anySlot (fun k => showsLossy k s) s) 0 512
  | 2 => when (overdriveOn s) 0 2048
  | 3 => when (scanRuns s) 1 128
  | 4 => when (scanRuns s && decide (panelDepth s < 16)) 4 256
  | 5 => when (anyCurve 1 s) 1 128
  | 6 => when (anyCurve 2 s) 2 256000
  | 7 => when ((List.finRange 2).any fun d => decide (ledDepth d s < 16)) 7 128
  | 8 => when ((List.finRange 2).any fun d => stretched d s) 5 256000
  | 9 => when (allAxes.any fun a => s.flag (axisAddr a 0) 31) 3 9216
  | 10 => (traceBound s).map fun b => (6, b)
  | _ => none

/-- LEDGER_n: 0 while its stage is not active or LOSS_LEDGER is not agreed. -/
def ledgerWord (n : Nat) (s : State) : Word :=
  if s.agreed.getLsbD 19 then
    match ledgerUser n s with
    | some (u, b) => BitVec.ofNat 32 (2 ^ 31 + u * 2 ^ 24 + b % 2 ^ 24)
    | none => 0
  else 0

/-- LEDGER_ACTIVE copies the ACTIVE bits (R542). -/
def ledgerActive (s : State) : Word := (List.range 12).foldl (fun w n => setBit w n (bit (ledgerWord n s) 31)) 0

end Sys2Proof.Machine
end

