-- ==== Sys2Proof/Machine/Modes.lean ====
section
/-! DEFINITION. Modes, power and start-up (chapter 3) with the thermal supervision of chapter 20: rails and power-on, resets and their
scopes, straps, the edge dies, MODE_REQUEST, Admission, Standby and wake. -/
namespace Sys2Proof.Machine

open Host (Outcome)

/-! ### Resets (R56, Table 3.5) -/

/-- The blocks of a core die that is off: none takes a request or acts (Table 3.1). -/
def blocksOff : Vector BlockPhase 25 := Vector.replicate 25 .out

/-- The control words that a reset of the core die leaves: those of the always-on domain (reset cause, wake, alarm, rails, DRAM_SPEED_MAX, the
time state) and the levels of the gate inputs. -/
def survivingWords : List Nat :=
  [0x0013, 0x0015, 0x0016, 0x0017, 0x0018, 0x1412, 0x1812, 0x2002, 0x2003, 0x2004, 0x4809, 0x4C09]

/-- A DRAM channel after a reset: one in self-refresh stays in it with its contents until Admission (R63, Table 3.5), and a warm wake
skips what initialisation has not reached; the contents of another read as zeros, which the cold boot writes (R230). -/
def chanAfterReset (warm : Bool) (ch : Fin 2) (s : State) : DramChan :=
  let x := s.chan ch
  if chanState ch s = 2 then
    { cells := x.cells, poisoned := x.poisoned, mended := x.mended, errs := x.errs, epoch := x.epoch, front := x.front, ahead := x.ahead
      zeroed := x.zeroed || warm, sr := .committed }
  else {}

/-- The words of a channel that stays in self-refresh: STATE and SR. -/
def keepSr (ch : Fin 2) (s : State) (ws : List (Nat × Word)) : List (Nat × Word) :=
  if chanState ch s = 2 then
    let ws := sput resetWord ws (chanAddr ch 0x11) (setBits (resetWord (chanAddr ch 0x11)) 3 3 2)
    sput resetWord ws (chanAddr ch 0x15) (setBit (resetWord (chanAddr ch 0x15)) 20 true)
  else ws

/-- The polder goes on through every reset (R56); the window receiver starts afresh. -/
def polderAfterReset (s : State) : Polder :=
  { s.polder with frame := none, rxAt := s.clock, silent := false, sealRx := none, said := 0, high := Vector.replicate 4 (0, 0) }

/-- The quad-SPI slot of an interrupted boot-slot write holds no known bytes; the other slot stays valid (Table 2.10). -/
def spoilWrite (s : State) : State :=
  match s.sec.writing with
  | some (_, img, primary) =>
    let bytes : Bytes := (List.range img.length).map fun i => Config.freeByte s.free i
    (s.updSec fun x => { x with
      writing := none, flash := modAt x.flash (if primary then (0 : Fin 2) else 1) fun _ => some bytes }).bump
  | none => s

/-- The security block after a reset: sessions, transfers and the reopening latch are gone; the failure count and the lockout
stand (R157, R161, R168), and so does the flash. -/
def secAfterReset (s : State) : Sec :=
  { fails := s.sec.fails, lockEnd := s.sec.lockEnd, lockNext := s.sec.lockNext, flash := s.sec.flash
    jtagIr := jtagKept s, jtagDr := s.sec.jtagDr }

/-- The scope of a reset of the core die and both edge dies: every unit is as after reset; what the always-on domain, the polder and the
outside hold stands (Table 3.5). -/
def resetScope (warm : Bool) (s : State) : State :=
  let s := spoilWrite s
  let kept := keepSr 1 s (keepSr 0 s (survivingWords.foldl (fun ws a => sput resetWord ws a (s.word a)) []))
  let kept := if s.hol.hestOthers then sput resetWord kept 0x2405 8 else kept
  { pending := s.pending, clock := s.clock, free := s.free, sets := s.sets, words := kept, deviceTime := s.deviceTime, fuses := s.fuses
    modes := { resetN := s.modes.resetN, hotSaid := s.modes.hotSaid, porEnded := s.modes.porEnded, railsInAt := s.modes.railsInAt
               released := s.clock }
    clockLost := s.clockLost
    gate := { stoSince := s.gate.stoSince }
    dram := { chans := #v[chanAfterReset warm 0 s, chanAfterReset warm 1 s] }
    time := s.time
    hol := { hestOthers := s.hol.hestOthers }
    sec := secAfterReset s
    polder := polderAfterReset s
    merged := cycleOf s.deviceTime
    faults := s.faults }

/-- A reset of that scope for a cause of MODE_RESET_CAUSE. -/
def resetDevice (cause : Nat) (s : State) : State := (resetScope (decide (cause = 3)) s).latch 0x0013 cause

/-- The core die is held in reset after a reset cause: until it is released no block of it acts. -/
def holdDevice (cause : Nat) (s : State) : State :=
  { (resetDevice cause s).updModes fun x => { x with held := true } with blocks := blocksOff }

/-- What an edge die that has made itself safe keeps while the core die goes into reset: its safe state, and the currents of its LED sinks for
10 ms (R55, R329, Table 3.4). -/
def keepHold (old : State) (d : Fin 2) (s : State) : State :=
  onlyIf (ledHolds d old) (fun s => forAll (fun c s => s.updLed c fun x => { x with units := (old.ledCh c).units }) (ledChans d)
    (s.updDie d fun x => { x with safe := true, safeAt := old.dies[d].safeAt })) s

/-- The core die is held until its rails have been in range for 2 ms (R54, Table 3.4). -/
def railReset (hot : Bool) (s : State) : State :=
  forAll (keepHold s) [0, 1] ((holdDevice 4 s).updModes fun x => { x with railHold := true, holdHot := hot })

/-- RESET_N_ASSERT: the gates are off through the hardware path, and the core die and both edge dies are reset (R57, Table 3.5). -/
def execResetNAssert (s : State) : Outcome State Fault Refusal :=
  let s := s.updModes fun x => { x with resetN := false }
  .next (if s.modes.mode = .dormant then s
    else
      let hot := s.modes.holdHot
      let rails := s.modes.railHold
      (holdDevice 1 s).updModes fun x => { x with railHold := rails, holdHot := hot })

/-- The device is released: until now its reset has stood, so every unit is as after reset (Table 3.5); the straps are latched and the mode
is Boot (R58, R59); the time state passes to HOLDOVER from LOCKING or LOCKED, since the links are down; the gate inputs that are active trip
(R67, R414). -/
def releaseDevice (boot : Nat) (mstr : Bool) (s : State) : State :=
  let s := resetScope false s
  let bad := mstr && decide (boot = 3)
  let s := s.updModes fun x => { x with
    mode := .boot, held := false, strapped := true, resetN := true, released := s.clock }
  let s := s.setWord 0x0012 (BitVec.ofNat 32 (boot + 4 * b2n mstr))
  let s := s.setField 0x0014 0 2 (if bad then 0 else boot)
  let s := onlyIf s.sec.lockNext (fun s => s.updSec fun x => { x with lockNext := false, lockEnd := s.clock + 60000000000 }) s
  standingTrips (enterHoldover (onlyIf bad (record 0xD002 0xFFFF 0) s))

/-- RESET_RELEASE: reset is released after power-up or after an assertion, once the hold of the core die has ended. -/
def execResetRelease (boot : Fin 4) (mstr : Bool) (s : State) : Outcome State Fault Refusal :=
  .next (if s.modes.porEnded && !s.modes.railHold && !s.modes.strapped then releaseDevice boot mstr s
    else s.updModes fun x => { x with resetN := true })

/-! ### Rails (R54, R55, R501) -/

/-- The bit of a rail in MODE_RAIL_STATUS. -/
def railBit : Rail → Nat
  | .vaon => 0 | .vcore => 1 | .vddq0 => 2 | .vddq1 => 3 | .vser => 4 | .vserh => 5 | .vio => 6
  | .vedgeW => 7 | .vdrvW => 8 | .vedgeE => 9 | .vdrvE => 10

/-- The edge die a rail belongs to; none for a core-die rail. -/
def railDie : Rail → Option (Fin 2)
  | .vedgeW | .vdrvW => some 0
  | .vedgeE | .vdrvE => some 1
  | _ => none

/-- A rail is in its window. -/
def railGood (r : Rail) (s : State) : Bool := s.flag 0x0018 (railBit r)

/-- Every core-die rail is in its window (R54). -/
def coreRailsGood (s : State) : Bool := decide (s.field 0x0018 0 7 = 127)

/-- RAIL_LEAVES_WINDOW: the edge dies concerned make their power stages safe (R55). -/
def execRailLeavesWindow (r : Rail) (s : State) : Outcome State Fault Refusal :=
  let s := s.setFlag 0x0018 (railBit r) false
  .next (if s.modes.held || decide (s.modes.mode = .dormant) then s
    else match railDie r with
      | some d => dieSafe d s
      | none => dieSafe 1 (dieSafe 0 s))

/-- RAIL_OUT_OF_RANGE: a rail has been out for 10 µs; the device resets and the core die is held (R501, Table 3.4). -/
def execRailOutOfRange (r : Rail) (s : State) : Outcome State Fault Refusal :=
  .next (if s.modes.porEnded && !s.modes.held && decide (s.modes.mode ≠ .dormant) && !railGood r s then
      railReset false (record 0xE001 (railBit r) 0 s)
    else s)

/-- RAIL_IN_RANGE: a rail enters its window. -/
def execRailInRange (r : Rail) (s : State) : Outcome State Fault Refusal :=
  let s := s.setFlag 0x0018 (railBit r) true
  .next (if (railDie r).isNone then s.updModes fun x => { x with railsInAt := s.clock } else s)

/-- POWER_ON_RESET_END: 2 ms after the last core-die rail came into range the internal power-on reset ends, and so does the hold of the
core die after a rail fault or, once it has cooled to 110 °C, a thermal shutdown (R54, R508). -/
def execPowerOnResetEnd (s : State) : Outcome State Fault Refusal :=
  let m := s.modes
  let due := coreRailsGood s && decide (m.railsInAt + 2000000 ≤ s.clock)
  .next (if due && (!m.porEnded || (m.railHold && !m.holdHot)) then
      s.updModes fun x => { x with porEnded := true, railHold := false }
    else s)

/-- Whether VAON or VCORE is absent, as far as the device knows. -/
def coreUnpowered (s : State) : Bool := !s.modes.porEnded || (s.modes.railHold && !(railGood .vaon s && railGood .vcore s))

/-- VPOL_PRESENT: VPOL comes up; while VAON or VCORE is absent the device is in Dormant and the polder meters (Table 3.2). -/
def execVpolPresent (s : State) : Outcome State Fault Refusal :=
  let s := if s.polder.vpol then s
    else if s.fuses.polder then polderUp true s else s.updPolder fun p => { p with vpol := true }
  .next (if coreUnpowered s then s.updModes fun x => { x with mode := .dormant, previous := x.mode } else s)

/-- VAON_LOST: the always-on domain and device time are lost, and the device drops to Dormant (Table 3.4). The reopening lockout of 60 s
runs from the next reset release (R161). -/
def execVaonLost (s : State) : Outcome State Fault Refusal :=
  let s := spoilWrite s
  let levels := [0x4809, 0x4C09].foldl (fun ws a => sput resetWord ws a (s.word a)) [(0x0013, (1 : Word))]
  let levels := sput resetWord levels 0x0018 (setBit (s.word 0x0018) 0 false)
  .next {
    pending := s.pending, clock := s.clock, free := s.free, sets := s.sets, words := levels, fuses := s.fuses
    modes := { mode := .dormant, resetN := s.modes.resetN, held := true, porEnded := false, railsInAt := s.modes.railsInAt }
    clockLost := s.clockLost
    blocks := blocksOff
    gate := { stoSince := s.gate.stoSince }
    hol := { hestOthers := s.hol.hestOthers }
    sec := { lockNext := true, flash := s.sec.flash }
    polder := polderAfterReset s }

/-! ### Edge dies (R18, R21, R22, R55) -/

/-- An edge die is in contact: its bit of IDENT_DIES. -/
def dieUp (d : Fin 2) (s : State) : Bool := s.flag 0x0008 d.val

/-- The rails of an edge die are in range: VEDGE and VDRV (R54, R513). -/
def diePowered (d : Fin 2) (s : State) : Bool := decide (s.field 0x0018 (7 + 2 * d.val) 2 = 3)

/-- EDGE_DIE_ANSWER: an edge die whose rails are present first answers during Boot (R22, R54). A die in its own safe state counts as lost
until the next reset (R55). -/
def execEdgeDieAnswer (die : Die) (s : State) : Outcome State Fault Refusal :=
  let d := dieIx die
  .next (if decide (s.modes.mode = .boot) && !s.modes.held && diePowered d s && !s.dies[d].lost && !s.dies[d].safe then s.setFlag 0x0008 d.val true else s)

/-- EDGE_DIE_HANDSHAKE_TIMEOUT: a die in contact has not answered for 10 µs, or one has not answered 2 ms after reset release (R21,
Table 3.8). -/
def execEdgeDieHandshakeTimeout (die : Die) (s : State) : Outcome State Fault Refusal :=
  let d := dieIx die
  let silent := decide (s.modes.mode = .boot) && !s.modes.held && decide (s.modes.released + 2000000 ≤ s.clock)
  .next (if dieUp d s || silent then loseDie d 0 s else s)

/-- The DATA of EDGE_DIE_LOST for a die's report (Table 23.7). -/
def reportCode : EdgeReport → Nat
  | .vedge => 1 | .vdrv => 2 | .selfProtect => 4

/-- EDGE_DIE_REPORT: a die in contact reports that it has protected itself (R21, R55). -/
def execEdgeDieReport (die : Die) (why : EdgeReport) (s : State) : Outcome State Fault Refusal :=
  let d := dieIx die
  .next (if dieUp d s then loseDie d (reportCode why) (dieSafe d s) else s)

/-- EDGE_CORE_SILENCE: a die has had no handshake from the core die for 10 µs and latches its safe state (R55). -/
def execEdgeCoreSilence (die : Die) (s : State) : Outcome State Fault Refusal :=
  .next (if s.modes.held || decide (s.modes.mode = .dormant) then s else dieSafe (dieIx die) s)

/-- EDGE_LED_HOLD_EXPIRY: 10 ms after a die protected itself its LED sinks turn off (R55). -/
def execEdgeLedHoldExpiry (die : Die) (s : State) : Outcome State Fault Refusal :=
  let d := dieIx die
  let x := s.dies[d]
  .next (if x.safe && !x.ledsOff && decide (x.safeAt + 10000000 ≤ s.clock) then
      (ledSinksOff d s).updDie d fun x => { x with ledsOff := true }
    else s)

/-! ### MODE_REQUEST (R50–R53, Table 3.2) -/

/-- Every axis is at standstill. -/
def allStill (s : State) : Bool := allAxes.all fun a => standstill a 0 s

/-- A reopening or an Open part allows Maintenance (Table 3.2). -/
def maintenanceAllowed (s : State) : Bool :=
  match s.fuses.life with
  | .blank => false
  | .opened => true
  | .sealed => s.sec.reopened

/-- The condition of the transition from Hold to Run (Table 3.2). -/
def mayRun (s : State) : Bool := !tripLatched s && stoInactive s && !hestLow s

/-- The arbiter judges a request for Hold from the present mode (Table 3.2). -/
def requestHold (s : State) : State :=
  match s.modes.mode with
  | .run | .degraded => if allStill s then enterMode .hold s else demandStop 1 0 s
  | .quiet | .maintenance => enterMode .hold s
  | .trip => if tripLatched s then modeRefused 5 s else enterMode .hold s
  | _ => modeRefused 5 s

/-- Standby is being entered: the channels enter self-refresh, and the entry commits with the last (R69). -/
def beginStandby (s : State) : State := s.updModes fun x => { x with entering := some x.mode }

/-- The arbiter judges a MODE_REQUEST target (R52). While Standby is being entered it accepts none but a trip. -/
def modeRequest (target : Nat) (s : State) : State :=
  let mode := s.modes.mode
  if target = 9 then demandCat0 9 s
  else if s.modes.entering.isSome then modeRefused target s
  else match target with
  | 4 => if mode = .hold && mayRun s then enterMode (runMode s) s else modeRefused 4 s
  | 5 => requestHold s
  | 6 => if mode = .hold && panelAsleep s then enterMode .quiet s else modeRefused 6 s
  | 1 => if mode = .hold || mode = .quiet then beginStandby s else modeRefused 1 s
  | 10 => if mode = .hold && maintenanceAllowed s then enterMode .maintenance s else modeRefused 10 s
  | t => modeRefused t s

/-! ### Admission (R64–R67, R255) -/

/-- A category 0 demand is held when Admission completes (R67). -/
def cat0Waits (s : State) : Bool := s.modes.cat0Held || tripLatched s || (hestLow s && decide (s.field 0x2404 1 2 = 0))

/-- The rollback floor rises to the sequence of the committed image once Admission has accepted it (R156). -/
def raiseFloor (s : State) : State :=
  match s.sec.raiseTo with
  | some f => ({ s with fuses := { s.fuses with floor := max s.fuses.floor (min f 64) } }).updSec fun x => { x with raiseTo := none }
  | none => s

/-- Admission completes when the wiring checks and the feature check are done, training has ended on both channels, and every entry program
has reported ready; it leads to Hold, or to Trip with a category 0 demand held (Table 3.2, R67). -/
def admitDone (s : State) : State :=
  let m := s.modes
  if decide (m.mode = .admission) && m.wired && m.started && decide (m.entryCores &&& ~~~m.ready = 0)
      && decide (chanState 0 s ≠ 0) && decide (chanState 1 s ≠ 0) then
    let s := raiseFloor (latchMap s)
    if cat0Waits s then enterMode .trip (s.updModes fun x => { x with cat0Held := false }) else enterMode .hold s
  else s

/-- The check number of a wiring check (Table 23.7). -/
def checkNum : WiringCheck → Nat
  | .sensor => 1 | .ledString => 2 | .gatePin => 3 | .brakeCoil => 4 | .encoder => 5

/-- WIRING_CHECKS_DONE: the failed units are disabled and named; Admission continues (Table 3.9). -/
def execWiringChecksDone (failed : List (WiringCheck × Fin 64)) (s : State) : Outcome State Fault Refusal :=
  .next (if decide (s.modes.mode = .admission) && !s.modes.wired then
      let s := forAll (fun f s => record 0xE004 f.2.val (checkNum f.1) s) failed s
      admitDone (s.updModes fun x => { x with wired := true, failed := failed.map fun f => (f.1, f.2.val) })
    else s)

/-- A block that has not been admitted since reset, or is due to return, is admitted at Admission. -/
def admitBlock (b : Fin 25) (s : State) : State :=
  let back := decide (s.blocks[b] = .out)
  let s := setReadmit b false (setPhase b .admitted s)
  if back && b.val = 8 then chanReadmit 0 s else if back && b.val = 9 then chanReadmit 1 s else s

/-- The feature check of one block: its word must hold REQ_FEATURES and every set agreed in an open session, as far as the block implements
them (R40, Table 3.8). The system units and security are never out. -/
def checkBlock (words : List DWord) (b : Fin 25) (s : State) : State :=
  if b.val = 11 || b.val = 23 then setPhase b .admitted s
  else if (s.blocks[b] = .fresh || (s.blocks[b] = .out && s.readmit.getLsbD b.val)) && !s.byClock.getLsbD b.val then
    judgeReadmit b (s.modes.reqFeat ||| openFeatures s) (words.getD b.val (blockFeatures b.val)) (admitBlock b) s
  else s

/-- The banks of LOAD_BANKS pass to the lowest entry core; with no entry core they stay free (R255). -/
def giveLoadBanks (s : State) : State :=
  match (List.finRange 8).find? fun c => s.modes.entryCores.getLsbD c.val with
  | some c =>
    let give (i : Fin 32) : Bank := if bit s.modes.loadBanks i.val then { s.banks[i] with owner := c.val } else s.banks[i]
    { s with banks := Vector.ofFn give }
  | none => s

/-- An entry core starts at ENTRY_PC, and waits at its first fetch where it does not own that bank; an address beyond the banks is no bank to
wait for, and the fetch traps (R76, R254, R255). -/
def startEntry (c : CoreId) (s : State) : State :=
  if s.modes.entryCores.getLsbD c.val && s.admitted (c.castLE (by decide)) then
    let pc := s.modes.entryPc
    s.updCore c fun k => { k with pc := pc, status := .running, entryWait := (bankOf pc.toNat).isSome && !s.owns c.val pc.toNat, kickAt := s.deviceTime.toNat }
  else s

/-- A die that has not answered by the end of Boot is lost (Table 3.8). -/
def checkDie (d : Fin 2) (s : State) : State := onlyIf (!dieUp d s) (loseDie d 0) s

/-- FEATURE_CHECK: every block is checked, the image's banks pass to the lowest entry core, and the entry cores start (Table 3.8). -/
def execFeatureCheck (words : List DWord) (s : State) : Outcome State Fault Refusal :=
  .next (if decide (s.modes.mode = .admission) && !s.modes.started then
      let s := checkDie 1 (checkDie 0 s)
      let s := forAll (checkBlock words) (List.finRange 25) s
      let s := forAll startEntry (List.finRange 8) (giveLoadBanks s)
      admitDone (s.updModes fun x => { x with started := true })
    else s)

/-- ENTRY_READY: an entry program reports ready (Table 3.8). -/
def execEntryReady (c : CoreId) (s : State) : Outcome State Fault Refusal :=
  .next (if decide (s.modes.mode = .admission) && s.modes.started && s.modes.entryCores.getLsbD c.val then
      admitDone (s.updModes fun x => { x with ready := x.ready ||| BitVec.ofNat 8 (2 ^ c.val) })
    else s)

/-- ADMIT_TIMEOUT: MODE_ADMIT_LIMIT has passed since reset release; the device stays in Admission (R65). -/
def execAdmitTimeout (s : State) : Outcome State Fault Refusal :=
  let m := s.modes
  let waiting := m.entryCores &&& ~~~m.ready
  .next (if decide (m.mode = .admission) && !m.lateRaised && decide (waiting ≠ 0)
        && decide (m.released + max 200 (s.field 0x0019 0 16) * 1000000 ≤ s.clock) then
      record 0xE003 0xFFFF waiting.toNat (s.updModes fun x => { x with lateRaised := true })
    else s)

/-- DRAM_TRAINING: training of a channel at its present speed completes (R237); with the last, Admission may. -/
def execDramTraining (ch : Fin 2) (found : List (Fin 2 × Fin 3)) (works : List Bool) (s : State) : Outcome State Fault Refusal :=
  .next (admitDone (endTraining ch found works s))

/-! ### Standby and wake (R63, R69, R70) -/

/-- A channel is ready for Standby: in self-refresh, or serving nothing. -/
def chanRests (ch : Fin 2) (s : State) : Bool := decide (chanState ch s = 2) || decide (chanState ch s = 4)

/-- Standby entry completes: every pending tack is dropped and reported (R70), the polder sends fewer frames, and the core die is off: what
only it holds is as after a reset, while the always-on domain, the edge dies, the degraded latch and the DRAM in self-refresh stand
(Table 3.1, R51, R63). -/
def completeStandby (s : State) : State :=
  let s := forAll (fun t s => record 0x1013 t.core t.slot s) s.tacks { s with tacks := [], launches := [] }
  let s := polderCommand 2 (enterMode .standby s)
  let m := s.modes
  let straps := s.word 0x0012
  let status := s.word 0x0014
  let causes := s.word 0x0013
  let t := ((resetDevice 3 s).setWord 0x0012 straps).setWord 0x0014 status
  { t.setWord 0x0013 causes with
    blocks := blocksOff, dies := s.dies
    modes := { t.modes with
      mode := m.mode, previous := m.previous, changes := m.changes, degraded := m.degraded, strapped := true, released := m.released
      standbyAt := s.clock } }

/-- STANDBY_COMMIT: both channels' self-refresh entries have committed (R69). -/
def execStandbyCommit (s : State) : Outcome State Fault Refusal :=
  .next (if s.modes.entering.isSome && chanRests 0 s && chanRests 1 s then completeStandby s else s)

/-- The device boots from Standby, warm, its straps as latched (R63). A wake is no reset of Table 3.5: an edge die's own safe state and the
degraded latch stand (R51, R55). MODE_STATE counts anew with Standby as the mode before (DESIGN CHOICE: log entry 142). -/
def bootWarm (n : Nat) (s : State) : State :=
  let straps := s.word 0x0012
  let source := s.field 0x0014 0 2
  let dies := s.dies
  let degraded := s.modes.degraded
  let s := resetDevice 3 (s.latch 0x0016 n)
  let s := ((s.setWord 0x0012 straps).setField 0x0014 0 2 source).setFlag 0x0014 3 true
  standingTrips <| enterHoldover ({ s with dies := dies }.updModes fun x => { x with strapped := true, previous := .standby, degraded := degraded })

/-- A self-refresh entry that has not committed is abandoned (R236). -/
def stayAwake (ch : Fin 2) (s : State) : State :=
  s.updChan ch fun x => { x with sr := match x.sr with | .entering => .none | p => p }

/-- A wake event of a bit of MODE_WAKE_ENABLE (R63, R69): before the channels have committed Standby entry is abandoned; after that it
completes, and the device boots at once; in Standby the device boots. -/
def wake (n : Nat) (s : State) : State :=
  if !s.flag 0x0015 n then s
  else if s.modes.entering.isSome then
    if chanRests 0 s && chanRests 1 s then bootWarm n (completeStandby s)
    else record 0xE005 0xFFFF 0 (stayAwake 1 (stayAwake 0 (s.updModes fun x => { x with entering := none })))
  else if s.modes.mode = .standby then bootWarm n s
  else s

/-- WAKE_BALL: WAKE has been high for 1 ms. -/
def execWakeBall (s : State) : Outcome State Fault Refusal := .next (wake 0 s)

/-- STANDBY_ALARM: MODE_ALARM ms have passed since Standby was entered. -/
def execStandbyAlarm (s : State) : Outcome State Fault Refusal :=
  let ms := (s.word 0x0017).toNat
  .next (if decide (ms ≠ 0) && decide (s.modes.mode = .standby) && decide (s.modes.standbyAt + ms * 1000000 ≤ s.clock) then wake 2 s else s)

/-- POLDER_WAKE: the polder has raised a wake event (R469). -/
def execPolderWake (s : State) : Outcome State Fault Refusal :=
  .next (if s.polder.wake then wake 1 (s.updPolder fun p => { p with wake := false }) else s)

/-! ### Thermal supervision (R508, R509) -/

/-- A die's reading is judged against its hot threshold: HOT, and DIE_HOT once for each rise, again after a fall of 5 °C. -/
def judgeHot (die limit : Nat) (t : Int) (s : State) : State :=
  let hot := decide (limit < t)
  let s := s.setFlag 0x0023 (3 + die) hot
  let said := s.modes.hotSaid.getLsbD die
  let mask : BitVec 3 := BitVec.ofNat 3 (2 ^ die)
  if hot && !said then record 0xE006 die (wordOf t).toNat (s.updModes fun x => { x with hotSaid := x.hotSaid ||| mask })
  else if said && decide (t + 50 ≤ limit) then s.updModes fun x => { x with hotSaid := x.hotSaid &&& ~~~mask }
  else s

/-- THERMAL_READ: the 1 ms readings of the die sensors and of VCORE; a core die at 125 °C is held in reset until it reads 110 °C or less
(R508); without power no sensor is read (R50). -/
def execThermalRead (core west east vcoreMv : BitVec 16) (s : State) : Outcome State Fault Refusal :=
  .next (if decide (s.modes.mode = .dormant) || decide (s.modes.mode = .standby) then s
    else
      let s := (((s.setWord 0x0020 (core.setWidth 32)).setWord 0x0021 (west.setWidth 32)).setWord 0x0022 (east.setWidth 32)).setWord
        0x0024 (vcoreMv.setWidth 32)
      let s := judgeHot 2 1150 east.toInt (judgeHot 1 1150 west.toInt (judgeHot 0 1100 core.toInt s))
      let s := if core.toInt ≤ 1100 then s.updModes fun x => { x with holdHot := false } else s
      if 1250 ≤ core.toInt && !s.modes.held && s.modes.porEnded then railReset true (record 0xE007 0 core.toNat s) else s)

/-- EDGE_THERMAL_SHUTDOWN: an edge die reaches 135 °C; its own hardware turns its sinks off and enters the trip path, its THERM latch is set
and a category 0 demand made (R509). -/
def execEdgeThermalShutdown (die : Die) (temp : BitVec 16) (s : State) : Outcome State Fault Refusal :=
  let d := dieIx die
  .next (if coresPowered s && decide (1350 ≤ temp.toInt) then
      let s := hardOff (ledSinksOff d (s.latch 0x0023 d.val))
      demandCat0 0xFF (announce 0 0xE007 none (record 0xE007 (dieNo d) temp.toNat s))
    else s)

/-- A THERM bit clears only while its die reads 115 °C or less (R509), and not in the update that sets it (R9). -/
def clearTherm (val : Word) (d : Fin 2) (s : State) : State :=
  if bit val d.val && decide (sbits (s.word (0x0021 + d.val)) 0 16 ≤ 1150) && !s.justSet 0x0023 d.val then s.setFlag 0x0023 d.val false else s

/-- The rule of a word of identity and modes. -/
def identRule (addr : Nat) (val : Word) (_ : State) : Rule :=
  match addr with
  | 0x0011 => .accept val (modeRequest (bits val 0 4))
  | 0x0023 => .accept 0 (clearTherm val 1 ∘ clearTherm val 0)
  | _ => .plain val

end Sys2Proof.Machine
end

