-- ==== Sys2Proof/Machine/Knp.lean ====
section
/-! DEFINITION. The KNP engine (chapter 6): datagrams in, sessions, reassembly, orders and queries to the programs, images, the life
cycle, reopening, what programs send, and the JTAG port. -/
namespace Sys2Proof.Machine

open Host (Outcome)

/-! ### Datagrams (R143, R144, R150, R151) -/

/-- The device listens on a port: host traffic is enabled there and the switch is not out; in Boot only port NA, and only where the boot
source is KNP (R143, Table 3.10); not in Dormant or Standby, nor while it is held in reset. -/
def knpListens (port : Bool) (s : State) : Bool :=
  let cfg := if port then 0x1C01 else 0x1C00
  s.flag cfg 8 && !s.blockOut 10 && !s.modes.held && match s.modes.mode with
    | .dormant | .standby => false
    | .boot => !port && decide (s.field 0x0014 0 2 = 2)
    | _ => true

/-- A datagram reaches the KNP engine: the device listens on its port, and it is sent to SEC_KNP_PORT (R143). -/
def knpReceives (d : Datagram) (s : State) : Bool := knpListens d.port s && decide (d.dport = BitVec.ofNat 16 (s.field 0x6008 0 16))

/-- FLAGS[0]: a tag is present. -/
def hasTag (d : Datagram) : Bool := d.flags.getLsbD 0
/-- FLAGS[1]: more fragments follow. -/
def moreParts (d : Datagram) : Bool := d.flags.getLsbD 1

/-- MAGIC, VERSION and LENGTH hold (R144). -/
def wellFormed (d : Datagram) : Bool :=
  decide (d.magic = 0x4B4E) && decide (d.version = 1) && decide (d.payload.length = d.length.toNat) &&
    decide (d.length.toNat ≤ 1400) && decide (d.tag.length = if hasTag d then 16 else 0)

/-- A datagram or a message is counted in SEC_KNP_DISCARDS. -/
def countDiscard (s : State) : State := s.countUp 0x600A 0 32

/-- The session an identifier names. -/
def findSession (id : BitVec 16) (s : State) : Option (Fin 8) :=
  (List.finRange 8).find? fun k => s.sec.sessions[k].phase ≠ .closed && s.sec.sessions[k].id = id

/-- The tag rule of the life cycle (R150): Blank checks none, Sealed requires a valid one, else one that is present must be valid. -/
def tagPasses (k : Fin 8) (d : Datagram) (s : State) : Bool :=
  let valid := hasTag d && decide (d.tag = tagOf s.sec.sessions[k] d s)
  match s.fuses.life with
  | .blank => true
  | _ => if sealedNow s || hasTag d then valid else true

/-- One SEQ is greater than another (R151). -/
def seqGreater (a b : Word) : Bool := decide (1 ≤ (a - b).toNat) && decide ((a - b).toNat < 2 ^ 31)

/-- A SEQ is neither a replay nor older than the window of 64 (R151). -/
def seqFresh (x : Session) (seq : Word) : Bool := x.got.isEmpty || (seqGreater seq (x.top - 64) && !x.got.contains seq)

/-- A session with a SEQ accepted, valid at a moment. -/
def takeSeq (seq : Word) (now : Nat) (x : Session) : Session :=
  let top := if x.got.isEmpty || seqGreater seq x.top then seq else x.top
  { x with phase := .opened, since := now, top := top, got := seq :: x.got.filter fun q => seqGreater q (top - 64) }

/-- A valid datagram is accepted: the session opens or stays open, and a device in Quiet passes to Hold (Tables 3.2 and 6.3). -/
def acceptSeq (k : Fin 8) (seq : Word) (s : State) : State :=
  let s := s.updSession k (takeSeq seq s.clock)
  if s.modes.mode = .quiet then enterMode .hold s else s

/-! ### Sessions (R147, R148, R152) -/

/-- A session closes: SESSION_CLOSED is raised, the slot's tokens are released, its transfer and its staged image abandoned (R148, R163). -/
def closeSession (k : Fin 8) (type : Nat) (s : State) : State :=
  let s := releaseTokens (8 + k.val) (sessionFault k 0xD005 type s)
  s.updSec fun x => { x with
    sessions := modAt x.sessions k fun _ => {}
    transfer := x.transfer.filter fun t => decide (t.slot ≠ k)
    staged := x.staged.filter fun t => decide (t.slot ≠ k) }

/-- A HELLO that opens no session is answered with ERROR outside any session. -/
def refuseHello (port : Bool) (code : Nat) (s : State) : State := sendLone port 0x3F (errorPayload code 1) (record code 0xFFFF 1 s)

/-- `n` bytes of the device's choice. -/
def freeBytes (n : Nat) (s : State) : Bytes × State := (beBytes n s.freeVal, s.bump)

/-- The number of a life-cycle state. -/
def lifeNum : LifeCycle → Nat
  | .blank => 0 | .opened => 1 | .sealed => 2

/-- A HELLO with BASE opens the lowest free slot with the agreed set, and HELLO_ACK is sent (R147, R152). -/
def openSession (k : Fin 8) (d : Datagram) (s : State) : State :=
  let agreed : DWord := BitVec.ofNat 64 (fromBe (d.payload.take 8)) &&& deviceMap s
  let (nonce, s) := freeBytes 16 s
  let id : BitVec 16 := BitVec.ofNat 16 ((1 + s.freeVal % 8191) * 8 + k.val)
  let s := s.bump
  let x : Session := {
    phase := .offered, port := d.port, id := id, agreed := agreed, host := d.payload.drop 8, nonce := nonce, since := s.clock
    seq := BitVec.ofNat 32 s.freeVal }
  let s := s.bump.updSession k fun _ => x
  let reply := beBytes 2 id.toNat ++ beBytes 1 k.val ++ beBytes 1 (lifeNum s.fuses.life) ++ beBytes 8 agreed.toNat ++ nonce ++
    beBytes 8 s.fuses.devid.toNat
  sendMsg k 0x02 true reply s

/-- A HELLO is judged (R152, R167, R169). -/
def helloRx (d : Datagram) (s : State) : State :=
  if d.payload.length ≠ 24 || moreParts d || decide (d.frag ≠ 0) then s
  else if fromBe (d.payload.take 8) % 2 = 0 then refuseHello d.port 0xD003 s
  else match (List.finRange 8).find? fun k => s.sec.sessions[k].phase = .closed with
    | some k => openSession k d s
    | none => refuseHello d.port 0xD004 s

/-- OFFERED_TIMEOUT: 2 s without a valid datagram (Table 6.3). -/
def execOfferedTimeout (k : Fin 8) (s : State) : Outcome State Fault Refusal :=
  let x := s.sec.sessions[k]
  .next (if x.phase = .offered && decide (x.since + 2000000000 ≤ s.clock) then closeSession k 0 s else s)

/-- SESSION_TIMEOUT: SEC_SESSION_TIMEOUT ms, at least 1,000, without a valid datagram (R148). -/
def execSessionTimeout (k : Fin 8) (s : State) : Outcome State Fault Refusal :=
  let x := s.sec.sessions[k]
  let ms := max 1000 (s.field 0x6009 0 16)
  .next (if x.phase = .opened && decide (x.since + ms * 1000000 ≤ s.clock) then closeSession k 0 s else s)

/-! ### Messages to the programs (R146, R153) -/

/-- A message needs nothing outside the agreed set of its session; else it is answered NOT_NEGOTIATED (R153). -/
def ifAgreed (k : Fin 8) (type : Nat) (payload : Bytes) (body : State → State) (s : State) : State :=
  let needs : DWord := BitVec.ofNat 64 (Config.messageNeeds type (payload.map (·.toNat)))
  if needs &&& ~~~s.sec.sessions[k].agreed = 0 then body s else sessionFault k 0xD003 type s

/-- An ORDER reaches the authority unit with its SOURCE overwritten (Tables 4.5 and 6.2). -/
def orderRx (k : Fin 8) (came : Nat) (payload : Bytes) (s : State) : State :=
  let (o, fits) := payloadOrder (8 + k.val) s.sec.sessions[k].id.toNat came payload s
  admitOrder o fits s

/-- A message is handed to its slot's program as words (R146). -/
def programRx (type came : Nat) (k : Fin 8) (payload : Bytes) (s : State) : State :=
  toProgram type came k payload.length (beWords ((payload.length + 3) / 4) payload) s

/-- SLEEP puts the slots of the named stream to sleep, and is delivered to the program (R146, R282). One whose payload is not one byte
does neither (DESIGN CHOICE: log entry 147). -/
def sleepRx (k : Fin 8) (came : Nat) (payload : Bytes) (s : State) : State :=
  match payload with
  | [n] =>
    let hit (j : Fin 2) (s : State) : State := onlyIf (panelOn j s && !s.blockOut 13 && decide (slotSrc j s = n.toNat) && decide (n.toNat < 2)) (sleepSlot j) s
    programRx 0x14 came k payload (hit 1 (hit 0 s))
  | _ => s

/-! ### Images (R154–R156, R163, R164) -/

/-- IMAGE_STATUS: a status and the bytes received. -/
def imageStatus (k : Fin 8) (status received : Nat) (s : State) : State := sendMsg k 0x23 true (beBytes 2 status ++ beBytes 4 received) s

/-- Some DRAM channel serves, so an image can be staged. -/
def dramServes (s : State) : Bool := chanServes 0 s || chanServes 1 s

/-- IMAGE_BEGIN: one transfer at a time; an image too long or that cannot be staged is rejected (R156, Limits), and so is a payload of another
length or target (DESIGN CHOICE: log entry 148). A new staging discards the image that was staged, of whichever session (DESIGN CHOICE: log
entry 149); one that is refused, or is of target 0, leaves it (DESIGN CHOICE: log entry 182). Where in DRAM the image is staged is a free
value. -/
def imageBeginRx (k : Fin 8) (payload : Bytes) (s : State) : State :=
  let length := fromBe (payload.take 4)
  let target := fromBe (payload.drop 4)
  if s.sec.transfer.isSome || s.sec.writing.isSome then sessionFault k 0xD008 0x20 s
  else if payload.length ≠ 5 || decide (1 < target) || decide (64 + 2097152 + 64 < length) || (decide (target = 1) && !dramServes s) then
    sessionFault k 0xD007 0x20 s
  else
    let s := s.updSec fun x => { x with
      transfer := some ⟨k, target, length, []⟩
      staged := if target = 1 then none else x.staged }
    if target = 1 then (s.updSec fun x => { x with stageAt := s.freeVal % max 1 (mapTop s - length) }).bump else s

/-- The transfer of a session. -/
def ownTransfer (k : Fin 8) (s : State) : Option Transfer := s.sec.transfer.filter fun t => decide (t.slot = k)

/-- The transfer ends without an image. -/
def dropTransfer (s : State) : State := s.updSec fun x => { x with transfer := none }

/-- IMAGE_DATA: bytes at their offset, of a staged image written to DRAM through port P9 (R156). Bytes beyond the stated length, or none, end
the transfer (DESIGN CHOICE: log entry 148). -/
def imageDataRx (k : Fin 8) (payload : Bytes) (s : State) : State :=
  match ownTransfer k s with
  | some t =>
    let off := fromBe (payload.take 4)
    let data := payload.drop 4
    if data.isEmpty || decide (1396 < data.length) || decide (t.length < off + data.length) then sessionFault k 0xD007 0x21 (dropTransfer s)
    else
      let s := s.updSec fun x => { x with transfer := some { t with chunks := (off, data) :: t.chunks } }
      if t.target = 1 then enginePieces 9 (writePieces .engine (s.sec.stageAt + off) data) s else s
  | none => s

/-- The bytes received so far. -/
def received (t : Transfer) : Nat := ((List.range t.length).filter fun i => (chunkByte t.chunks i).isSome).length

/-- A whole image is refused over KNP: its code is sent as ERROR and in IMAGE_STATUS, and the image discarded. -/
def refuseImage (k : Fin 8) (code got : Nat) (s : State) : State := imageStatus k code got (sessionFault k code 0x22 s)

/-- A whole and well-formed image is used by its target (R156): staged; or written to the boot slots, the secondary first, and in Boot taken
as the boot image too. -/
def useImage (k : Fin 8) (t : Transfer) (img : Bytes) (s : State) : State :=
  let agreed := s.sec.sessions[k].agreed
  if t.target = 1 then imageStatus k 0 t.length (s.updSec fun x => { x with staged := some ⟨k, img, agreed, none⟩ })
  else
    let s := imageStatus k 0 t.length (s.updSec fun x => { x with writing := some (k, img, false) })
    if s.modes.mode = .boot then (judgeBoot img 0 (some agreed) true s).2 else s

/-- IMAGE_END: the image must be complete, keep the rules of Table 3.7 and its signature, and need no feature outside the set of its
session (R153, R156). A boot image that breaks a rule is rejected as R62 states too. -/
def imageEndRx (k : Fin 8) (s : State) : State :=
  match ownTransfer k s with
  | some t =>
    let s := dropTransfer s
    let got := received t
    let img := chunkBytes t.chunks t.length
    if got < t.length then refuseImage k 0xD007 got s
    else if rejectCode img s ≠ 0 then
      let s := if s.modes.mode = .boot && t.target = 0 then (judgeBoot img 0 none true s).2 else s
      refuseImage k 0xD007 got s
    else if imgFeatures img &&& ~~~s.sec.sessions[k].agreed ≠ 0 then refuseImage k 0xD003 got s
    else useImage k t img s
  | none => s

/-- BOOT_SLOT_WRITE_DONE: the secondary slot is written, then the primary; a write that fails, or whose clock is lost, leaves its slot
spoilt and is reported (R156, Table 2.10). -/
def execBootSlotWriteDone (ok : Bool) (s : State) : Outcome State Fault Refusal :=
  .next (match s.sec.writing with
    | some (k, img, primary) =>
      if ok && !s.clockLost.getLsbD 23 then
        s.updSec fun x => { x with
          flash := modAt x.flash (if primary then (0 : Fin 2) else 1) fun _ => some img
          writing := if primary then none else some (k, img, true) }
      else
        let s := forgetClock 23 (spoilWrite s)
        let status := 1 + s.freeVal % 65535
        if s.sec.sessions[k].phase = .opened then imageStatus k status img.length s.bump else s
    | none => s)

/-- The cores 0 to 7, each with what a function of its block makes of the state. -/
def eachCore (f : Fin 25 → State → State) (s : State) : State := forAll (fun c : CoreId => f (c.castLE (by decide))) (List.finRange 8) s

/-- Update begins: the cores go out and stay out until the images are replaced, LED fades stop, and Update is entered (Table 2.5, Table 3.1,
R329). -/
def beginUpdate (s : State) : State :=
  enterMode .update (eachCore (fun b s => setReadmit b false (takeOut b s)) (haltFades s))

/-- The updated blocks are due to be readmitted (Table 3.2), unless their credits were wrong. -/
def updatedBack (s : State) : State :=
  eachCore (fun b s => onlyIf (decide (s.blocks[b] = .out)) (setReadmit b true) s) s

/-- UPDATE_COMMIT: from Hold or Quiet the staged image is committed; in another mode the commit is refused and the image kept for
60 s (R156, R164), counted from the first commit that was refused (DESIGN CHOICE: log entry 181). A commit on another session than the one
that staged the image finds none (DESIGN CHOICE: log entry 150). The floor is raised where the payload, as a big-endian number, is 1, and the
image is committed whatever the payload (DESIGN CHOICE: log entry 180). -/
def updateCommitRx (k : Fin 8) (payload : Bytes) (s : State) : State :=
  match s.sec.staged.filter fun t => decide (t.slot = k) with
  | some t =>
    if s.modes.mode = .hold || s.modes.mode = .quiet then
      let raise := if fromBe payload = 1 then some (imgSequence t.image) else none
      beginUpdate (s.updSec fun x => { x with staged := none, update := some (t.image, t.set), raiseTo := raise })
    else
      let s := sendError k 0xE002 0x24 (modeRefused 11 s)
      s.updSec fun x => { x with staged := some { t with until_ := some (t.until_.getD (s.clock + 60000000000)) } }
  | none => s

/-- UPDATE_IMAGES_REPLACED: the running images are the committed one, and the device passes to Admission (R156). Where no DRAM channel that
could hold the staged image serves any more, the update is abandoned and the old images stay (Table 3.2; DESIGN CHOICE: log entry 27). -/
def execUpdateImagesReplaced (s : State) : Outcome State Fault Refusal :=
  .next (match s.modes.mode, s.sec.update with
    | .update, some (img, set) =>
      let s := updatedBack (s.updSec fun x => { x with update := none })
      enterMode .admission (if dramServes s then takeImage img (some set) s
        else (s.updSec fun x => { x with raiseTo := none }).updModes Modes.anew)
    | _, _ => s)

/-- STAGED_IMAGE_EXPIRY: 60 s after a refused commit the staged image is discarded (R164). -/
def execStagedImageExpiry (s : State) : Outcome State Fault Refusal :=
  let beyond (t : Staged) : Bool := match t.until_ with | some e => decide (e ≤ s.clock) | none => false
  .next (s.updSec fun x => { x with staged := x.staged.filter fun t => !beyond t })

/-! ### Reopening and sealing (R157–R166) -/

/-- What remains of the lockout, in s, rounded up. -/
def lockoutLeft (s : State) : Nat := (s.sec.lockEnd - s.clock + 999999999) / 1000000000

/-- REOPEN_RESULT: a status and the lockout that remains. -/
def reopenResult (k : Fin 8) (status : Nat) (s : State) : State :=
  sendMsg k 0x34 true (beBytes 2 status ++ beBytes 2 (lockoutLeft s)) s

/-- The lockout after k successive failures, in s (R161, Table 6.5). -/
def lockoutSeconds (k : Nat) : Nat := min (2 ^ (k - 1)) 3600

/-- A reopening fault: its DATA is the failure count (Table 23.7). -/
def reopenFault (k : Fin 8) (code type : Nat) (s : State) : State :=
  reopenResult k code (sendError k code type (record code k.val s.sec.fails s))

/-- A reopening attempt is judged against the lockout as it stands (R161, R166). -/
def judgeReopen (k : Fin 8) (type : Nat) (right : Bool) (s : State) : State :=
  if s.clock < s.sec.lockEnd then reopenFault k 0xD00A type s
  else if right then
    reopenResult k 0 (s.updSec fun x => { x with fails := 0, lockEnd := 0, reopened := decide (s.fuses.life = .sealed) })
  else
    let n := satInc 16 s.sec.fails
    reopenFault k 0xD009 type (s.updSec fun x => { x with fails := n, lockEnd := s.clock + lockoutSeconds n * 1000000000 })

/-- REOPEN_PASSWORD (R159). A payload that is not 16 bytes is a wrong password (DESIGN CHOICE: log entry 151). -/
def passwordRx (k : Fin 8) (payload : Bytes) (s : State) : State :=
  judgeReopen k 0x30 (decide (payload.length = 16) && decide (Config.passwordHash payload = s.fuses.passHash)) s

/-- CHALLENGE_REQ: a fresh nonce and the DEVID (R160). -/
def challengeRx (k : Fin 8) (s : State) : State :=
  let (nonce, s) := freeBytes 32 s
  sendMsg k 0x32 true (nonce ++ beBytes 8 s.fuses.devid.toNat) (s.updSec fun x => { x with nonce := some (nonce, s.clock) })

/-- The response matches an unexpired nonce (R160). -/
def responseRight (payload : Bytes) (s : State) : Bool :=
  match s.sec.nonce with
  | some (nonce, t) => decide (s.clock < t + 30000000000) && decide (payload = hmac s.fuses.secret (nonce ++ beBytes 8 s.fuses.devid.toNat))
  | none => false

/-- REOPEN_RESPONSE: a nonce is valid for one response (R160), one that a lockout refuses too (DESIGN CHOICE: log entry 151). -/
def responseRx (k : Fin 8) (payload : Bytes) (s : State) : State :=
  judgeReopen k 0x33 (responseRight payload s) (s.updSec fun x => { x with nonce := none })

/-- CHALLENGE_NONCE_EXPIRY: 30 s after issue. -/
def execChallengeNonceExpiry (s : State) : Outcome State Fault Refusal :=
  .next (s.updSec fun x => { x with nonce := x.nonce.filter fun n => decide (s.clock < n.2 + 30000000000) })

/-- REOPEN_LOCKOUT_EXPIRY: the lockout has ended. -/
def execReopenLockoutExpiry (s : State) : Outcome State Fault Refusal :=
  .next (s.updSec fun x => if x.lockEnd ≤ s.clock then { x with lockEnd := 0 } else x)

/-- SEAL: an Open part becomes Sealed, the reopening latch clears, JTAG takes its Sealed level, the sessions with vendor test bits close,
and the device leaves Maintenance (R157, R158). A Blank part has no such transition. -/
def sealRx (s : State) : State :=
  if s.fuses.life = .blank then s
  else
    let s := { s with fuses := { s.fuses with life := .sealed } }
    let s := s.updSec fun x => { x with reopened := false, jtagIr := if x.jtagIr < 2 then x.jtagIr else 0 }
    let vendor (k : Fin 8) (s : State) : State :=
      let x := s.sec.sessions[k]
      if x.phase ≠ .closed && decide (2 ^ 48 ≤ x.agreed.toNat) then closeSession k 0x35 s else s
    let s := forAll vendor (List.finRange 8) s
    if s.modes.mode = .maintenance then enterMode .hold s else s

/-! ### A whole message, and its fragments (R144, R145) -/

/-- A whole message of a session, that came in so many datagrams, has its effect. -/
def messageRx (k : Fin 8) (type came : Nat) (payload : Bytes) (s : State) : State :=
  match type with
  | 0x03 => closeSession k 0x03 s
  | 0x10 => ifAgreed k 0x10 payload (orderRx k came payload) s
  | 0x11 => ifAgreed k 0x11 payload (programRx 0x11 came k payload) s
  | 0x14 => ifAgreed k 0x14 payload (sleepRx k came payload) s
  | 0x20 => imageBeginRx k payload s
  | 0x21 => imageDataRx k payload s
  | 0x22 => imageEndRx k s
  | 0x24 => updateCommitRx k payload s
  | 0x30 => passwordRx k payload s
  | 0x31 => challengeRx k s
  | 0x33 => responseRx k payload s
  | 0x35 => sealRx s
  | _ => s

/-- A message in reassembly is discarded: it is answered once, recorded and counted (R145). -/
def discardMessage (k : Fin 8) (msg : Word) (type : Nat) (s : State) : State :=
  let s := s.updSession k fun x => { x with
    parts := x.parts.filter fun r => decide (r.msg ≠ msg)
    gone := (msg, s.clock) :: x.gone.filter fun g => decide (s.clock < g.2 + 2000000000) }
  countDiscard (sessionFault k 0xD00B type s)

/-- A held message is discarded where 1 s has passed since its first fragment. -/
def expireMessage (k : Fin 8) (r : Reassembly) (s : State) : State :=
  if r.since + 1000000000 ≤ s.clock then discardMessage k r.msg r.type.toNat s else s

/-- The bytes a message has gathered. -/
def partBytes (r : Reassembly) : Nat := (r.parts.map fun p => p.2.length).sum

/-- The payload of a message whose fragments are all present. -/
def wholeMessage (r : Reassembly) : Option Bytes :=
  match r.last with
  | some n => ((List.range (n + 1)).mapM fun i => r.parts.lookup i).map List.flatten
  | none => none

/-- A message in reassembly takes the place it had, or the last. -/
def holdPart (r : Reassembly) (l : List Reassembly) : List Reassembly :=
  if l.any fun q => decide (q.msg = r.msg) then l.map fun q => if q.msg = r.msg then r else q else l ++ [r]

/-- The message held longest, by its first fragment (R145). -/
def oldestPart (l : List Reassembly) : Option Reassembly := l.find? fun r => l.all fun q => decide (r.since ≤ q.since)

/-- A fragment joins its message (R145). -/
def joinMessage (k : Fin 8) (d : Datagram) (r : Reassembly) (s : State) : State :=
  let r := { r with
    parts := (d.frag.toNat, d.payload) :: r.parts
    last := if moreParts d then r.last else some d.frag.toNat }
  if 89600 < partBytes r then discardMessage k r.msg r.type.toNat s
  else match wholeMessage r with
    | some payload => messageRx k r.type.toNat r.parts.length payload (s.updSession k fun x => { x with parts := x.parts.filter fun q => decide (q.msg ≠ r.msg) })
    | none => s.updSession k fun x => { x with parts := holdPart r x.parts }

/-- A fragment of a session: dropped where its message has just been discarded; a third message discards the older one held. -/
def fragmentRx (k : Fin 8) (d : Datagram) (s : State) : State :=
  let s := forAll (expireMessage k) s.sec.sessions[k].parts s
  let msg := d.seq - BitVec.ofNat 32 d.frag.toNat
  let x := s.sec.sessions[k]
  if x.gone.any fun g => decide (g.1 = msg) && decide (s.clock < g.2 + 2000000000) then s
  else if 64 ≤ d.frag.toNat then discardMessage k msg d.type.toNat s
  else match x.parts.find? fun r => decide (r.msg = msg) with
    | some r => joinMessage k d r s
    | none =>
      let s := match oldestPart x.parts with
        | some old => if 2 ≤ x.parts.length then discardMessage k old.msg old.type.toNat s else s
        | none => s
      joinMessage k d ⟨msg, d.type, s.clock, [], none⟩ s

/-- A datagram of a session that has passed its checks. -/
def sessionRx (k : Fin 8) (d : Datagram) (s : State) : State :=
  if moreParts d || decide (d.frag ≠ 0) then fragmentRx k d s else messageRx k d.type.toNat 1 d.payload s

/-- A message whose type asks a block of the fabric for something at once: ORDER and SLEEP. -/
def asksFabric (d : Datagram) : Bool := decide (d.type = 0x10) || decide (d.type = 0x14)

/-- A datagram is received (R144, R150, R151): discarded and counted where it is malformed; a HELLO is judged; another is dropped where
it names no session, raises KNP_AUTH_FAILED without the tag it needs, is discarded and counted as a replay, is discarded and counted as an
ingress drop while the engine holds 64 datagrams of its session (R35, R146), or is accepted. That drop is counted for the internal port
with the reason "queue full" (DESIGN CHOICE: log entry 178), and such a datagram neither refreshes the session nor uses up its SEQ
(DESIGN CHOICE: log entry 179). A datagram whose request of the fabric finds no room
under the device-wide bound is not taken yet: it waits, with its sender (R36). -/
def datagramRx (d : Datagram) (s : State) : State :=
  if !knpReceives d s then s
  else if !wellFormed d then countDiscard s
  else if d.type = 1 then helloRx d s
  else match findSession d.session s with
    | none => s
    | some k =>
      if !tagPasses k d s then sessionFault k 0xD006 d.type.toNat s
      else if !seqFresh s.sec.sessions[k] d.seq then countDiscard s
      else if 64 ≤ heldDatagrams k s then countDrop 2 0 s
      else if asksFabric d && !fabricRoom false s then s
      else sessionRx k d (acceptSeq k d.seq s)

/-- A command named after a message carries a datagram of its type. -/
def typedRx (type : Byte) (d : Datagram) (s : State) : Outcome State Fault Refusal :=
  .next (if d.type = type then datagramRx d s else s)

/-- HELLO (R152). -/
def execHello (d : Datagram) (s : State) : Outcome State Fault Refusal := typedRx 0x01 d s
/-- BYE (R147). -/
def execBye (d : Datagram) (s : State) : Outcome State Fault Refusal := typedRx 0x03 d s
/-- KEEPALIVE (R148). -/
def execKeepalive (d : Datagram) (s : State) : Outcome State Fault Refusal := typedRx 0x04 d s
/-- ORDER (R146). -/
def execOrder (d : Datagram) (s : State) : Outcome State Fault Refusal := typedRx 0x10 d s
/-- QUERY (R146). -/
def execQuery (d : Datagram) (s : State) : Outcome State Fault Refusal := typedRx 0x11 d s
/-- SLEEP (R282). -/
def execSleep (d : Datagram) (s : State) : Outcome State Fault Refusal := typedRx 0x14 d s
/-- IMAGE_BEGIN (R156). -/
def execImageBegin (d : Datagram) (s : State) : Outcome State Fault Refusal := typedRx 0x20 d s
/-- IMAGE_DATA (R156). -/
def execImageData (d : Datagram) (s : State) : Outcome State Fault Refusal := typedRx 0x21 d s
/-- IMAGE_END (R156). -/
def execImageEnd (d : Datagram) (s : State) : Outcome State Fault Refusal := typedRx 0x22 d s
/-- UPDATE_COMMIT (R156). -/
def execUpdateCommit (d : Datagram) (s : State) : Outcome State Fault Refusal := typedRx 0x24 d s
/-- REOPEN_PASSWORD (R159). -/
def execReopenPassword (d : Datagram) (s : State) : Outcome State Fault Refusal := typedRx 0x30 d s
/-- CHALLENGE_REQ (R160). -/
def execChallengeReq (d : Datagram) (s : State) : Outcome State Fault Refusal := typedRx 0x31 d s
/-- REOPEN_RESPONSE (R160). -/
def execReopenResponse (d : Datagram) (s : State) : Outcome State Fault Refusal := typedRx 0x33 d s
/-- SEAL (R158). -/
def execSeal (d : Datagram) (s : State) : Outcome State Fault Refusal := typedRx 0x35 d s

/-- KNP_FRAGMENT: a datagram of any type, accepted or dropped; a fragment joins its message (R145). -/
def execKnpFragment (d : Datagram) (s : State) : Outcome State Fault Refusal := .next (datagramRx d s)

/-- KNP_REASSEMBLY_TIMEOUT: a held message is incomplete 1 s after its first fragment (R145). -/
def execKnpReassemblyTimeout (k : Fin 8) (msg : Word) (s : State) : Outcome State Fault Refusal :=
  .next (match s.sec.sessions[k].parts.find? fun r => decide (r.msg = msg) with
    | some r => expireMessage k r s
    | none => s)

/-! ### What programs send (R146) -/

/-- A message that a core's words spell, and how many words it takes: TYPE, slot, payload and length. -/
def spelled (ws : List Word) : Option (Nat × Nat × Bytes × Nat) :=
  match ws with
  | h :: rest =>
    let len := bits h 0 20
    let n := (len + 3) / 4
    if rest.length < n then none
    else some (bits h 24 8, bits h 20 4, ((rest.take n).map fun w => beBytes 4 w.toNat).flatten.take len, n + 1)
  | [] => none

/-- The engine takes one entry of a sender of queue 249: the message that its words then spell, if any. -/
def takeWord (c : CoreId) (s : State) : Option (Nat × Nat × Bytes) × State :=
  match popFrom 249 c s with
  | some (w, s) =>
    let ws := s.sec.asm[c] ++ [w]
    match spelled ws with
    | some (type, slot, payload, n) => (some (type, slot, payload), s.updSec fun y => { y with asm := modAt y.asm c fun _ => ws.drop n })
    | none => (none, s.updSec fun y => { y with asm := modAt y.asm c fun _ => ws })
  | none => (none, s)

/-- Entries of queue 249 are taken one at a time, each from the sender whose turn it is (R28), until a message is spelled or nothing is
left. -/
def takeWords : Nat → State → Option (Nat × Nat × Bytes) × State
  | 0, s => (none, s)
  | n + 1, s =>
    match nextSender 249 s.sec.answerTurn s with
    | some c =>
      match takeWord c (s.updSec fun y => { y with answerTurn := c + 1 }) with
      | (some m, s) => (some m, s)
      | (none, s) => takeWords n s
    | none => (none, s)

/-- A program's message goes to its session; one that names no open session or is no ANSWER or NOTICE, or is longer than 64 fragments,
is dropped. -/
def programTx (type slot : Nat) (payload : Bytes) (s : State) : State :=
  if h : slot < 8 then
    let k : Fin 8 := ⟨slot, h⟩
    if s.sec.sessions[k].phase = .opened && decide (payload.length ≤ 89600) && (decide (type = 0x12) || decide (type = 0x13)) then
      sendMsg k type (decide (type = 0x12)) payload s
    else s
  else s

/-- The engine takes the next message from queue 249 where it is of the kind that the command names; words of an incomplete message are
taken and held. -/
def takeMessage (mine : Nat → Bool) (s : State) : State :=
  match takeWords (s.queue 249).length s with
  | (some (type, slot, payload), t) => if mine type then programTx type slot payload t else s
  | (none, t) => t

/-- ANSWER: the next message, unless it is a NOTICE (R146). -/
def execAnswer (s : State) : Outcome State Fault Refusal := .next (takeMessage (fun t => decide (t ≠ 0x13)) s)

/-- NOTICE: the next message where it is a NOTICE (R146). -/
def execNotice (s : State) : Outcome State Fault Refusal := .next (takeMessage (fun t => decide (t = 0x13)) s)

/-! ### JTAG (R162, Table 6.7) -/

/-- The boundary scan and the core debug are offered in the present state (Table 6.7). -/
def jtagOpen (s : State) : Bool :=
  match s.fuses.life with
  | .blank => true
  | _ => !sealedNow s && decide (s.modes.mode = .maintenance)

/-- The JTAG port has power: in Dormant and Standby the core die is off (Table 3.1). -/
def jtagOn (s : State) : Bool := match s.modes.mode with | .dormant | .standby => false | _ => true

/-- What JTAG does while its port has power. -/
def viaJtag (f : State → State) (s : State) : State := if jtagOn s then f s else s

/-- A JTAG instruction is selected, with the value shifted out. -/
def jtagSelect (ir dr : Nat) (s : State) : State := s.updSec fun x => { x with jtagIr := ir, jtagDr := dr }

/-- An instruction is selected where it is offered; a refused one selects BYPASS. -/
def jtagOffer (ok : Bool) (ir : Nat) (s : State) : State := jtagSelect (if ok then ir else 0) 0 s

/-- JTAG_IDCODE. -/
def execJtagIdcode (s : State) : Outcome State Fault Refusal := .next (viaJtag (jtagSelect 1 0x116404D3) s)

/-- JTAG_BYPASS, also for a refused instruction. -/
def execJtagBypass (_refused : Bool) (s : State) : Outcome State Fault Refusal := .next (viaJtag (jtagSelect 0 0) s)

/-- The boundary register is shifted out: a free value, since the spec does not give its cells. -/
def boundaryOut (s : State) : State := (s.updSec fun x => { x with jtagDr := s.freeVal }).bump

/-- JTAG_SAMPLE. -/
def execJtagSample (s : State) : Outcome State Fault Refusal := .next (viaJtag (fun s => onlyIf (jtagOpen s) boundaryOut (jtagOffer (jtagOpen s) 2 s)) s)

/-- JTAG_EXTEST: the gate and brake outputs are held off, and their cells only observe (R162). -/
def execJtagExtest (s : State) : Outcome State Fault Refusal :=
  .next (viaJtag (fun s => onlyIf (jtagOpen s) (fun s => boundaryOut (machineryOff s)) (jtagOffer (jtagOpen s) 3 s)) s)

/-- The value that a debug read shifts out. -/
def debugOut (v : Nat) (s : State) : State := s.updSec fun x => { x with jtagDr := v }

/-- A debug operation on a core: its bank accesses are those of the core (R254). -/
def debugOp (c : CoreId) (op : DebugOp) (s : State) : State :=
  match op with
  | .halt => haltCore c s
  | .single => s.updCore c fun k => match k.status with | .halted => { k with status := .running, step := true } | _ => k
  | .readReg r => debugOut ((s.core c).reg r).toNat s
  | .writeReg r v => s.updCore c fun k => k.setReg r v
  | .readPc => debugOut (s.core c).pc.toNat s
  | .writePc v => s.updCore c fun k => { k with pc := codeAddr v, entryWait := false }
  | .readF => debugOut (s.core c).f.toWord.toNat s
  | .writeF v => s.updCore c fun k => { k with f := Flags.ofWord v }
  | .readTime n => debugOut (s.core c).t[n].toNat s
  | .writeTime n v => s.updCore c fun k => { k with t := k.t.set n v }
  | .readBank a =>
    match bankRead c a.toNat 1 s with
    | (.ok bs, s) => debugOut (leNat bs) s
    | (_, s) => debugOut 0 s
  | .writeBank a v => if s.owns c a.toNat then s.storeBytes a.toNat [v] else bankRefused c a.toNat s

/-- JTAG_CORE_DEBUG. -/
def execJtagCoreDebug (c : CoreId) (op : DebugOp) (s : State) : Outcome State Fault Refusal :=
  .next (viaJtag (fun s => onlyIf (jtagOpen s) (debugOp c op) (jtagOffer (jtagOpen s) 4 s)) s)

/-- JTAG_FUSE_PROGRAM: the owner key set is written once, and the part is Open (R149, R157). -/
def execJtagFuseProgram (pub secret : Bytes) (s : State) : Outcome State Fault Refusal :=
  let ok := decide (s.fuses.life = .blank)
  let fits := decide (pub.length = 64) && decide (secret.length = 32)
  .next (viaJtag (fun s => onlyIf (ok && fits) (fun s => { s with fuses := { s.fuses with ownerKey := pub, secret := secret, life := .opened } })
    (jtagOffer ok 5 s)) s)

end Sys2Proof.Machine
end

