-- ==== Sys2Proof/Machine/Access.lean ====
section
/-! DEFINITION. The control space as the cores reach it (R7–R10, R81, R82, R533, R543–R545): what a word reads as, and the one path
of every write, by a core or by a tack; with the rules of the words of cores and banks. -/
namespace Sys2Proof.Machine

open Host (Outcome)

/-! ### Composed words -/

/-- MODE_STATE (Table 3.10). -/
def modeWord (s : State) : Word :=
  let m := s.modes
  BitVec.ofNat 32 (m.changes.toNat * 2 ^ 16 + b2n m.degraded * 2 ^ 8 + m.previous.num * 16 + m.mode.num)

/-- The words of identity and modes that fuses and the arbiter hold (Tables 0.2 and 3.10). -/
def identWord (addr : Nat) (s : State) : Word :=
  match addr with
  | 0x0002 => BitVec.ofNat 32 (b2n s.fuses.polder)
  | 0x0004 => s.fuses.devid.setWidth 32
  | 0x0005 => (s.fuses.devid >>> 32).setWidth 32
  | 0x0010 => modeWord s
  | _ => s.word addr

/-- The words of the fabric that are composed (Table 2.8): the transactions in flight, the blocks admitted, the clocks present. -/
def fabricWord (addr : Nat) (s : State) : Word :=
  match addr with
  | 0x0400 => setBits (s.word addr) 0 11 (min 2047 (inflight s))
  | 0x0404 => maskWord 25 fun i => s.admitted (Fin.ofNat 25 i)
  | 0x0405 => maskWord 25 fun i => !s.clockLost.getLsbD i
  | 0x040A =>
    let q := s.field 0x0409 0 8
    if q < 192 then BitVec.ofNat 32 (Config.innerHandshakes q s.probeAt.toNat s.deviceTime.toNat) else s.word addr
  | 0x040B =>
    let q := s.field 0x0409 0 8
    let passed := (s.deviceTime - s.probeAt).toNat / 8
    if q < 192 then BitVec.ofNat 32 (min passed (Config.innerWait q s.probeAt.toNat s.deviceTime.toNat)) else s.word addr
  | _ => s.word addr

/-- CORE_STATE.STATE (Table 4.8). -/
def stateNum (k : Core) : Nat :=
  match k.status with
  | .halted => 0
  | .doubleTrap => 4
  | .waiting _ _ => 2
  | .running | .filling _ _ => if k.f.t then 3 else 1

/-- The words of a core (Table 4.8). -/
def coreWord (c : CoreId) (off : Nat) (s : State) : Word :=
  let k := s.core c
  match off with
  | 0x0 => BitVec.ofNat 32 (k.csRun.length * 2 ^ 16 + k.farLoads * 2 ^ 8 + stateNum k)
  | 0x4 => k.trapCause.setWidth 32
  | 0x5 => k.trapPc
  | 0x6 => k.trapF
  | 0x7 => k.trapLo
  | 0x8 => k.trapHi
  | 0xC => eventWord c s
  | 0xD => BitVec.ofNat 32 (k.dropped * 2 ^ 16 + k.lateRun * 2 ^ 7 + s.tackCount c)
  | _ => s.word (coreAddr c off)

/-- BANK_OWNERn (Table 10.3). -/
def ownerWord (b : BankId) (s : State) : Word := BitVec.ofNat 32 (b2n s.banks[b].powered * 2 ^ 8 + s.banks[b].owner)

/-- AXIS_STATUS.STATE (Table 15.6): aligning, braking, shorted, starting, fault, closed loop or off. -/
def axisState (a : AxisId) (s : State) : Nat :=
  let x := s.axes[a]
  if x.alignRow ≠ 0 then 1
  else if x.braking then 4
  else if s.flag (axisAddr a 1) 17 then 5
  else match x.start with
    | .align | .ramp | .handover | .retry => 2
    | .fault => 6
    | .idle | .run | .blind => if s.flag (axisAddr a 0) 31 && gatesEnabled a s then 3 else 0

/-- The security words that fuses, sessions and the reopening latch hold (Table 6.9). -/
def secWord (addr : Nat) (s : State) : Word :=
  let half (m : DWord) (hi : Bool) : Word := if hi then (m >>> 32).setWidth 32 else m.setWidth 32
  if 0x6010 ≤ addr && addr < 0x6020 then
    half s.sec.sessions[(Fin.ofNat 8 ((addr - 0x6010) / 2) : Fin 8)].agreed (addr % 2 = 1)
  else match addr with
    | 0x6000 => BitVec.ofNat 32 (4 * b2n s.sec.reopened + lifeNum s.fuses.life)
    | 0x6001 => maskWord 8 fun i => s.sec.sessions[(Fin.ofNat 8 i : Fin 8)].phase = .opened
    | 0x6002 => half s.agreed false
    | 0x6003 => half s.agreed true
    | 0x6004 => half (deviceMap s) false
    | 0x6005 => half (deviceMap s) true
    | 0x6006 => BitVec.ofNat 32 (min 65535 ((s.sec.lockEnd - s.clock + 999999999) / 1000000000) * 2 ^ 16 + s.sec.fails % 2 ^ 16)
    | 0x6007 => BitVec.ofNat 32 s.fuses.floor
    | _ => s.word addr

/-- What the word at a control address reads as. An address without a word reads 0 (R8). -/
def readWord (addr : Nat) (s : State) : Word :=
  if !wordDefined addr then 0
  else match addr / 0x400 with
    | 0 => identWord addr s
    | 1 => fabricWord addr s
    | 2 => if addr < 0xA00 then coreWord (Fin.ofNat 8 ((addr - 0x800) / 0x40)) (addr % 0x40) s else s.word addr
    | 4 => if addr < 0x1020 then ownerWord (Fin.ofNat 32 (addr - 0x1000)) s else s.word addr
    | 8 => match addr with
      | 0x2000 => s.now.setWidth 32
      | 0x2001 => s.time.high
      | 0x2008 => BitVec.ofNat 32 s.tacks.length
      | _ => s.word addr
    | 12 | 13 =>
      if addr % 0x400 = 1 then BitVec.ofNat 32 (ledPeriod (if addr < 0x3400 then 0 else 1) s) else s.word addr
    | 14 => if addr < 0x3900 && addr % 0x40 = 1 then setBits (s.word addr) 28 4 (axisState (Fin.ofNat 4 ((addr - 0x3800) / 0x40)) s)
      else s.word addr
    | 16 => if addr < 0x4180 && 0xE ≤ addr % 0x10 && !s.feature 20 then 0 else s.word addr      -- R356
    | 20 =>
      let a : AxisId := Fin.ofNat 4 ((addr - 0x5000) / 0x20)
      if addr < 0x5080 && addr % 0x20 = 0xE then setBits (s.word addr) 24 8 (entryFlags a s)
      else if addr < 0x5080 && addr % 0x20 = 0xF then wordOf (posUm a s)
      else s.word addr
    | 22 => windowWord addr s
    | 24 => secWord addr s
    | 25 => faultWord addr s
    | 27 => if addr = 0x6C10 then ledgerActive s else ledgerWord (addr - 0x6C00) s
    | _ => s.word addr

/-- A read latches the high half of a 64-bit value (R192, R467). -/
def readLatch (addr : Nat) (s : State) : State :=
  if addr = 0x2000 then { s with time := { s.time with high := (s.now >>> 32).setWidth 32 } } else windowLatch addr s

/-! ### Requests to a block -/

/-- The edge die of an LED or gate block; none for another. -/
def blockDie (b : Nat) : Option (Fin 2) := match b with | 14 | 18 => some 0 | 15 | 19 => some 1 | _ => none

/-- A request to a block is aborted: its input sluice is closed, or its edge die is lost (R18, R37, R547). The units of a lost die are its
LED and its gate block; the words of its axes in the blocks of the core die are served (DESIGN CHOICE: log entry 146). -/
def blockAborts (b : Fin 25) (s : State) : Bool :=
  !s.sluiceOpen b || match blockDie b.val with | some d => s.dies[d].lost | none => false

/-- The block behind whose sluice a control word lies. -/
def addrBlock (addr : Nat) : Fin 25 := Fin.ofNat 25 (blockOfAddr addr)

/-- A read of a control word by a core: RESET_ABORT where its block does not take requests, and the value 0 (R129). -/
def ctlRead (c : CoreId) (addr : Nat) (s : State) : Status × Word × State :=
  let b := addrBlock addr
  if blockAborts b s then (.resetAbort, 0, abortReply c.val b.val s)
  else (.ok, readWord addr s, readLatch addr s)

/-- The three kinds of write (R81). -/
inductive WriteKind where | put | setBits | clearBits
  deriving DecidableEq, Repr

/-- Who writes: a core, or a tack for the core that placed it, with the grants that count (R82, R85). -/
structure Writer where
  core  : CoreId
  grant : Word
  tack  : Bool
  deriving DecidableEq, Repr

/-- The words accepted in some modes only: in another mode a write finds them read-only (R227, R309, R328, chapter 11). Bits of
DRAM_GEOM: the spare selection alone. -/
def modeAllows (addr : Nat) (s : State) : Bool :=
  let m := s.modes.mode
  match addr with
  | 0x1400 | 0x1410 | 0x1810 | 0x2800 | 0x2801 | 0x2802 | 0x2803 | 0x2840 | 0x2841 | 0x2842 | 0x2843 | 0x2850 | 0x2860 | 0x3000 | 0x3400 =>
    decide (m = .admission)
  | _ =>
    if 0x2810 ≤ addr && addr < 0x2830 then decide (m = .admission) || decide (m = .hold) || decide (m = .quiet) else true

/-- A field's access in the present state: RWL is read-only while Sealed and not reopened, and so is a field that the present mode does
not accept (Table 0.4, R227). -/
def accessNow (addr : Nat) (s : State) (f : Field) : Access :=
  match f.acc with
  | .rwl => if sealedNow s || !modeAllows addr s then .ro else .rw
  | .rw => if modeAllows addr s then .rw else .ro
  | a => a

/-- The mask of the fields of a word that have one of some access codes in the present state. -/
def maskNow (p : Access → Bool) (addr : Nat) (s : State) : Word :=
  BitVec.ofNat 32 (maskOf p ((fieldsAt addr).map fun f => { f with acc := accessNow addr s f }))

/-- The value that a write brings to each field (R7, R544): stored fields take the operand, set bits or clear bits; W1C and WO fields act
on the operand, and not at all under CCLR; every other bit keeps its value. -/
def operand (k : WriteKind) (addr : Nat) (val : Word) (s : State) : Word :=
  let cur := s.word addr
  let stored := maskNow (· == .rw) addr s
  let acting := maskNow (fun a => a == .w1c || a == .wo) addr s
  let v := match k with | .put => val | .setBits => cur ||| val | .clearBits => cur &&& ~~~val
  let w := match k with | .clearBits => 0 | _ => val
  (v &&& stored) ||| (w &&& acting) ||| (cur &&& ~~~(stored ||| acting))

/-- The word after a write of a value (Table 0.4): stored fields take it, a 1 clears a W1C bit, but not one that hardware has set in the
same update (R9); WO fields are not stored. -/
def storedWord (addr : Nat) (v : Word) (s : State) : Word :=
  let cur := s.word addr
  let stored := maskNow (· == .rw) addr s
  let w1c := maskNow (· == .w1c) addr s &&& ~~~s.justSets addr
  (v &&& stored) ||| (cur &&& ~~~stored &&& ~~~(v &&& w1c))

/-- CCLR of a word whose writable fields are all WO has no effect (R544). -/
def clearsNothing (k : WriteKind) (addr : Nat) (s : State) : Bool :=
  decide (k = .clearBits) && decide (maskNow (fun a => a == .rw || a == .w1c) addr s = 0)

/-- A write refused for want of a grant or under R543: CONTROL_ACCESS_FAULT (R82, R85, R549). -/
def accessFault (w : Writer) (addr : Nat) (s : State) : State :=
  record 0x1016 w.core.val (b2n w.tack * 2 ^ 16 + addr) s

/-- The writer holds the grant of the row an address lies in; an address in no row has none to lack (R82, R533). -/
def granted (w : Writer) (addr : Nat) : Bool := match grantRow addr with | some r => bit w.grant r | none => true

/-- The fields of a word whose write was aborted hold a free value, those that are stored and those that a 1 clears: whether the write acted
is undefined (R31). -/
def undefineWord (addr : Nat) (s : State) : State :=
  let m := maskNow (fun a => a == .rw || a == .w1c) addr s
  if m = 0 then s
  else (s.setWord addr ((s.word addr &&& ~~~m) ||| (BitVec.ofNat 32 s.freeVal &&& m))).bump

/-- The path of every write (R81, R82, R543–R545). A core's own write is judged for its grant before it is sent (R128, R136), a tack's at the
block (R85, R550): behind the sluice. Then the word is judged as a whole, and by the block's own rule. -/
def ctlWriteBy (rule : Word → State → Rule) (w : Writer) (k : WriteKind) (addr : Nat) (val : Word) (s : State) : Status × State :=
  let b := addrBlock addr
  if !w.tack && !granted w addr then (.refused, accessFault w addr s)
  else if blockAborts b s then (.resetAbort, abortReply w.core.val b.val (undefineWord addr s))
  else if !granted w addr then (.refused, accessFault w addr s)
  else if maskNow (· != .ro) addr s = 0 then (.refused, accessFault w addr s)
  else if clearsNothing k addr s then (.ok, s)
  else match rule (operand k addr val s) s with
    | .refuse raises => (.refused, raises s)
    | .accept v after => (.ok, after (s.setWord addr (storedWord addr v s)))

/-! ### The rules of the words of cores (R100, R109) -/

/-- An end of a queue belongs to a unit of the device, or the queue is internal or reserved (R100, Table 2.4). -/
def unitEnd (q : Nat) (send : Bool) : Bool :=
  if q < 192 then true
  else if q < 224 then false
  else if q < 230 then send
  else if q < 232 then true
  else if q < 240 then send
  else if q = 240 then !send
  else if q < 249 then send
  else if q = 249 then !send
  else true

/-- Another port holds an end; of the send end of a gathered queue, only another port of the same core counts (R28, R100). -/
def endHeld (c : CoreId) (port : Fin 8) (q : Nat) (send : Bool) (s : State) : Bool :=
  (List.finRange 8).any fun d => (List.finRange 8).any fun p =>
    !(decide (d = c) && decide (p = port)) && boundQueue d p send s == some q && !(send && gathered q && decide (d ≠ c))

/-- A CORE_QBIND write binds an end or unbinds the port (R100). -/
def qbindRule (c : CoreId) (port : Fin 8) (val : Word) (s : State) : Rule :=
  let q := bits val 0 8
  let send := bit val 8
  .when (!bit val 31 || (!unitEnd q send && !endHeld c port q send s)) 0x1015 c.val (b2n send * 2 ^ 8 + q) (.plain val)

/-- A CORE_CONTROL write: START starts a halted core, unless it is out; HALT halts it (R99, R109). START to a core that runs, waits or is in
a trap has no effect (DESIGN CHOICE: log entry 176). -/
def controlCore (c : CoreId) (val : Word) (s : State) : State :=
  let b : Fin 25 := c.castLE (by decide)
  let idle := match (s.core c).status with | .halted | .doubleTrap => true | _ => false
  let s := onlyIf (bit val 0 && idle && !s.blockOut b) (startCore c) s
  onlyIf (bit val 1) (haltCore c) s

/-- The watchdog's count restarts (R98). -/
def kickCore (c : CoreId) (s : State) : State :=
  s.updCore c fun k => { k with kickAt := s.deviceTime.toNat, wdogFired := false }

/-- The rule of a word of the cores block. -/
def coreRule (addr : Nat) (val : Word) (s : State) : Rule :=
  if 0xA00 ≤ addr then .plain val
  else
    let c : CoreId := Fin.ofNat 8 ((addr - 0x800) / 0x40)
    match addr % 0x40 with
    | 0x01 => .accept val (controlCore c val)
    | 0x02 => .plain (codeAddr val)
    | 0x0A => .accept val (kickCore c)
    | o => if 0x10 ≤ o && o < 0x18 then qbindRule c (Fin.ofNat 8 (o - 0x10)) val s else .plain val

/-! ### The rules of the words of banks (R257, R260) -/

/-- A bank changed. -/
def State.updBank (s : State) (b : BankId) (f : Bank → Bank) : State := { s with banks := modAt s.banks b f }

/-- A core waits in BTAKE for a bank's fill (R260). -/
def waitsFor (b : BankId) (k : Core) : Bool := match k.status with | .filling b' _ => decide (b' = b) | _ => false

/-- A bank may be powered down: free, and no BTAKE waits for it. -/
def mayPowerDown (b : BankId) (s : State) : Bool := decide (s.banks[b].owner = 31) && !s.cores.toList.any (waitsFor b)

/-- A bit of BANK_POWER acts: a free bank loses its power and its contents, or begins to power up (R260). -/
def powerBank (was : Word) (val : Word) (b : BankId) (s : State) : State :=
  if bit was b.val && !bit val b.val then
    if mayPowerDown b s then
      { (s.updBank b fun k => { k with powered := false, filling := false }) with
        cells := sclear s.cells (b.val * 0x20000) (b.val * 0x20000 + 0x20000) }
    else record 0x2012 b.val 0 (s.setFlag 0x1020 b.val true)
  else if !bit was b.val && bit val b.val then s.updBank b fun k => { k with filling := true }
  else s

/-- A bank goes back to free from an engine (R257). -/
def reclaimBank (b : BankId) (s : State) : State :=
  let trace := decide (s.banks[b].owner = 11)
  (onlyIf trace (traceReclaim b) s).updBank b fun k => { k with owner := 31 }

/-- The rule of a word of the banks block. -/
def bankRule (addr : Nat) (val : Word) (s : State) : Rule :=
  match addr with
  | 0x1020 => .accept val (forAll (powerBank (s.word 0x1020) val) (List.finRange 32))
  | 0x1021 =>
    let b : BankId := Fin.ofNat 32 (bits val 0 5)
    if bit val 8 && decide (s.banks[b].owner < 8) then .refuse id
    else .accept val (onlyIf (bit val 8) (reclaimBank b))
  | _ => .plain val

/-! ### One path for every word -/

/-- A write of a stream's words may leave a slot that its frame no longer holds (R267). -/
def streamRule (addr : Nat) (r : Rule) : Rule :=
  match r with
  | .accept v after => if 0x1C20 ≤ addr && addr < 0x1C2C then .accept v (dropMisfits ∘ after) else r
  | .refuse raises => .refuse raises

/-- The rule of the block that holds a word. -/
def blockRule (w : Writer) (addr : Nat) (val : Word) (s : State) : Rule :=
  match addr / 0x400 with
  | 0 => identRule addr val s
  | 1 => fabricRule w.core addr val s
  | 2 => coreRule addr val s
  | 4 => bankRule addr val s
  | 5 | 6 => dramRule addr val s
  | 7 => streamRule addr (netRule addr val s)
  | 8 => timeRule addr val s
  | 9 => holRule addr val s
  | 10 => panelWordRule addr val s
  | 12 | 13 => ledRule addr val s
  | 14 => axisRule addr val s
  | 16 => loopRule addr val s
  | 18 => gateRule 0 (addr - 0x4800) addr val s
  | 19 => gateRule 1 (addr - 0x4C00) addr val s
  | 20 => machRule addr val s
  | 23 => twRule addr val s
  | 25 => faultRule addr val
  | 26 => traceRule addr val s
  | _ => .plain val

/-- A write of a control word. -/
def ctlWrite (w : Writer) (k : WriteKind) (addr : Nat) (val : Word) (s : State) : Status × State :=
  ctlWriteBy (blockRule w addr) w k addr val s

/-- A core as the writer: its grants as they stand. -/
def coreWriter (c : CoreId) (s : State) : Writer := ⟨c, s.word (coreAddr c 0xB), false⟩

/-- A reply that failed traps the core that made the access where it runs: CS_REFUSED or CS_ABORT with the control address (R129,
R133). -/
def trapReply (c : CoreId) (addr : Nat) (st : Status) (s : State) : State :=
  if (s.core c).status ≠ .running then s
  else match st with
    | .refused => syncTrap c 5 (s.core c).pc (BitVec.ofNat 32 addr) 0 s
    | .resetAbort => syncTrap c 6 (s.core c).pc (BitVec.ofNat 32 addr) 0 s
    | _ => s

/-- A write by a core that the table names by what it does: the path of every write, without the instruction that made it. At the
device-wide bound it waits (R36). -/
def coreWriteBy (rule : Word → State → Rule) (c : CoreId) (k : WriteKind) (addr : Nat) (val : Word) (s : State) : State :=
  if coreMay s then
    let (st, s) := ctlWriteBy rule (coreWriter c s) k addr val s
    trapReply c addr st s
  else s

/-- A write by a core under its block's rule. -/
def coreWrite (c : CoreId) (k : WriteKind) (addr : Nat) (val : Word) (s : State) : State :=
  coreWriteBy (blockRule (coreWriter c s) addr) c k addr val s

/-- A read of a control word into a register, that the table names by what it does; a locked register waits (R78). -/
def coreRead (c : CoreId) (rd : Reg) (addr : Nat) (s : State) : State :=
  if !coreMay s || (s.core c).locked rd then s
  else
    let (st, v, s) := ctlRead c addr s
    trapReply c addr st (s.updCore c fun k => k.setReg rd v)

end Sys2Proof.Machine
end

