-- ==== Sys2Proof/Machine/CoreControl.lean ====
section
/-! DEFINITION. The instructions of the Epiezil cores that reach the control space and the banks block: control-space runs (R127–R129)
and the handover of banks (R130, R256, R260). -/
namespace Sys2Proof.Machine

open Host (Outcome)

/-! ### Control-space runs -/

/-- An access may join a run: fewer than four are open, and it reads no register that an earlier CGET of the run writes (R128). -/
def joinsRun (k : Core) (reads : List Reg) : Bool :=
  decide (k.csRun.length < 4) && !k.csRun.any fun e => match e.rd with | some r => reads.contains r | none => false

/-- The frame of a control-space instruction: it waits where it cannot join the run, or at the device-wide bound (R36); its address is (IMM16 + ra) mod 65,536. The access
is issued with its reply, and the core goes on. -/
def csAccess (op : Nat) (c : CoreId) (rd ra : Reg) (imm : BitVec 16) (reads : List Reg) (dest : Option Reg)
    (body : Nat → Word → State → Status × Word × State) (s : State) : State :=
  instr c true false [rd, ra] (wordD op rd ra 0 imm) (fun s =>
    let k := s.core c
    if !joinsRun k reads || !fabricRoom false s then s
    else
      let addr := (imm.toNat + (k.reg ra).toNat) % 65536
      let (st, v, s) := body addr (k.reg rd) s
      notePeak (s.updCore c fun k =>
        let k := match dest with | some r => k.setReg r v | none => k
        { k with csRun := k.csRun ++ [⟨k.pc, addr, st, dest⟩], pc := k.pc + 4 })) s

/-- A write as a core's own access: it answers nothing to a register. -/
def csWrite (kind : WriteKind) (c : CoreId) (addr : Nat) (val : Word) (s : State) : Status × Word × State :=
  let (st, s) := ctlWrite (coreWriter c s) kind addr val s
  (st, 0, s)

/-- CGET reads a control word into rd (R127). -/
def execCget (c : CoreId) (rd ra : Reg) (imm : BitVec 16) (s : State) : Outcome State Fault Refusal :=
  .next (csAccess 0x31 c rd ra imm [ra] (some rd) (fun addr _ s => ctlRead c addr s) s)

/-- CPUT writes rd to a control word (R127). -/
def execCput (c : CoreId) (rd ra : Reg) (imm : BitVec 16) (s : State) : Outcome State Fault Refusal :=
  .next (csAccess 0x32 c rd ra imm [ra, rd] none (csWrite .put c) s)

/-- CSET sets the bits of rd in a control word (R127, R544). -/
def execCset (c : CoreId) (rd ra : Reg) (imm : BitVec 16) (s : State) : Outcome State Fault Refusal :=
  .next (csAccess 0x33 c rd ra imm [ra, rd] none (csWrite .setBits c) s)

/-- CCLR clears the bits of rd in a control word (R127, R544). -/
def execCclr (c : CoreId) (rd ra : Reg) (imm : BitVec 16) (s : State) : Outcome State Fault Refusal :=
  .next (csAccess 0x34 c rd ra imm [ra, rd] none (csWrite .clearBits c) s)

/-- CS_RUN_REPLIES: the replies of the open run have arrived (R129). -/
def execCsRunReplies (c : CoreId) (s : State) : Outcome State Fault Refusal := .next (collectRun c s)

/-! ### Banks -/

/-- The frame of BGIVE and BTAKE: the bank is the value of a register, ILLEGAL above 31; after a check of its own the grant of the banks
block is needed, else CS_REFUSED with CONTROL_ACCESS_FAULT (R130). At the device-wide bound the request waits (R36). -/
def bankOp (c : CoreId) (illegal : Bool) (uses : List Reg) (w : Word) (named : Reg) (check : BankId → State → Option (State → State))
    (body : BankId → State → State) (s : State) : State :=
  plain c illegal uses w (fun s =>
    let k := s.core c
    let n := (k.reg named).toNat
    if h : n < 32 then
      let b : BankId := ⟨n, h⟩
      match check b s with
      | some trap => trap s
      | none =>
        if !fabricRoom false s then s
        else if granted (coreWriter c s) (0x1000 + n) then body b s
        else syncTrap c 5 k.pc (BitVec.ofNat 32 (0x1000 + n)) 0 (accessFault (coreWriter c s) (0x1000 + n) s)
    else syncTrap c 1 k.pc w 0 s) s

/-- A bank passes to a receiver, or becomes free. -/
def giveBank (b : BankId) (receiver : Nat) (s : State) : State := s.updBank b fun k => { k with owner := receiver }

/-- BGIVE hands an owned bank to the receiver IMM16[4:0]; a code of 14 to 30 is refused by the banks block (R130, R253). -/
def execBgive (c : CoreId) (rd : Reg) (imm : BitVec 16) (s : State) : Outcome State Fault Refusal :=
  let code := imm.toNat
  .next (bankOp c (decide (32 ≤ code)) [rd] (wordD 0x35 rd 0 0 imm) rd
    (fun b s => if s.banks[b].owner = c.val then none
      else some (syncTrap c 2 (s.core c).pc (BitVec.ofNat 32 (b.val * 0x20000)) 0))
    (fun b s =>
      if 14 ≤ code && code < 31 then syncTrap c 5 (s.core c).pc (BitVec.ofNat 32 (0x1000 + b.val)) 0 s
      else finish c id (giveBank b code s)) s)

/-- The reply of BTAKE: 0 and Z where the bank is taken, else 1. -/
def takeReply (c : CoreId) (rd : Reg) (taken : Bool) (s : State) : State :=
  finish c (fun k => { k.setReg rd (if taken then 0 else 1) with f := k.f.setZ taken }) s

/-- BTAKE takes a free bank; one without power is powered up and filled first (R130, R260). -/
def execBtake (c : CoreId) (rd ra : Reg) (s : State) : Outcome State Fault Refusal :=
  .next (bankOp c false [rd, ra] (wordD 0x36 rd ra 0 0) ra (fun _ _ => none) (fun b s =>
    let x := s.banks[b]
    if x.owner ≠ 31 then takeReply c rd false s
    else if x.powered then takeReply c rd true (giveBank b c s)
    else
      let s := (s.updBank b fun k => { k with filling := true, takers := k.takers ++ [c] }).setFlag 0x1020 b.val true
      s.updCore c fun k => { k with status := .filling b rd }) s)

/-- A core that waits for a bank's fill takes it, or finds it taken; then it takes a held cause, or halts (R97, R109, R260). -/
def answerTake (b : BankId) (c : CoreId) (s : State) : State :=
  match (s.core c).status with
  | .filling b' rd =>
    if b' = b then
      let taken := decide (s.banks[b].owner = 31)
      let s := onlyIf taken (giveBank b c) s
      stepped c (takeHeld c (takeReply c rd taken (s.updCore c fun k => { k with status := .running })))
    else s
  | _ => s

/-- BANK_FILL_DONE: the bank is powered and zero-filled, and the BTAKEs that wait for it are answered in the order of their admission: the
first takes the bank (R260, R261). -/
def execBankFillDone (b : BankId) (s : State) : Outcome State Fault Refusal :=
  .next (if s.banks[b].filling then
      (forAll (answerTake b) s.banks[b].takers (zeroFill b s)).updBank b fun k => { k with takers := [] }
    else s)

end Sys2Proof.Machine
end

