-- ==== Sys2Proof/Machine/Tacks.lean ====
section
/-! DEFINITION. Tacks (R85–R91, R103, R126, R183, R185, R550, R551), the measured offsets that may step device time (R177, R178,
R201), and what a follower takes from the cascade for its time, its boot image and its reset (R209, R210). -/
namespace Sys2Proof.Machine

open Host (Outcome)

/-! ### Judging a tack -/

/-- A descriptor that is refused: a nonzero reserved field, or a period below 125 (R85, Table 4.4). -/
def tackRefused (desc : Word) (period : Option Nat) : Bool :=
  decide (bits desc 16 10 ≠ 0) ||
    (decide (bits desc 30 2 = 3) && (decide (bits desc 11 5 ≠ 0) || decide (bits desc 3 5 ≠ 0))) ||
    match period with | some p => decide (p < 125) | none => false

/-- What becomes of a late tack. -/
inductive LatePolicy where | run | drop | next
  deriving DecidableEq, Repr

/-- The effective policy of a tack (R87–R89). -/
def effectivePolicy (policy cls : Nat) (periodic : Bool) (s : State) : LatePolicy :=
  if !s.feature 1 then .drop
  else match policy with
  | 1 => .run
  | 2 => .drop
  | 3 => if periodic then .next else .drop
  | _ => if periodic then .next else if cls < 2 then .run else .drop

/-- A time is late: less than now + 2 µs (R86). -/
def isLate (time : DWord) (s : State) : Bool := decide (time.toNat < s.deviceTime.toNat + 2000)

/-- The first time first + k × period, k a whole number, that is not earlier than a bound (R87). -/
def gridFrom (first period bound : Nat) : DWord :=
  BitVec.ofNat 64 (first + (bound - first + (period * 8 - 1)) / (period * 8) * (period * 8))

/-- The lowest-numbered free slot, where the device and the core have one (R85, R551). -/
def freeSlot (c : CoreId) (s : State) : Option Nat :=
  if 64 ≤ s.tackCount c then none else (List.range 512).find? fun n => !s.tacks.any fun t => t.slot == n

/-! ### Performing an action -/

/-- The control action or core event of a tack (Table 4.4). A refused write traps no core, and a closed sluice answers
RESET_ABORT for the placing core (R85, R550); an event to a core that is being reset is lost (R140). -/
def tackAction (core : CoreId) (kind target : Nat) (value grant : Word) (s : State) : State :=
  let w : Writer := ⟨core, grant, true⟩
  match kind with
  | 0 => (ctlWrite w .put target value s).2
  | 1 => (ctlWrite w .setBits target value s).2
  | 2 => (ctlWrite w .clearBits target value s).2
  | _ =>
    let c : CoreId := Fin.ofNat 8 (target / 256)
    onlyIf (!s.blockOut (c.castLE (by decide))) (raiseEvent (8 + target % 8) c) s

/-- A tack gives up its slot. -/
def removeTack (n : Nat) (s : State) : State := { s with tacks := s.tacks.filter fun t => decide (t.slot ≠ n) }

/-- A tack with another next instance. -/
def moveTack (n : Nat) (time : DWord) (s : State) : State :=
  { s with tacks := s.tacks.map fun t => if t.slot = n then { t with time := time, handed := false } else t }

/-- A one-shot tack that fires frees its slot; UNTACK answers FIRED until the slot is taken again (R551). A periodic tack goes on
to a later time of its grid. -/
def completeTack (t : Tack) (later : Nat → DWord) (s : State) : State :=
  match t.period with
  | some p => moveTack t.slot (later p) s
  | none => let s := removeTack t.slot s
    { s with fired := (t.slot, t.core) :: s.fired }

/-- A tack is dropped as late or at a step: reported and counted (R87, R549). -/
def dropReport (core : CoreId) (handle : Nat) (s : State) : State :=
  record 0x1013 core.val handle (s.updCore core fun k => { k with dropped := satInc 16 k.dropped })

/-- A late tack runs at once, is reported and counted; a periodic one goes on at the first time of its grid after it (R87). -/
def runLate (t : Tack) (s : State) : State :=
  let now := s.deviceTime.toNat
  let s := completeTack t (fun p => gridFrom t.time.toNat p (now + 1)) s
  let s := record 0x1012 t.core.val t.slot (s.updCore t.core fun k => { k with lateRun := satInc 9 k.lateRun })
  tackAction t.core t.kind t.target t.value t.grant s

/-- What was handed to a retimer for a tack's next instance is taken back. -/
def takeBack (n : Nat) (s : State) : State :=
  let handed := s.tacks.any fun t => t.slot == n && t.handed
  onlyIf handed (fun s => { s with launches := s.launches.filter fun l => decide (l.slot ≠ n) }) s

/-! ### Placing and removing -/

/-- A tack takes its slot and is judged (R85–R88, R126): the result word, and the state with it placed, run or dropped. -/
def placeTack (t : Tack) (s : State) : Word × State :=
  let late := isLate t.time s
  let policy := effectivePolicy t.policy t.cls t.period.isSome s
  if late && decide (policy = .drop) then (BitVec.ofNat 32 (2 ^ 31 + 2 ^ 30), dropReport t.core 0x200 s)
  else
    let s := { s with tacks := s.tacks ++ [t], fired := s.fired.filter fun e => decide (e.1 ≠ t.slot) }
    if !late then (BitVec.ofNat 32 t.slot, s)
    else
      let s := match policy, t.period with
        | .next, some p => moveTack t.slot (gridFrom t.time.toNat p (s.deviceTime.toNat + 2000)) s
        | _, _ => runLate t s
      (BitVec.ofNat 32 (2 ^ 31 + t.slot), s)

/-- TACK and TACKP after their operands: refused with TACK_REFUSED, waiting for a slot or for the device-wide bound (R36), or answered (R85, R126). -/
def tackBody (c : CoreId) (rd : Reg) (tn : TReg) (ra rb : Reg) (period : Option Nat) (s : State) : State :=
  let k := s.core c
  let desc := k.reg ra
  if tackRefused desc period then syncTrap c 8 k.pc desc 0 s
  else if !fabricRoom false s then s
  else match freeSlot c s with
    | none => s
    | some n =>
      let (r, s) := placeTack ⟨n, c, bits desc 30 2, bits desc 28 2, bits desc 26 2, bits desc 0 16, k.reg rb,
        k.t[tn] &&& ~~~7, period, s.word (coreAddr c 0xB), false⟩ s
      finish c (fun k => { k.setReg rd r with f := { k.f with late := bit r 31 } }) s

/-- TACK places a one-shot tack (R126). -/
def execTack (c : CoreId) (rd : Reg) (tn : TReg) (ra rb : Reg) (s : State) : Outcome State Fault Refusal :=
  .next (plain c false [rd, ra, rb] (wordA 0x2A rd ra rb 0 tn) (tackBody c rd tn ra rb none) s)

/-- TACKP places a periodic tack, its period in 8 ns units in rc (R126). -/
def execTackp (c : CoreId) (rd : Reg) (tn : TReg) (ra rb rc : Reg) (s : State) : Outcome State Fault Refusal :=
  .next (plain c false [rd, ra, rb, rc] (wordA 0x2B rd ra rb rc tn)
    (fun s => tackBody c rd tn ra rb (some ((s.core c).reg rc).toNat) s) s)

/-- What UNTACK of a handle does: 0 removed, 1 FIRED, 2 UNKNOWN (R91, R551). -/
def untack (c : CoreId) (n : Nat) (s : State) : Nat × State :=
  if s.tacks.any fun t => t.slot == n && decide (t.core = c) then (0, removeTack n (takeBack n s))
  else if s.fired.contains (n, c) then (1, s)
  else (2, s)

/-- UNTACK removes a pending tack of the core, or answers FIRED or UNKNOWN; a handle word with ra[31:9] not zero is refused
(R91, R126). -/
def execUntack (c : CoreId) (rd ra : Reg) (s : State) : Outcome State Fault Refusal :=
  .next (plain c false [rd, ra] (wordA 0x2C rd ra 0 0 0) (fun s =>
    let k := s.core c
    let h := k.reg ra
    if 512 ≤ h.toNat then syncTrap c 8 k.pc h 0 s
    else if !fabricRoom false s then s
    else
      let (r, s) := untack c h.toNat s
      finish c (fun k => { k.setReg rd (BitVec.ofNat 32 r) with f := k.f.setZ (decide (r = 0)) }) s) s)

/-! ### Firing -/

/-- Device time is clocked: while one of its domains is lost no tack fires and no retimed launch is made (Table 2.10). -/
def timeClocked (s : State) : Bool := !s.clockLost.getLsbD 0 && !s.clockLost.getLsbD 1

/-- A tack's slot has arrived, and every tack of the same slot with a lower handle has fired (R86, R90). At the device-wide bound its request
waits (R36). -/
def tackDue (t : Tack) (s : State) : Bool :=
  timeClocked s && fabricRoom false s && decide (t.time.toNat ≤ s.deviceTime.toNat) &&
    !s.tacks.any fun u => decide (u.time = t.time) && decide (u.slot < t.slot)

/-- A due tack fires: it has acted and can no longer be removed (R91, R103). One that its block's retimer holds acts from there, and not
at all where the block has gone out and the launch with it (R183, R550). -/
def fireTack (t : Tack) (s : State) : State :=
  let acts := !t.handed || s.launches.any fun l => l.slot == t.slot
  let s := completeTack t (fun p => t.time + BitVec.ofNat 64 (p * 8)) (takeBack t.slot s)
  onlyIf acts (tackAction t.core t.kind t.target t.value t.grant) s

/-- TACK_FIRE: the tack fires in the slot of its time (R86, R90, R551). -/
def execTackFire (handle : Fin 512) (s : State) : Outcome State Fault Refusal :=
  .next (match s.tacks.find? fun t => t.slot == handle.val with
    | some t => if tackDue t s then fireTack t s else s
    | none => s)

/-- A block whose words drive retimed pins: panel, LED, gate and machinery (R183). -/
def drivesPins (b : Nat) : Bool := decide (13 ≤ b) && decide (b ≤ 15) || decide (18 ≤ b) && decide (b ≤ 20)

/-- TACK_HANDOVER: from 1 µs before its time, an action on a block that drives pins goes to the block's retimer (R183). A block that is
out takes none. -/
def execTackHandover (handle : Fin 512) (s : State) : Outcome State Fault Refusal :=
  .next (match s.tacks.find? fun t => t.slot == handle.val with
    | some t =>
      let b := addrBlock t.target
      if timeClocked s && !t.handed && decide (t.kind < 3) && drivesPins b.val && !blockAborts b s
          && decide (t.time.toNat ≤ s.deviceTime.toNat + 1000) then
        { s with
          tacks := s.tacks.map fun u => if u.slot = t.slot then { u with handed := true } else u
          launches := s.launches ++ [⟨t.slot, t.core, t.kind, t.target, t.value, t.time, t.grant⟩] }
      else s
    | none => s)

/-- RETIMER_LAUNCH: device time reaches the time of an action that a retimer holds, and its tack fires (R90, R183). -/
def execRetimerLaunch (handle : Fin 512) (s : State) : Outcome State Fault Refusal :=
  .next (match s.tacks.find? fun t => t.slot == handle.val && t.handed with
    | some t => if tackDue t s && s.launches.any (fun l => l.slot == t.slot) then fireTack t s else s
    | none => s)

/-! ### Steps of device time -/

/-- A pending tack judged against a stepped device time (R185). One that would run at once waits while the device-wide bound leaves no room: it
fires when that has passed (R36). -/
def rejudge (t : Tack) (s : State) : State :=
  if !isLate t.time s then s
  else
    let s := takeBack t.slot s
    match effectivePolicy t.policy t.cls t.period.isSome s, t.period with
    | .drop, _ => dropReport t.core t.slot (removeTack t.slot s)
    | .next, some p => moveTack t.slot (gridFrom t.time.toNat p (s.deviceTime.toNat + 2000)) s
    | _, _ => if fabricRoom false s then runLate t s else s

/-- The pending tacks in ascending handle order. -/
def State.tacksInOrder (s : State) : List Tack := (List.range 512).filterMap fun n => s.tacks.find? fun t => t.slot == n

/-- The times of the gate lists move with a step of device time: since the last cycle start, and since a write, as much time has passed as
before (R175, R189). -/
def stepQbv (by_ : Int) (q : Qbv) : Qbv :=
  let moved (t : Nat) : Nat := ((t : Int) + by_).toNat
  { q with start := moved q.start, next := q.next.map fun x => (x.1, moved x.2) }

/-- Device time steps: TIME_STEPPED, the merge cycle in progress ends, and every pending tack is judged again (R94, R178, R185). -/
def stepTime (by_ : Int) (s : State) : State :=
  let us := clampI (-32768) 32767 (by_.tdiv 1000)
  let s := { s with
    deviceTime := s.deviceTime + BitVec.ofInt 64 by_
    net := { s.net with qbv := s.net.qbv.map (stepQbv by_) } }
  let s := endMerge (record 0x3005 0xFFFF (us % 4294967296).toNat s)
  forAll rejudge s.tacksInOrder s

/-- A measured offset: in FREE one above 1 µs in magnitude steps device time; then the servo takes it (R177, R178). -/
def measured (offset : Int) (s : State) : State :=
  if !timeClocked s then s
  else
    let steps := decide (timeState s = 0) && decide (1000 < offset.natAbs)
    takeOffset offset (if steps then offset else 0) (onlyIf steps (stepTime offset) s)

/-- The timestamps of a port are corrected by its NET_PORT_ASYM: what the path to the device takes longer puts the master ahead (R176;
PRESUMED: log entry 155). -/
def corrected (port : Fin 2) (offset : Int) (s : State) : Int := offset + (s.word (0x1C03 + port.val)).toInt

/-- PTP_SYNC: a Sync offset of a port in a slave role, measured by the delay mechanism of the port, is corrected and taken; a follower that
takes its time from the ring does not use it (R176, R177, R201). -/
def execPtpSync (port : Fin 2) (offset : SyncOffset) (intervalNs : Nat) (s : State) : Outcome State Fault Refusal :=
  let role := bits (portCfg port s) 5 3
  let slave := decide (role = 1) || decide (role = 2) || decide (role = 4)
  .next (if !coresPowered s || s.blockOut 10 || !portLink port s || !slave || timeByRing s || offset.peer != peerDelay port s then s
    else measured (corrected port offset.ns s) (s.updTime fun x => { x with slave := some port, syncAt := s.clock, interval := intervalNs }))

/-! ### What a follower takes from the cascade -/

/-- HOL_CYCLE_SYNC_RX: a cycle sync gives a follower its number, the ring's state, the reset mask, and its device time (R196–R201). -/
def execHolCycleSyncRx (port : Fin 2) (f : SyncFrame) (s : State) : Outcome State Fault Refusal :=
  let usable := !s.blockOut 12 && holUp port s && f.crcOk && decide (f.type = 1)
  let s := takeSync port f s
  .next (match syncOffset port f s with
    | some offset => if usable then measured offset (s.updTime fun x => { x with interval := 125000 }) else s
    | none => s)

/-- The bytes a boot image needs, once its header is there (Table 3.7). -/
def imageNeeds (chunks : List (Nat × Bytes)) : Nat :=
  let header := chunkBytes chunks 64
  64 + imgLen header + (if imgSigned header then 64 else 0)

/-- Every byte of an image up to a length has come. -/
def covered (chunks : List (Nat × Bytes)) (n : Nat) : Bool := (List.range n).all fun i => (chunkByte chunks i).isSome

/-- HOL_BOOT_PACKET: a follower that waits in Boot for the ring's image stores a TYPE 2 packet at its offset; once the image is whole, or its
header asks for more than an image may hold, it is judged (R61, R62, R209). -/
def execHolBootPacket (p : OnPort BulkPacket) (s : State) : Outcome State Fault Refusal :=
  let waits := decide (s.modes.mode = .boot) && !s.modes.held && decide (s.field 0x0014 0 2 = 3) && !s.blockOut 12 && holUp p.port s
  let p := p.it
  .next (if waits && bulkMine p s && p.crcOk && decide (p.type = 2) && decide (5 ≤ p.payload.length) then
      let s := pushBytes (beNat (p.payload.take 4)) (p.payload.drop 4) s
      let chunks := s.sec.push
      let need := imageNeeds chunks
      if covered chunks 64 && (decide (2097280 < need) || covered chunks need) then endPush s else s
    else s)

/-- HOL_CASCADE_RESET_RX: a follower that a valid cycle sync names resets as on RESET_N (R57, R210); a stop that the frame brings is recorded
before (R215). -/
def execHolCascadeResetRx (f : OnPort SyncFrame) (s : State) : Outcome State Fault Refusal :=
  let port := f.port
  let f := f.it
  let named := decide (holRole s = 2) && s.hol.numbered && decide (holNode s ≠ 0) && f.resetMask.getLsbD (holNode s)
  let asks := f.crcOk && decide (f.type = 1) && f.flags.getLsbD 1
  .next (if !s.blockOut 12 && holUp port s && !s.modes.held && decide (s.modes.mode ≠ .dormant) && named && asks then
      holdDevice 2 (takeField f s)
    else s)

end Sys2Proof.Machine
end

