-- ==== Sys2Proof/Machine/Clock.lean ====
section
/-! DEFINITION. What 8 ns of elapsed time do by themselves (R171, R173, R48): device time advances, the ports of the switch send, the
probe counts a sender without credit, and the panel pins, the LED sinks, the row switches and the gate outputs follow (R293, R322, R331, R411); a desaturation level that stands as its blanking ends trips (R414). The step makes one such tick where no command waits. -/
namespace Sys2Proof.Machine

/-- A sender of a program queue holds no credit for it (R26, R28). -/
def starved (q : Nat) (s : State) : Bool :=
  if gathered q then (List.range 8).any fun n => s.credits q n == 0
  else decide (queueDepth q ≠ 0) && s.credits q 0 == 0

/-- The probe counts 8 ns of device time in which the sender of its queue holds no credit (R48). -/
def probeWait (s : State) : State :=
  onlyIf (timeClocked s && starved (s.field 0x0409 0 8) s) (fun s => s.countWrap 0x040B 0 32) s

/-- 8 ns of elapsed time pass; a clock detector that is no longer armed forgets what it has declared (R34). -/
def tick (s : State) : State :=
  standingDesat <| driveGates <| driveLeds <| drivePins (probeWait (ringTick (portTick 1 (portTick 0 (advanceTime (disarmAll { s with clock := s.clock + 8 }))))))

end Sys2Proof.Machine
end

