-- ==== Sys2Proof/Machine/CoreData.lean ====
section
/-! DEFINITION. The data, compare and branch instructions of the Epiezil cores (R117–R119). -/
namespace Sys2Proof.Machine

open Host (Outcome)

/-- A three-register operation of format A: its result goes to rd, its flags to F (Table 5.4). -/
def aluA (op : Nat) (c : CoreId) (rd ra rb : Reg) (f : Flags → Word → Word → Word × Flags) (s : State) : State :=
  plain c false [rd, ra, rb] (wordA op rd ra rb 0 0) (finish c fun k =>
    let r := f k.f (k.reg ra) (k.reg rb)
    { k.setReg rd r.1 with f := r.2 }) s

/-- An operation of format B with an immediate operand; `illegal` where the immediate has a nonzero unused field. -/
def aluB (op : Nat) (c : CoreId) (rd ra : Reg) (imm : BitVec 18) (illegal : Bool) (f : Flags → Word → Word × Flags)
    (s : State) : State :=
  plain c illegal [rd, ra] (wordB op rd ra imm) (finish c fun k =>
    let r := f k.f (k.reg ra)
    { k.setReg rd r.1 with f := r.2 }) s

/-- A shift by an immediate: IMM18[17:5] must be zero (Table 5.4). -/
def aluShift (op : Nat) (c : CoreId) (rd ra : Reg) (imm : BitVec 18) (f : Flags → Word → Nat → Word × Flags)
    (s : State) : State :=
  aluB op c rd ra imm (decide (32 ≤ imm.toNat)) (fun fl a => f fl a (imm.toNat % 32)) s

/-- The shift amount a register gives: rb[5:0] (R117). -/
def shiftAmount (b : Word) : Nat := b.toNat % 64

/-- A multiply-accumulate: rd names a pair. -/
def aluMac (op : Nat) (c : CoreId) (rd ra rb : Reg) (f : Flags → DWord → Word → Word → DWord × Flags) (s : State) :
    State :=
  plain c (oddPair rd) [rd, rd + 1, ra, rb] (wordA op rd ra rb 0 0) (finish c fun k =>
    let r := f k.f (k.pair rd) (k.reg ra) (k.reg rb)
    { k.setPair rd r.1 with f := r.2 }) s

/-- ADD: rd := ra + rb (Table 5.4). -/
def execAdd (c : CoreId) (rd ra rb : Reg) (s : State) :
    Outcome State Fault Refusal :=
  .next (aluA 0x1 c rd ra rb addFlags s)

/-- SUB: rd := ra − rb (Table 5.4). -/
def execSub (c : CoreId) (rd ra rb : Reg) (s : State) :
    Outcome State Fault Refusal :=
  .next (aluA 0x2 c rd ra rb subFlags s)

/-- AND (Table 5.4). -/
def execAnd (c : CoreId) (rd ra rb : Reg) (s : State) :
    Outcome State Fault Refusal :=
  .next (aluA 0x3 c rd ra rb (fun f a b => logicFlags f (a &&& b)) s)

/-- OR (Table 5.4). -/
def execOr (c : CoreId) (rd ra rb : Reg) (s : State) :
    Outcome State Fault Refusal :=
  .next (aluA 0x4 c rd ra rb (fun f a b => logicFlags f (a ||| b)) s)

/-- XOR (Table 5.4). -/
def execXor (c : CoreId) (rd ra rb : Reg) (s : State) :
    Outcome State Fault Refusal :=
  .next (aluA 0x5 c rd ra rb (fun f a b => logicFlags f (a ^^^ b)) s)

/-- SHL by rb[5:0] (Table 5.4). -/
def execShl (c : CoreId) (rd ra rb : Reg) (s : State) :
    Outcome State Fault Refusal :=
  .next (aluA 0x6 c rd ra rb (fun f a b => shlFlags f a (shiftAmount b)) s)

/-- SHR by rb[5:0], zero fill (Table 5.4). -/
def execShr (c : CoreId) (rd ra rb : Reg) (s : State) :
    Outcome State Fault Refusal :=
  .next (aluA 0x7 c rd ra rb (fun f a b => shrFlags f a (shiftAmount b)) s)

/-- SAR by rb[5:0], sign fill (Table 5.4). -/
def execSar (c : CoreId) (rd ra rb : Reg) (s : State) :
    Outcome State Fault Refusal :=
  .next (aluA 0x8 c rd ra rb (fun f a b => sarFlags f a (shiftAmount b)) s)

/-- MUL: the low 32 bits of the product (Table 5.4). -/
def execMul (c : CoreId) (rd ra rb : Reg) (s : State) :
    Outcome State Fault Refusal :=
  .next (aluA 0x11 c rd ra rb (fun f a b => logicFlags f (a * b)) s)

/-- MULQ: the Q1.31 product, rounded and saturated (Table 5.4). -/
def execMulq (c : CoreId) (rd ra rb : Reg) (s : State) :
    Outcome State Fault Refusal :=
  .next (aluA 0x13 c rd ra rb mulqFlags s)

/-- ADDI: rd := ra + sext(IMM18) (Table 5.4, R113). -/
def execAddi (c : CoreId) (rd ra : Reg) (imm : BitVec 18) (s : State) :
    Outcome State Fault Refusal :=
  .next (aluB 0x9 c rd ra imm false (fun f a => addFlags f a (imm.signExtend 32)) s)

/-- ANDI with zext(IMM18) (Table 5.4, R113). -/
def execAndi (c : CoreId) (rd ra : Reg) (imm : BitVec 18) (s : State) :
    Outcome State Fault Refusal :=
  .next (aluB 0xa c rd ra imm false (fun f a => logicFlags f (a &&& imm.setWidth 32)) s)

/-- ORI with zext(IMM18) (Table 5.4, R113). -/
def execOri (c : CoreId) (rd ra : Reg) (imm : BitVec 18) (s : State) :
    Outcome State Fault Refusal :=
  .next (aluB 0xb c rd ra imm false (fun f a => logicFlags f (a ||| imm.setWidth 32)) s)

/-- XORI with zext(IMM18) (Table 5.4, R113). -/
def execXori (c : CoreId) (rd ra : Reg) (imm : BitVec 18) (s : State) :
    Outcome State Fault Refusal :=
  .next (aluB 0xc c rd ra imm false (fun f a => logicFlags f (a ^^^ imm.setWidth 32)) s)

/-- SHLI by IMM18[4:0] (Table 5.4). -/
def execShli (c : CoreId) (rd ra : Reg) (imm : BitVec 18) (s : State) :
    Outcome State Fault Refusal :=
  .next (aluShift 0xd c rd ra imm shlFlags s)

/-- SHRI by IMM18[4:0] (Table 5.4). -/
def execShri (c : CoreId) (rd ra : Reg) (imm : BitVec 18) (s : State) :
    Outcome State Fault Refusal :=
  .next (aluShift 0xe c rd ra imm shrFlags s)

/-- SARI by IMM18[4:0] (Table 5.4). -/
def execSari (c : CoreId) (rd ra : Reg) (imm : BitVec 18) (s : State) :
    Outcome State Fault Refusal :=
  .next (aluShift 0xf c rd ra imm sarFlags s)

/-- LUI: rd := IMM18 << 14; no flags (Table 5.4). -/
def execLui (c : CoreId) (rd : Reg) (imm : BitVec 18) (s : State) :
    Outcome State Fault Refusal :=
  .next (plain c false [rd] (wordB 0x10 rd 0 imm) (finish c fun k => k.setReg rd (imm.setWidth 32 <<< 14)) s)

/-- MULL: the pair rd takes the 64-bit product (Table 5.4). -/
def execMull (c : CoreId) (rd ra rb : Reg) (s : State) :
    Outcome State Fault Refusal :=
  .next (aluMac 0x12 c rd ra rb (fun f _ a b =>
    let r : DWord := BitVec.ofInt 64 (a.toInt * b.toInt)
    (r, f.nz64 r)) s)

/-- MAC: the product is added to the pair rd, wrapping (Table 5.4). -/
def execMac (c : CoreId) (rd ra rb : Reg) (s : State) :
    Outcome State Fault Refusal :=
  .next (aluMac 0x14 c rd ra rb macFlags s)

/-- MACS: as MAC, saturating (Table 5.4). -/
def execMacs (c : CoreId) (rd ra rb : Reg) (s : State) :
    Outcome State Fault Refusal :=
  .next (aluMac 0x15 c rd ra rb macsFlags s)

/-- EXTQ: the rounded, saturated extract of pair ra by IMM18[5:0] (R118). -/
def execExtq (c : CoreId) (rd ra : Reg) (imm : BitVec 18) (s : State) :
    Outcome State Fault Refusal :=
  .next (plain c (oddPair ra || decide (64 ≤ imm.toNat)) [rd, ra, ra + 1] (wordB 0x16 rd ra imm) (finish c fun k =>
    let r := extqFlags k.f (k.pair ra) (imm.toNat % 64)
    { k.setReg rd r.1 with f := r.2 }) s)

/-- CMP: the flags of SUB, no register written (R119). -/
def execCmp (c : CoreId) (ra rb : Reg) (s : State) :
    Outcome State Fault Refusal :=
  .next (plain c false [ra, rb] (wordA 0x17 0 ra rb 0 0) (finish c fun k =>
    { k with f := (subFlags k.f (k.reg ra) (k.reg rb)).2 }) s)

/-- CMPI: CMP with sext(IMM18) (R119). -/
def execCmpi (c : CoreId) (ra : Reg) (imm : BitVec 18) (s : State) :
    Outcome State Fault Refusal :=
  .next (plain c false [ra] (wordB 0x18 0 ra imm) (finish c fun k =>
    { k with f := (subFlags k.f (k.reg ra) (imm.signExtend 32)).2 }) s)

/-- The target of a branch: PC + 4 × sext(IMM22), where PC is the address of the branch (R119). -/
def branchTarget (pc : Word) (imm : BitVec 22) : Word := pc + 4 * imm.signExtend 32

/-- Bcc: on the condition, PC := PC + 4 × sext(IMM22) (R119, Table 5.5). -/
def execBcc (c : CoreId) (cond : BitVec 4) (imm : BitVec 22) (s : State) :
    Outcome State Fault Refusal :=
  .next (plain c false [] (wordC 0x19 cond.toNat imm) (fun s => s.updCore c fun k =>
    { k with pc := if condHolds k.f cond then branchTarget k.pc imm else k.pc + 4 }) s)

/-- BL: rd := PC + 4, then the branch (R119). -/
def execBl (c : CoreId) (rd : Reg) (imm : BitVec 22) (s : State) :
    Outcome State Fault Refusal :=
  .next (plain c false [rd] (wordC 0x1A rd.val imm) (fun s => s.updCore c fun k =>
    { k.setReg rd (k.pc + 4) with pc := branchTarget k.pc imm }) s)

/-- JR: the core goes on at ra, which must be a multiple of 4 (R119). -/
def execJr (c : CoreId) (ra : Reg) (s : State) :
    Outcome State Fault Refusal :=
  .next (plain c false [ra] (wordA 0x1B 0 ra 0 0 0) (fun s =>
    let k := s.core c
    if (k.reg ra).toNat % 4 = 0 then s.updCore c fun k => { k with pc := k.reg ra }
    else syncTrap c 4 k.pc (k.reg ra) 0 s) s)

end Sys2Proof.Machine
end

