-- ==== Sys2Proof/Machine/CoreMem.lean ====
section
/-! DEFINITION. The memory instructions of the Epiezil cores: bank loads and stores (R120), indivisible bank accesses
(R122), far loads and stores (R77–R80, R121) and the reply to a far access. -/
namespace Sys2Proof.Machine

open Host (Outcome)

/-- The data address of a bank access: ra + sext(IMM18) (R120). -/
def dataAddr (k : Core) (ra : Reg) (imm : BitVec 18) : Word := k.reg ra + imm.signExtend 32

/-- A data access of n bytes by core c at an address: it must be a multiple of n (MISALIGNED), in an owned bank
(BANK_REFUSED), of right parity where it reads (BANK_PARITY), in this order (R136). -/
def bankAccess (c : CoreId) (addr : Word) (n : Nat) (reads : Bool) (body : Bytes → State → State) (s : State) : State :=
  let pc := (s.core c).pc
  let a := addr.toNat
  if a % n ≠ 0 then syncTrap c 4 pc addr 0 s
  else if s.owns c a then
    if reads then
      match bankRead c a n s with
      | (.ok d, s) => body d s
      | (.refused, s) => syncTrap c 2 pc addr 0 s
      | (.parity, s) => syncTrap c 3 pc addr 0 s
    else body [] s
  else syncTrap c 2 pc addr 0 (bankRefused c a s)

/-- A bank load into rd. -/
def bankLoad (op : Nat) (c : CoreId) (rd ra : Reg) (imm : BitVec 18) (n : Nat) (f : Bytes → Word) (s : State) : State :=
  plain c false [rd, ra] (wordB op rd ra imm) (fun s =>
    bankAccess c (dataAddr (s.core c) ra imm) n true (fun d => finish c fun k => k.setReg rd (f d)) s) s

/-- A bank store of the low n bytes of rd. -/
def bankStore (op : Nat) (c : CoreId) (rd ra : Reg) (imm : BitVec 18) (n : Nat) (s : State) : State :=
  plain c false [rd, ra] (wordB op rd ra imm) (fun s =>
    let k := s.core c
    let a := dataAddr k ra imm
    bankAccess c a n false (fun _ s =>
      finish c id (s.storeBytes a.toNat (leBytes n (k.reg rd).toNat))) s) s

/-- LDW: a word of an owned bank (R120). -/
def execLdw (c : CoreId) (rd ra : Reg) (imm : BitVec 18) (s : State) : Outcome State Fault Refusal :=
  .next (bankLoad 0x1C c rd ra imm 4 (fun d => BitVec.ofNat 32 (leNat d)) s)

/-- LDB: a byte of an owned bank, sign-extended (R120). -/
def execLdb (c : CoreId) (rd ra : Reg) (imm : BitVec 18) (s : State) : Outcome State Fault Refusal :=
  .next (bankLoad 0x1D c rd ra imm 1 (fun d => (BitVec.ofNat 8 (leNat d)).signExtend 32) s)

/-- LDBU: a byte of an owned bank, zero-extended (R120). -/
def execLdbu (c : CoreId) (rd ra : Reg) (imm : BitVec 18) (s : State) : Outcome State Fault Refusal :=
  .next (bankLoad 0x1E c rd ra imm 1 (fun d => BitVec.ofNat 32 (leNat d)) s)

/-- STW: the word of rd to an owned bank (R120). -/
def execStw (c : CoreId) (rd ra : Reg) (imm : BitVec 18) (s : State) : Outcome State Fault Refusal :=
  .next (bankStore 0x1F c rd ra imm 4 s)

/-- STB: the low byte of rd, with its parity, to an owned bank (R120). -/
def execStb (c : CoreId) (rd ra : Reg) (imm : BitVec 18) (s : State) : Outcome State Fault Refusal :=
  .next (bankStore 0x20 c rd ra imm 1 s)

/-- An indivisible access at the word in ra: rd takes the old word, the bank f of the old word and rb (R122). -/
def bankModify (op : Nat) (c : CoreId) (rd ra rb : Reg) (f : Word → Word → Word) (s : State) : State :=
  plain c false [rd, ra, rb] (wordA op rd ra rb 0 0) (fun s =>
    let k := s.core c
    let a := k.reg ra
    bankAccess c a 4 true (fun d s =>
      let old : Word := BitVec.ofNat 32 (leNat d)
      finish c (fun k => k.setReg rd old) (s.storeBytes a.toNat (leBytes 4 (f old (k.reg rb)).toNat))) s) s

/-- SWAP: rd takes the old word, rb is written (R122). -/
def execSwap (c : CoreId) (rd ra rb : Reg) (s : State) : Outcome State Fault Refusal :=
  .next (bankModify 0x37 c rd ra rb (fun _ b => b) s)

/-- ADDM: rd takes the old word, old + rb is written, wrapping (R122). -/
def execAddm (c : CoreId) (rd ra rb : Reg) (s : State) : Outcome State Fault Refusal :=
  .next (bankModify 0x38 c rd ra rb (fun a b => a + b) s)

/-! ### Far access -/

/-- The far address: pair ra + sext(IMM16) (R121). -/
def farAddr (k : Core) (ra : Reg) (imm : BitVec 16) : DWord := k.pair ra + imm.signExtend 64

/-- A far access issued towards port P6: the address must be a multiple of its width (MISALIGNED); a seventeenth far
load waits (R77), and so does any access at the device-wide bound (R36); a load locks its destination, a store completes at issue (R78, R121). -/
def farAccess (op : Nat) (c : CoreId) (rd ra : Reg) (imm : BitVec 16) (store wide : Bool) (s : State) : State :=
  let regs := (if wide then [rd, rd + 1] else [rd]) ++ [ra, ra + 1]
  plain c (oddPair ra || (wide && oddPair rd)) regs (wordD op rd ra 0 imm) (fun s =>
    let k := s.core c
    let a := farAddr k ra imm
    let n := if wide then 8 else 4
    if a.toNat % n ≠ 0 then syncTrap c 4 k.pc (a.setWidth 32) ((a >>> 32).setWidth 32) s
    else if (!store && decide (16 ≤ k.farLoads)) || !fabricRoom false s then s
    else
      let v := if wide then (k.pair rd).toNat else (k.reg rd).toNat
      let q : FarReq := ⟨k.farTag, store, wide, rd, a, if store then leBytes n v else []⟩
      finish c (fun k => { k with
        farTag := k.farTag + 1, farWait := k.farWait ++ [q],
        farOut := if store then k.farOut else k.farOut ++ [q] }) s) s

/-- FLDW: a far load of 32 bits into rd (R121). -/
def execFldw (c : CoreId) (rd ra : Reg) (imm : BitVec 16) (s : State) : Outcome State Fault Refusal :=
  .next (farAccess 0x21 c rd ra imm false false s)

/-- FLDD: a far load of 64 bits into pair rd (R121). -/
def execFldd (c : CoreId) (rd ra : Reg) (imm : BitVec 16) (s : State) : Outcome State Fault Refusal :=
  .next (farAccess 0x22 c rd ra imm false true s)

/-- FSTW: a far store of rd (R121). -/
def execFstw (c : CoreId) (rd ra : Reg) (imm : BitVec 16) (s : State) : Outcome State Fault Refusal :=
  .next (farAccess 0x23 c rd ra imm true false s)

/-- FSTD: a far store of pair rd (R121). -/
def execFstd (c : CoreId) (rd ra : Reg) (imm : BitVec 16) (s : State) : Outcome State Fault Refusal :=
  .next (farAccess 0x24 c rd ra imm true true s)

/-- The trap cause a bad status of a far reply raises (R80). -/
def farCause : Status → Option Nat
  | .poison => some 10
  | .resetAbort => some 11
  | _ => none

/-- The reply to a far access reaches its core: a load's registers take the data, or 0 where the reply is bad, and are
unlocked; a bad reply raises FAR_POISON or FAR_ABORT with the far address (R80, R141). -/
def takeFarReply (c : CoreId) (r : FarReply) (s : State) : State :=
  let bad := (farCause r.status).isSome
  let v : DWord := if bad then 0 else BitVec.ofNat 64 (leNat r.data)
  let s := onlyIf (decide (r.status = .poison)) poisonReply s
  let s := s.updCore c fun k =>
    if r.req.store then k
    else
      let k := { k with farOut := k.farOut.filter fun q => decide (q.tag ≠ r.req.tag) }
      if r.req.wide then k.setPair r.req.rd v else k.setReg r.req.rd (v.setWidth 32)
  match farCause r.status with
  | some cause => asyncTrap c cause r.req.addr s
  | none => s

/-- FAR_REPLY: the reply at a place among those that have arrived is taken (R78, R80). -/
def execFarReply (c : CoreId) (idx : Nat) (s : State) : Outcome State Fault Refusal :=
  .next (match (s.core c).farReplies[idx]? with
    | some r => takeFarReply c r (s.updCore c fun k => { k with farReplies := k.farReplies.eraseIdx idx })
    | none => s)

end Sys2Proof.Machine
end

