-- ==== Sys2Proof/Machine/Writes.lean ====
section
/-! DEFINITION. The rows of the table that are a core's write or read of a control word, each by the word it names. A write that fails traps
the core where it runs (R129). -/
namespace Sys2Proof.Machine

open Host (Outcome)

/-- CONTROL_WRITE: a write of any control word (R543). -/
def execControlWrite (c : CoreId) (addr : BitVec 16) (val : Word) (s : State) : Outcome State Fault Refusal :=
  .next (coreWrite c .put addr.toNat val s)

/-- A word of the control space by number. -/
def numWord (n : Nat) : Word := BitVec.ofNat 32 n

/-- A FABRIC_BLOCK_CMD of an action on a block (R38). -/
def blockCmd (c : CoreId) (action : Nat) (block : Fin 32) (s : State) : State :=
  coreWrite c .put 0x0403 (numWord (action * 2 ^ 8 + block.val)) s

/-- BLOCK_RESET (R37). -/
def execBlockReset (c : CoreId) (block : Fin 32) (s : State) : Outcome State Fault Refusal := .next (blockCmd c 1 block s)

/-- BLOCK_POWER_DOWN (R37). -/
def execBlockPowerDown (c : CoreId) (block : Fin 32) (s : State) : Outcome State Fault Refusal := .next (blockCmd c 2 block s)

/-- BLOCK_POWER_UP (R38). -/
def execBlockPowerUp (c : CoreId) (block : Fin 32) (s : State) : Outcome State Fault Refusal := .next (blockCmd c 3 block s)

/-- BLOCK_NO_ACTION: no effect (R38). -/
def execBlockNoAction (c : CoreId) (block : Fin 32) (s : State) : Outcome State Fault Refusal := .next (blockCmd c 0 block s)

/-- PEAK_CLEAR (R48). -/
def execPeakClear (c : CoreId) (s : State) : Outcome State Fault Refusal := .next (coreWrite c .put 0x040C 1 s)

/-- PROBE_SELECT (R48). -/
def execProbeSelect (c : CoreId) (queue : Byte) (s : State) : Outcome State Fault Refusal :=
  .next (coreWrite c .put 0x0409 (queue.setWidth 32) s)

/-- REQUEST_RUN: MODE_REQUEST with TARGET 4 (R52). -/
def execRequestRun (c : CoreId) (s : State) : Outcome State Fault Refusal := .next (coreWrite c .put 0x0011 4 s)

/-- REQUEST_HOLD: MODE_REQUEST with TARGET 5 (R52). -/
def execRequestHold (c : CoreId) (s : State) : Outcome State Fault Refusal := .next (coreWrite c .put 0x0011 5 s)

/-- REQUEST_QUIET: MODE_REQUEST with TARGET 6 (R52). -/
def execRequestQuiet (c : CoreId) (s : State) : Outcome State Fault Refusal := .next (coreWrite c .put 0x0011 6 s)

/-- REQUEST_STANDBY: MODE_REQUEST with TARGET 1 (R52). -/
def execRequestStandby (c : CoreId) (s : State) : Outcome State Fault Refusal := .next (coreWrite c .put 0x0011 1 s)

/-- REQUEST_TRIP: MODE_REQUEST with TARGET 9 (R52). -/
def execRequestTrip (c : CoreId) (s : State) : Outcome State Fault Refusal := .next (coreWrite c .put 0x0011 9 s)

/-- REQUEST_MAINTENANCE: MODE_REQUEST with TARGET 10 (R52). -/
def execRequestMaintenance (c : CoreId) (s : State) : Outcome State Fault Refusal := .next (coreWrite c .put 0x0011 10 s)

/-- CORE_WDOG_KICK (R98). -/
def execCoreWdogKick (c : CoreId) (target : CoreId) (s : State) : Outcome State Fault Refusal :=
  .next (coreWrite c .put (coreAddr target 0xA) 0 s)

/-- CORE_START: START alone, AUTO as it stands (R109). -/
def execCoreStart (c : CoreId) (target : CoreId) (s : State) : Outcome State Fault Refusal :=
  .next (coreWrite c .setBits (coreAddr target 1) 1 s)

/-- CORE_HALT: HALT alone, AUTO as it stands (R109). -/
def execCoreHalt (c : CoreId) (target : CoreId) (s : State) : Outcome State Fault Refusal :=
  .next (coreWrite c .setBits (coreAddr target 1) 2 s)

/-- CORE_QBIND (R100). -/
def execCoreQbind (c : CoreId) (target : CoreId) (port : Fin 8) (val : Word) (s : State) : Outcome State Fault Refusal :=
  .next (coreWrite c .put (qbindAddr target port) val s)

/-- QBV_LIST_WRITE (R189). -/
def execQbvListWrite (c : CoreId) (port : Fin 2) (entry : Fin 16) (val : Word) (s : State) : Outcome State Fault Refusal :=
  .next (coreWrite c .put (0x1C40 + 16 * port.val + entry.val) val s)

/-- PORT_MODE_WRITE (R172). -/
def execPortModeWrite (c : CoreId) (port : Fin 2) (val : Word) (s : State) : Outcome State Fault Refusal :=
  .next (coreWrite c .put (0x1C00 + port.val) val s)

/-- TIME_REARM (R178). -/
def execTimeRearm (c : CoreId) (s : State) : Outcome State Fault Refusal := .next (coreWrite c .put 0x2007 1 s)

/-- TIME_NOW_READ: the low half, with the high half latched (R192). -/
def execTimeNowRead (c : CoreId) (rd : Reg) (s : State) : Outcome State Fault Refusal := .next (coreRead c rd 0x2000 s)

/-- STREAM_JOIN: the enable word of a stream, whose format the outside names; a third stream has no word of its own (R179, R184). -/
def execStreamJoin (c : CoreId) (stream : Nat) (progressive : Bool) (enable : Word) (s : State) : Outcome State Fault Refusal :=
  .next (coreWriteBy (fun v _ => joinRule stream progressive v) c .put (0x1C25 + 6 * min stream 1) enable s)

/-- E131_MAP_WRITE (R181). -/
def execE131MapWrite (c : CoreId) (entry : Fin 128) (half : Fin 2) (val : Word) (s : State) : Outcome State Fault Refusal :=
  .next (coreWrite c .put (0x1D00 + 2 * entry.val + half.val) val s)

/-- HOL_RECOVER (R206). -/
def execHolRecover (c : CoreId) (mask : Fin 4) (s : State) : Outcome State Fault Refusal :=
  .next (coreWrite c .put 0x2403 (numWord mask.val) s)

/-- HEST_ASSERT_CMD (R208). -/
def execHestAssertCmd (c : CoreId) (s : State) : Outcome State Fault Refusal := .next (coreWrite c .put 0x2405 1 s)

/-- HEST_RELEASE_CMD (R208). -/
def execHestReleaseCmd (c : CoreId) (s : State) : Outcome State Fault Refusal := .next (coreWrite c .put 0x2405 2 s)

/-- HOL_RESET_CMD (R210). -/
def execHolResetCmd (c : CoreId) (mask : BitVec 16) (s : State) : Outcome State Fault Refusal :=
  .next (coreWrite c .put 0x240C (mask.setWidth 32) s)

/-- DRAM_TEMP_WRITE (R235). -/
def execDramTempWrite (c : CoreId) (ch : Fin 2) (val : Word) (s : State) : Outcome State Fault Refusal :=
  .next (coreWrite c .put (chanAddr ch 0x14) val s)

/-- DRAM_RETRAIN (R238). -/
def execDramRetrain (c : CoreId) (ch : Fin 2) (s : State) : Outcome State Fault Refusal := .next (coreWrite c .put (chanAddr ch 0x1F) 1 s)

/-- DRAM_SPARE_CMD (R240). -/
def execDramSpareCmd (c : CoreId) (ch : Fin 2) (val : Word) (s : State) : Outcome State Fault Refusal :=
  .next (coreWrite c .put (chanAddr ch 0x1D) val s)

/-- BANK_RECLAIM (R257). -/
def execBankReclaim (c : CoreId) (val : Word) (s : State) : Outcome State Fault Refusal := .next (coreWrite c .put 0x1021 val s)

/-- BANK_POWER_WRITE (R260). -/
def execBankPowerWrite (c : CoreId) (val : Word) (s : State) : Outcome State Fault Refusal := .next (coreWrite c .put 0x1020 val s)

/-- PANEL_PLAY_READY (R270). -/
def execPanelPlayReady (c : CoreId) (buffer : Fin 4) (s : State) : Outcome State Fault Refusal :=
  .next (coreWrite c .put 0x2833 (numWord buffer.val) s)

/-- PANEL_TABLES_NEXT (R283). -/
def execPanelTablesNext (c : CoreId) (val : Word) (s : State) : Outcome State Fault Refusal := .next (coreWrite c .put 0x2807 val s)

/-- KSL_RETRAIN (R305). -/
def execKslRetrain (c : CoreId) (s : State) : Outcome State Fault Refusal := .next (coreWrite c .put 0x2866 1 s)

/-- SCAN_E_SEND_CURRENT (R299). -/
def execScanESendCurrent (c : CoreId) (s : State) : Outcome State Fault Refusal := .next (coreWrite c .put 0x2853 2 s)

/-- SCAN_E_SEND_CONFIG (R299). -/
def execScanESendConfig (c : CoreId) (s : State) : Outcome State Fault Refusal := .next (coreWrite c .put 0x2853 1 s)

/-- SCAN_WORD_WRITE: a write of a scan word, at 0x2840 to 0x287F (R309). -/
def execScanWordWrite (c : CoreId) (addr : BitVec 16) (val : Word) (s : State) : Outcome State Fault Refusal :=
  .next (if 0x2840 ≤ addr.toNat && addr.toNat < 0x2880 then coreWrite c .put addr.toNat val s else s)

/-- LED_LEVEL_WRITE (R327). -/
def execLedLevelWrite (c : CoreId) (ch : Fin 64) (val : Word) (s : State) : Outcome State Fault Refusal :=
  .next (coreWrite c .put (ledChAddr ch 0) val s)

/-- LED_FADE_GO (R326). -/
def execLedFadeGo (c : CoreId) (d : Die) (mask : Word) (s : State) : Outcome State Fault Refusal :=
  .next (coreWrite c .put (ledAddr (dieIx d) 7) mask s)

/-- LED_MATRIX_SWAP (R333). -/
def execLedMatrixSwap (c : CoreId) (d : Die) (s : State) : Outcome State Fault Refusal :=
  .next (coreWrite c .put (ledAddr (dieIx d) 0x15) 1 s)

/-- LED_MATRIX_DATA (R332). -/
def execLedMatrixData (c : CoreId) (d : Die) (i : Fin 256) (val : Word) (s : State) : Outcome State Fault Refusal :=
  .next (coreWrite c .put (ledAddr (dieIx d) (0x100 + i.val)) val s)

/-- LED_DERATE_WRITE (R334). -/
def execLedDerateWrite (c : CoreId) (d : Die) (i : Fin 4) (val : Word) (s : State) : Outcome State Fault Refusal :=
  .next (coreWrite c .put (ledAddr (dieIx d) (0x10 + i.val)) val s)

/-- LED_GDARK_CLEAR (R337). -/
def execLedGdarkClear (c : CoreId) (d : Die) (mask : BitVec 16) (s : State) : Outcome State Fault Refusal :=
  .next (coreWrite c .put (ledAddr (dieIx d) 6) (mask.setWidth 32) s)

/-- LOOP_APPLY (R352). -/
def execLoopApply (c : CoreId) (val : Word) (s : State) : Outcome State Fault Refusal := .next (coreWrite c .put 0x4190 val s)

/-- LOOP_CTRL_WRITE (R353). -/
def execLoopCtrlWrite (c : CoreId) (slot : Fin 24) (val : Word) (s : State) : Outcome State Fault Refusal :=
  .next (coreWrite c .put (slotAddr slot.val 0) val s)

/-- LOOP_SAT_CLEAR: a W1C write of SAT_TRIPPED (R357). -/
def execLoopSatClear (c : CoreId) (slot : Fin 24) (s : State) : Outcome State Fault Refusal :=
  .next (coreWrite c .put (slotAddr slot.val 0xD) 2 s)

/-- TRACE_ARM (R361). -/
def execTraceArm (c : CoreId) (ch : Fin 8) (val : Word) (s : State) : Outcome State Fault Refusal :=
  .next (coreWrite c .put (traceAddr ch 0) val s)

/-- TRACE_FIRE (R361). -/
def execTraceFire (c : CoreId) (mask : Byte) (s : State) : Outcome State Fault Refusal :=
  .next (coreWrite c .put 0x6840 (mask.setWidth 32) s)

/-- ALIGN: a write of AXIS_CTRL (R389). -/
def execAlign (c : CoreId) (a : AxisId) (val : Word) (s : State) : Outcome State Fault Refusal :=
  .next (coreWrite c .put (axisAddr a 0) val s)

/-- AXIS_SHORT: a write of AXIS_CTRL (R394). -/
def execAxisShort (c : CoreId) (a : AxisId) (val : Word) (s : State) : Outcome State Fault Refusal :=
  .next (coreWrite c .put (axisAddr a 0) val s)

/-- GATE_TRIP_CLEAR (R419). -/
def execGateTripClear (c : CoreId) (d : Die) (mask : Word) (s : State) : Outcome State Fault Refusal :=
  .next (coreWrite c .put (gateAddr (dieIx d) 1) mask s)

/-- GATE_ENABLE: a write of GATE_AXIS_CTRL (R416). -/
def execGateEnable (c : CoreId) (a : AxisId) (val : Word) (s : State) : Outcome State Fault Refusal :=
  .next (coreWrite c .put (gateAxisAddr a 0) val s)

/-- GATE_TEST (R421). -/
def execGateTest (c : CoreId) (d : Die) (val : Word) (s : State) : Outcome State Fault Refusal :=
  .next (coreWrite c .put (gateAddr (dieIx d) 6) val s)

/-- MACH_STOP_CAT0: MACH_STOP_CMD with CAT 0 (R438). -/
def execMachStopCat0 (c : CoreId) (axes : BitVec 4) (s : State) : Outcome State Fault Refusal :=
  .next (coreWrite c .put 0x5081 (numWord (0 * 2 ^ 8 + axes.toNat)) s)

/-- MACH_STOP_CAT1: MACH_STOP_CMD with CAT 1 (R438). -/
def execMachStopCat1 (c : CoreId) (axes : BitVec 4) (s : State) : Outcome State Fault Refusal :=
  .next (coreWrite c .put 0x5081 (numWord (1 * 2 ^ 8 + axes.toNat)) s)

/-- MACH_STOP_CAT2: MACH_STOP_CMD with CAT 2 (R438). -/
def execMachStopCat2 (c : CoreId) (axes : BitVec 4) (s : State) : Outcome State Fault Refusal :=
  .next (coreWrite c .put 0x5081 (numWord (2 * 2 ^ 8 + axes.toNat)) s)

/-- MACH_STOP_CLEAR (R438). -/
def execMachStopClear (c : CoreId) (s : State) : Outcome State Fault Refusal := .next (coreWrite c .put 0x5082 1 s)

/-- BRAKE_RELEASE: RELEASE set (R441). -/
def execBrakeRelease (c : CoreId) (a : AxisId) (s : State) : Outcome State Fault Refusal := .next (coreWrite c .put (machAddr a 9) 1 s)

/-- BRAKE_SET: RELEASE cleared (R441). -/
def execBrakeSet (c : CoreId) (a : AxisId) (s : State) : Outcome State Fault Refusal := .next (coreWrite c .put (machAddr a 9) 0 s)

/-- POL_ENERGY_READ: FWD_LO or REG_LO of a channel, with its high half latched (R467). -/
def execPolEnergyRead (c : CoreId) (rd : Reg) (ch : Fin 4) (reg : Bool) (s : State) : Outcome State Fault Refusal :=
  .next (coreRead c rd (0x5810 + 12 * ch.val + 2 * b2n reg) s)

/-- TW_XFER (R480). -/
def execTwXfer (c : CoreId) (i : Fin 3) (val : Word) (s : State) : Outcome State Fault Refusal :=
  .next (coreWrite c .put (twAddr i 4) val s)

/-- TW_NOTICE (R488). -/
def execTwNotice (c : CoreId) (i : Fin 3) (val : Word) (s : State) : Outcome State Fault Refusal :=
  .next (coreWrite c .put (twAddr i 3) val s)

/-- TW_RECOVER: after how many pulses SDA reads high, the outside says (R490). -/
def execTwRecover (c : CoreId) (i : Fin 3) (pulses : Option (Fin 10)) (s : State) : Outcome State Fault Refusal :=
  .next (coreWriteBy (fun v _ => .accept v (recoverBus i pulses)) c .put (twAddr i 6) 1 s)

/-- THERM_CLEAR: a write of PWR_THERM (R509). -/
def execThermClear (c : CoreId) (val : Word) (s : State) : Outcome State Fault Refusal := .next (coreWrite c .put 0x0023 val s)

/-- FAULT_SEL (R537). -/
def execFaultSel (c : CoreId) (index : Byte) (s : State) : Outcome State Fault Refusal :=
  .next (coreWrite c .put 0x6403 (index.setWidth 32) s)

/-- FAULT_CLEAR (R534). -/
def execFaultClear (c : CoreId) (s : State) : Outcome State Fault Refusal := .next (coreWrite c .put 0x6408 1 s)

end Sys2Proof.Machine
end

