-- ==== Sys2Proof/Machine/Dispatch.lean ====
section
/-! DEFINITION. The dispatcher: one arm for each command of the table, in its order, each one direct call of its meaning. -/
namespace Sys2Proof.Machine

/-- The effect of a command on everything but the queue of waiting commands. -/
def exec (i : Instr) (s : State) : Host.Outcome State Fault Refusal :=
  match i with
  | .controlWrite c addr val => Sys2Proof.Machine.execControlWrite c addr val s
  | .vpolPresent => Sys2Proof.Machine.execVpolPresent s
  | .railLeavesWindow r => Sys2Proof.Machine.execRailLeavesWindow r s
  | .railOutOfRange r => Sys2Proof.Machine.execRailOutOfRange r s
  | .railInRange r => Sys2Proof.Machine.execRailInRange r s
  | .powerOnResetEnd => Sys2Proof.Machine.execPowerOnResetEnd s
  | .resetRelease boot mstr => Sys2Proof.Machine.execResetRelease boot mstr s
  | .resetNAssert => Sys2Proof.Machine.execResetNAssert s
  | .vaonLost => Sys2Proof.Machine.execVaonLost s
  | .edgeDieHandshakeTimeout d => Sys2Proof.Machine.execEdgeDieHandshakeTimeout d s
  | .edgeDieReport d why => Sys2Proof.Machine.execEdgeDieReport d why s
  | .edgeCoreSilence d => Sys2Proof.Machine.execEdgeCoreSilence d s
  | .edgeLedHoldExpiry d => Sys2Proof.Machine.execEdgeLedHoldExpiry d s
  | .polderChannelSilent => Sys2Proof.Machine.execPolderChannelSilent s
  | .fabricSpeedUpdate hsTime => Sys2Proof.Machine.execFabricSpeedUpdate hsTime s
  | .domainClockLost d => Sys2Proof.Machine.execDomainClockLost d s
  | .domainClockReturn d => Sys2Proof.Machine.execDomainClockReturn d s
  | .blockReset c block => Sys2Proof.Machine.execBlockReset c block s
  | .blockPowerDown c block => Sys2Proof.Machine.execBlockPowerDown c block s
  | .blockPowerUp c block => Sys2Proof.Machine.execBlockPowerUp c block s
  | .blockNoAction c block => Sys2Proof.Machine.execBlockNoAction c block s
  | .blockReadmit block feature => Sys2Proof.Machine.execBlockReadmit block feature s
  | .fabricStall requester target ageUs => Sys2Proof.Machine.execFabricStall requester target ageUs s
  | .peakClear c => Sys2Proof.Machine.execPeakClear c s
  | .probeSelect c queue => Sys2Proof.Machine.execProbeSelect c queue s
  | .requestRun c => Sys2Proof.Machine.execRequestRun c s
  | .requestHold c => Sys2Proof.Machine.execRequestHold c s
  | .requestQuiet c => Sys2Proof.Machine.execRequestQuiet c s
  | .requestStandby c => Sys2Proof.Machine.execRequestStandby c s
  | .requestTrip c => Sys2Proof.Machine.execRequestTrip c s
  | .requestMaintenance c => Sys2Proof.Machine.execRequestMaintenance c s
  | .bootSlotRead secondary => Sys2Proof.Machine.execBootSlotRead secondary s
  | .wiringChecksDone failed => Sys2Proof.Machine.execWiringChecksDone failed s
  | .featureCheck words => Sys2Proof.Machine.execFeatureCheck words s
  | .entryReady c => Sys2Proof.Machine.execEntryReady c s
  | .admitTimeout => Sys2Proof.Machine.execAdmitTimeout s
  | .wakeBall => Sys2Proof.Machine.execWakeBall s
  | .standbyAlarm => Sys2Proof.Machine.execStandbyAlarm s
  | .polderWake => Sys2Proof.Machine.execPolderWake s
  | .standbyCommit => Sys2Proof.Machine.execStandbyCommit s
  | .add c rd ra rb => Sys2Proof.Machine.execAdd c rd ra rb s
  | .sub c rd ra rb => Sys2Proof.Machine.execSub c rd ra rb s
  | .and c rd ra rb => Sys2Proof.Machine.execAnd c rd ra rb s
  | .or c rd ra rb => Sys2Proof.Machine.execOr c rd ra rb s
  | .xor c rd ra rb => Sys2Proof.Machine.execXor c rd ra rb s
  | .shl c rd ra rb => Sys2Proof.Machine.execShl c rd ra rb s
  | .shr c rd ra rb => Sys2Proof.Machine.execShr c rd ra rb s
  | .sar c rd ra rb => Sys2Proof.Machine.execSar c rd ra rb s
  | .addi c rd ra imm => Sys2Proof.Machine.execAddi c rd ra imm s
  | .andi c rd ra imm => Sys2Proof.Machine.execAndi c rd ra imm s
  | .ori c rd ra imm => Sys2Proof.Machine.execOri c rd ra imm s
  | .xori c rd ra imm => Sys2Proof.Machine.execXori c rd ra imm s
  | .shli c rd ra imm => Sys2Proof.Machine.execShli c rd ra imm s
  | .shri c rd ra imm => Sys2Proof.Machine.execShri c rd ra imm s
  | .sari c rd ra imm => Sys2Proof.Machine.execSari c rd ra imm s
  | .lui c rd imm => Sys2Proof.Machine.execLui c rd imm s
  | .mul c rd ra rb => Sys2Proof.Machine.execMul c rd ra rb s
  | .mull c rd ra rb => Sys2Proof.Machine.execMull c rd ra rb s
  | .mulq c rd ra rb => Sys2Proof.Machine.execMulq c rd ra rb s
  | .mac c rd ra rb => Sys2Proof.Machine.execMac c rd ra rb s
  | .macs c rd ra rb => Sys2Proof.Machine.execMacs c rd ra rb s
  | .extq c rd ra imm => Sys2Proof.Machine.execExtq c rd ra imm s
  | .cmp c ra rb => Sys2Proof.Machine.execCmp c ra rb s
  | .cmpi c ra imm => Sys2Proof.Machine.execCmpi c ra imm s
  | .bcc c cond imm => Sys2Proof.Machine.execBcc c cond imm s
  | .bl c rd imm => Sys2Proof.Machine.execBl c rd imm s
  | .jr c ra => Sys2Proof.Machine.execJr c ra s
  | .ldw c rd ra imm => Sys2Proof.Machine.execLdw c rd ra imm s
  | .ldb c rd ra imm => Sys2Proof.Machine.execLdb c rd ra imm s
  | .ldbu c rd ra imm => Sys2Proof.Machine.execLdbu c rd ra imm s
  | .stw c rd ra imm => Sys2Proof.Machine.execStw c rd ra imm s
  | .stb c rd ra imm => Sys2Proof.Machine.execStb c rd ra imm s
  | .fldw c rd ra imm => Sys2Proof.Machine.execFldw c rd ra imm s
  | .fldd c rd ra imm => Sys2Proof.Machine.execFldd c rd ra imm s
  | .fstw c rd ra imm => Sys2Proof.Machine.execFstw c rd ra imm s
  | .fstd c rd ra imm => Sys2Proof.Machine.execFstd c rd ra imm s
  | .farReply c idx => Sys2Proof.Machine.execFarReply c idx s
  | .swap c rd ra rb => Sys2Proof.Machine.execSwap c rd ra rb s
  | .addm c rd ra rb => Sys2Proof.Machine.execAddm c rd ra rb s
  | .send c rd imm => Sys2Proof.Machine.execSend c rd imm s
  | .take c rd imm => Sys2Proof.Machine.execTake c rd imm s
  | .peek c rd imm => Sys2Proof.Machine.execPeek c rd imm s
  | .wait c rd ra => Sys2Proof.Machine.execWait c rd ra s
  | .waitWake c => Sys2Proof.Machine.execWaitWake c s
  | .event c imm => Sys2Proof.Machine.execEvent c imm s
  | .tack c rd tn ra rb => Sys2Proof.Machine.execTack c rd tn ra rb s
  | .tackp c rd tn ra rb rc => Sys2Proof.Machine.execTackp c rd tn ra rb rc s
  | .untack c rd ra => Sys2Proof.Machine.execUntack c rd ra s
  | .tnow c tn => Sys2Proof.Machine.execTnow c tn s
  | .tadd c tn ra => Sys2Proof.Machine.execTadd c tn ra s
  | .tget c rd tn => Sys2Proof.Machine.execTget c rd tn s
  | .tput c tn ra => Sys2Proof.Machine.execTput c tn ra s
  | .cget c rd ra imm => Sys2Proof.Machine.execCget c rd ra imm s
  | .cput c rd ra imm => Sys2Proof.Machine.execCput c rd ra imm s
  | .cset c rd ra imm => Sys2Proof.Machine.execCset c rd ra imm s
  | .cclr c rd ra imm => Sys2Proof.Machine.execCclr c rd ra imm s
  | .csRunReplies c => Sys2Proof.Machine.execCsRunReplies c s
  | .bgive c rd imm => Sys2Proof.Machine.execBgive c rd imm s
  | .btake c rd ra => Sys2Proof.Machine.execBtake c rd ra s
  | .claim c rd ra => Sys2Proof.Machine.execClaim c rd ra s
  | .yield c rd ra => Sys2Proof.Machine.execYield c rd ra s
  | .trap c imm => Sys2Proof.Machine.execTrap c imm s
  | .returnFromTrap c imm => Sys2Proof.Machine.execReturnFromTrap c imm s
  | .nop c => Sys2Proof.Machine.execNop c s
  | .halt c => Sys2Proof.Machine.execHalt c s
  | .illegalOpcode c word => Sys2Proof.Machine.execIllegalOpcode c word s
  | .orderSubmit c => Sys2Proof.Machine.execOrderSubmit c s
  | .mergeCycleEnd => Sys2Proof.Machine.execMergeCycleEnd s
  | .tackFire handle => Sys2Proof.Machine.execTackFire handle s
  | .tackHandover handle => Sys2Proof.Machine.execTackHandover handle s
  | .retimerLaunch handle => Sys2Proof.Machine.execRetimerLaunch handle s
  | .watchdogTrap c => Sys2Proof.Machine.execWatchdogTrap c s
  | .coreWatchdog c => Sys2Proof.Machine.execCoreWatchdog c s
  | .coreWdogKick c target => Sys2Proof.Machine.execCoreWdogKick c target s
  | .coreStart c target => Sys2Proof.Machine.execCoreStart c target s
  | .coreHalt c target => Sys2Proof.Machine.execCoreHalt c target s
  | .coreQbind c target port val => Sys2Proof.Machine.execCoreQbind c target port val s
  | .hello d => Sys2Proof.Machine.execHello d s
  | .bye d => Sys2Proof.Machine.execBye d s
  | .keepalive d => Sys2Proof.Machine.execKeepalive d s
  | .order d => Sys2Proof.Machine.execOrder d s
  | .query d => Sys2Proof.Machine.execQuery d s
  | .answer => Sys2Proof.Machine.execAnswer s
  | .notice => Sys2Proof.Machine.execNotice s
  | .sleep d => Sys2Proof.Machine.execSleep d s
  | .knpFragment d => Sys2Proof.Machine.execKnpFragment d s
  | .knpReassemblyTimeout slot msg => Sys2Proof.Machine.execKnpReassemblyTimeout slot msg s
  | .offeredTimeout slot => Sys2Proof.Machine.execOfferedTimeout slot s
  | .sessionTimeout slot => Sys2Proof.Machine.execSessionTimeout slot s
  | .imageBegin d => Sys2Proof.Machine.execImageBegin d s
  | .imageData d => Sys2Proof.Machine.execImageData d s
  | .imageEnd d => Sys2Proof.Machine.execImageEnd d s
  | .bootSlotWriteDone ok => Sys2Proof.Machine.execBootSlotWriteDone ok s
  | .updateCommit d => Sys2Proof.Machine.execUpdateCommit d s
  | .updateImagesReplaced => Sys2Proof.Machine.execUpdateImagesReplaced s
  | .stagedImageExpiry => Sys2Proof.Machine.execStagedImageExpiry s
  | .reopenPassword d => Sys2Proof.Machine.execReopenPassword d s
  | .challengeReq d => Sys2Proof.Machine.execChallengeReq d s
  | .reopenResponse d => Sys2Proof.Machine.execReopenResponse d s
  | .challengeNonceExpiry => Sys2Proof.Machine.execChallengeNonceExpiry s
  | .reopenLockoutExpiry => Sys2Proof.Machine.execReopenLockoutExpiry s
  | .seal d => Sys2Proof.Machine.execSeal d s
  | .jtagIdcode => Sys2Proof.Machine.execJtagIdcode s
  | .jtagBypass refused => Sys2Proof.Machine.execJtagBypass refused s
  | .jtagSample => Sys2Proof.Machine.execJtagSample s
  | .jtagExtest => Sys2Proof.Machine.execJtagExtest s
  | .jtagCoreDebug c op => Sys2Proof.Machine.execJtagCoreDebug c op s
  | .jtagFuseProgram pub secret => Sys2Proof.Machine.execJtagFuseProgram pub secret s
  | .ethFrameRx port f => Sys2Proof.Machine.execEthFrameRx port f s
  | .macAgeOut mac => Sys2Proof.Machine.execMacAgeOut mac s
  | .qbvCycleStart port => Sys2Proof.Machine.execQbvCycleStart port s
  | .qbvListWrite c port entry val => Sys2Proof.Machine.execQbvListWrite c port entry val s
  | .linkUp port speed => Sys2Proof.Machine.execLinkUp port speed s
  | .linkDown port => Sys2Proof.Machine.execLinkDown port s
  | .portModeWrite c port val => Sys2Proof.Machine.execPortModeWrite c port val s
  | .ptpSync port offset intervalNs => Sys2Proof.Machine.execPtpSync port offset intervalNs s
  | .ptpSyncTimeout => Sys2Proof.Machine.execPtpSyncTimeout s
  | .ptpHoldoverExpired => Sys2Proof.Machine.execPtpHoldoverExpired s
  | .timeRearm c => Sys2Proof.Machine.execTimeRearm c s
  | .timeNowRead c rd => Sys2Proof.Machine.execTimeNowRead c rd s
  | .streamJoin c stream progressive enable => Sys2Proof.Machine.execStreamJoin c stream progressive enable s
  | .st2110Packet stream p => Sys2Proof.Machine.execSt2110Packet stream p s
  | .e131Data p => Sys2Proof.Machine.execE131Data p s
  | .e131Sync addr => Sys2Proof.Machine.execE131Sync addr s
  | .e131SyncTimeout => Sys2Proof.Machine.execE131SyncTimeout s
  | .e131SourceLost univ source => Sys2Proof.Machine.execE131SourceLost univ source s
  | .e131Discovery => Sys2Proof.Machine.execE131Discovery s
  | .e131MapWrite c entry half val => Sys2Proof.Machine.execE131MapWrite c entry half val s
  | .holCycleStart => Sys2Proof.Machine.execHolCycleStart s
  | .holFrameForward port f => Sys2Proof.Machine.execHolFrameForward port f s
  | .holCycleSyncRx port f => Sys2Proof.Machine.execHolCycleSyncRx port f s
  | .holSlotTableSend => Sys2Proof.Machine.execHolSlotTableSend s
  | .holSlotTableRx port f slots => Sys2Proof.Machine.execHolSlotTableRx port f slots s
  | .holClaimSend => Sys2Proof.Machine.execHolClaimSend s
  | .holClaimRx port f => Sys2Proof.Machine.execHolClaimRx port f s
  | .holClaimTimeout => Sys2Proof.Machine.execHolClaimTimeout s
  | .holMasterLost => Sys2Proof.Machine.execHolMasterLost s
  | .holLinkDown port => Sys2Proof.Machine.execHolLinkDown port s
  | .holCycleStartMissing port => Sys2Proof.Machine.execHolCycleStartMissing port s
  | .holRingRejoin port => Sys2Proof.Machine.execHolRingRejoin port s
  | .holPortUp port => Sys2Proof.Machine.execHolPortUp port s
  | .holErrorScore port score delay => Sys2Proof.Machine.execHolErrorScore port score delay s
  | .holRecover c mask => Sys2Proof.Machine.execHolRecover c mask s
  | .hestAsserted => Sys2Proof.Machine.execHestAsserted s
  | .hestAssertCmd c => Sys2Proof.Machine.execHestAssertCmd c s
  | .hestReleaseCmd c => Sys2Proof.Machine.execHestReleaseCmd c s
  | .holEmergencyRx node e => Sys2Proof.Machine.execHolEmergencyRx node e s
  | .holBulkRx p => Sys2Proof.Machine.execHolBulkRx p s
  | .holBulkSend handed => Sys2Proof.Machine.execHolBulkSend handed s
  | .holBootPacket p => Sys2Proof.Machine.execHolBootPacket p s
  | .holResetCmd c mask => Sys2Proof.Machine.execHolResetCmd c mask s
  | .holCascadeResetRx f => Sys2Proof.Machine.execHolCascadeResetRx f s
  | .holSliceRx x => Sys2Proof.Machine.execHolSliceRx x s
  | .dramRequest src => Sys2Proof.Machine.execDramRequest src s
  | .dramServe ch idx ecc => Sys2Proof.Machine.execDramServe ch idx ecc s
  | .dramOverdue ch idx => Sys2Proof.Machine.execDramOverdue ch idx s
  | .dramRefreshDue ch rank => Sys2Proof.Machine.execDramRefreshDue ch rank s
  | .dramMprPoll ch range => Sys2Proof.Machine.execDramMprPoll ch range s
  | .dramTempWrite c ch val => Sys2Proof.Machine.execDramTempWrite c ch val s
  | .dramTempStale ch => Sys2Proof.Machine.execDramTempStale ch s
  | .dramSrIdle ch => Sys2Proof.Machine.execDramSrIdle ch s
  | .dramSrCommit ch => Sys2Proof.Machine.execDramSrCommit ch s
  | .dramSrExit ch => Sys2Proof.Machine.execDramSrExit ch s
  | .dramTraining ch found works => Sys2Proof.Machine.execDramTraining ch found works s
  | .dramRetrain c ch => Sys2Proof.Machine.execDramRetrain c ch s
  | .dramRetrainSlice ch rank ok => Sys2Proof.Machine.execDramRetrainSlice ch rank ok s
  | .dramAlert ch cs => Sys2Proof.Machine.execDramAlert ch cs s
  | .dramZeroInit ch => Sys2Proof.Machine.execDramZeroInit ch s
  | .dramScrubLine ch ecc => Sys2Proof.Machine.execDramScrubLine ch ecc s
  | .dramSpareCmd c ch val => Sys2Proof.Machine.execDramSpareCmd c ch val s
  | .dramMigrateLine ch ecc => Sys2Proof.Machine.execDramMigrateLine ch ecc s
  | .bankReclaim c val => Sys2Proof.Machine.execBankReclaim c val s
  | .bankPowerWrite c val => Sys2Proof.Machine.execBankPowerWrite c val s
  | .bankFillDone bank => Sys2Proof.Machine.execBankFillDone bank s
  | .panelBufferComplete slot buffer => Sys2Proof.Machine.execPanelBufferComplete slot buffer s
  | .panelPlayReady c buffer => Sys2Proof.Machine.execPanelPlayReady c buffer s
  | .panelTablesNext c val => Sys2Proof.Machine.execPanelTablesNext c val s
  | .slotSleep slot => Sys2Proof.Machine.execSlotSleep slot s
  | .scanSelect => Sys2Proof.Machine.execScanSelect s
  | .scanFrameStart => Sys2Proof.Machine.execScanFrameStart s
  | .scanRefreshStart => Sys2Proof.Machine.execScanRefreshStart s
  | .scanLineStart poison => Sys2Proof.Machine.execScanLineStart poison s
  | .fsyncEdge => Sys2Proof.Machine.execFsyncEdge s
  | .kslTrainStart => Sys2Proof.Machine.execKslTrainStart s
  | .kslLockCheck lockedHigh => Sys2Proof.Machine.execKslLockCheck lockedHigh s
  | .kslLockLost => Sys2Proof.Machine.execKslLockLost s
  | .kslRetrain c => Sys2Proof.Machine.execKslRetrain c s
  | .kslQuietWake lockedHigh => Sys2Proof.Machine.execKslQuietWake lockedHigh s
  | .scanESendCurrent c => Sys2Proof.Machine.execScanESendCurrent c s
  | .scanESendConfig c => Sys2Proof.Machine.execScanESendConfig c s
  | .scanWordWrite c addr val => Sys2Proof.Machine.execScanWordWrite c addr val s
  | .ledReload ch sinkMilliVolts => Sys2Proof.Machine.execLedReload ch sinkMilliVolts s
  | .ledLevelWrite c ch val => Sys2Proof.Machine.execLedLevelWrite c ch val s
  | .ledFadeGo c d mask => Sys2Proof.Machine.execLedFadeGo c d mask s
  | .ledMatrixSwap c d => Sys2Proof.Machine.execLedMatrixSwap c d s
  | .ledMatrixData c d ix val => Sys2Proof.Machine.execLedMatrixData c d ix val s
  | .ledNtcMeasure input ohms => Sys2Proof.Machine.execLedNtcMeasure input ohms s
  | .ledDerateWrite c d ix val => Sys2Proof.Machine.execLedDerateWrite c d ix val s
  | .ledDiagInterval d => Sys2Proof.Machine.execLedDiagInterval d s
  | .ledDiagStretch ch => Sys2Proof.Machine.execLedDiagStretch ch s
  | .ledGdarkClear c d mask => Sys2Proof.Machine.execLedGdarkClear c d mask s
  | .axisSample a => Sys2Proof.Machine.execAxisSample a s
  | .sdmWord a ca cb => Sys2Proof.Machine.execSdmWord a ca cb s
  | .sarConversion input code => Sys2Proof.Machine.execSarConversion input code s
  | .loopEval slot => Sys2Proof.Machine.execLoopEval slot s
  | .loopGridTick => Sys2Proof.Machine.execLoopGridTick s
  | .loopApply c val => Sys2Proof.Machine.execLoopApply c val s
  | .loopCtrlWrite c slot val => Sys2Proof.Machine.execLoopCtrlWrite c slot val s
  | .loopSatClear c slot => Sys2Proof.Machine.execLoopSatClear c slot s
  | .traceArm c ch val => Sys2Proof.Machine.execTraceArm c ch val s
  | .traceFire c mask => Sys2Proof.Machine.execTraceFire c mask s
  | .traceSample ch => Sys2Proof.Machine.execTraceSample ch s
  | .ssiFrame a word crc => Sys2Proof.Machine.execSsiFrame a word crc s
  | .abzEdge a la lb lz => Sys2Proof.Machine.execAbzEdge a la lb lz s
  | .align c a val => Sys2Proof.Machine.execAlign c a val s
  | .alignPhaseTimer a m => Sys2Proof.Machine.execAlignPhaseTimer a m s
  | .sensorlessStart a => Sys2Proof.Machine.execSensorlessStart a s
  | .startStateTimer a => Sys2Proof.Machine.execStartStateTimer a s
  | .axisShort c a val => Sys2Proof.Machine.execAxisShort c a val s
  | .gateCompareGroup a g => Sys2Proof.Machine.execGateCompareGroup a g s
  | .gateReload a => Sys2Proof.Machine.execGateReload a s
  | .gateTrip r phase => Sys2Proof.Machine.execGateTrip r phase s
  | .stoDiscrepancy => Sys2Proof.Machine.execStoDiscrepancy s
  | .bootUvHold ch => Sys2Proof.Machine.execBootUvHold ch s
  | .bootUvRelease ch => Sys2Proof.Machine.execBootUvRelease ch s
  | .gateTripClear c d mask => Sys2Proof.Machine.execGateTripClear c d mask s
  | .gateEnable c a val => Sys2Proof.Machine.execGateEnable c a val s
  | .gateTest c d val => Sys2Proof.Machine.execGateTest c d val s
  | .gateTestEnd d tripped => Sys2Proof.Machine.execGateTestEnd d tripped s
  | .machGroupCycle => Sys2Proof.Machine.execMachGroupCycle s
  | .stopDemand cat why => Sys2Proof.Machine.execStopDemand cat why s
  | .stopStandstill a => Sys2Proof.Machine.execStopStandstill a s
  | .stopSetTimer => Sys2Proof.Machine.execStopSetTimer s
  | .machStopEscalated a => Sys2Proof.Machine.execMachStopEscalated a s
  | .cat0Demand why => Sys2Proof.Machine.execCat0Demand why s
  | .machStopCat0 c axes => Sys2Proof.Machine.execMachStopCat0 c axes s
  | .machStopCat1 c axes => Sys2Proof.Machine.execMachStopCat1 c axes s
  | .machStopCat2 c axes => Sys2Proof.Machine.execMachStopCat2 c axes s
  | .machStopClear c => Sys2Proof.Machine.execMachStopClear c s
  | .brakeRelease c a => Sys2Proof.Machine.execBrakeRelease c a s
  | .brakeProveDone a => Sys2Proof.Machine.execBrakeProveDone a s
  | .brakeReleaseConfirm a coil => Sys2Proof.Machine.execBrakeReleaseConfirm a coil s
  | .brakeShort a coil => Sys2Proof.Machine.execBrakeShort a coil s
  | .brakeSet c a => Sys2Proof.Machine.execBrakeSet c a s
  | .brakeSetTimeout a coil => Sys2Proof.Machine.execBrakeSetTimeout a coil s
  | .polderBlock ch0 ch1 ch2 ch3 => Sys2Proof.Machine.execPolderBlock ch0 ch1 ch2 ch3 s
  | .polderPulse ch => Sys2Proof.Machine.execPolderPulse ch s
  | .polderDemandEnd => Sys2Proof.Machine.execPolderDemandEnd s
  | .polderFrameSend => Sys2Proof.Machine.execPolderFrameSend s
  | .polderFrameRx crcOk => Sys2Proof.Machine.execPolderFrameRx crcOk s
  | .polderCmdFullFrame => Sys2Proof.Machine.execPolderCmdFullFrame s
  | .polderCmdSlow => Sys2Proof.Machine.execPolderCmdSlow s
  | .polderCmdResend => Sys2Proof.Machine.execPolderCmdResend s
  | .polEnergyRead c rd ch reg => Sys2Proof.Machine.execPolEnergyRead c rd ch reg s
  | .polderReadout => Sys2Proof.Machine.execPolderReadout s
  | .polderProgEnter password => Sys2Proof.Machine.execPolderProgEnter password s
  | .polderCalWrite ch param val => Sys2Proof.Machine.execPolderCalWrite ch param val s
  | .polderSeal => Sys2Proof.Machine.execPolderSeal s
  | .polderTimeSet time => Sys2Proof.Machine.execPolderTimeSet time s
  | .polderLockoutExpiry => Sys2Proof.Machine.execPolderLockoutExpiry s
  | .polderCalenRise => Sys2Proof.Machine.execPolderCalenRise s
  | .polderIntegrityCheck intact => Sys2Proof.Machine.execPolderIntegrityCheck intact s
  | .polderSave => Sys2Proof.Machine.execPolderSave s
  | .polderVpolDown saved => Sys2Proof.Machine.execPolderVpolDown saved s
  | .polderVpolUp intact => Sys2Proof.Machine.execPolderVpolUp intact s
  | .twXfer c ix val => Sys2Proof.Machine.execTwXfer c ix val s
  | .twXferDone ix o => Sys2Proof.Machine.execTwXferDone ix o s
  | .twTargetWrite ix bytes lostStop => Sys2Proof.Machine.execTwTargetWrite ix bytes lostStop s
  | .twTargetRead ix n => Sys2Proof.Machine.execTwTargetRead ix n s
  | .twReportSend ix => Sys2Proof.Machine.execTwReportSend ix s
  | .twNotice c ix val => Sys2Proof.Machine.execTwNotice c ix val s
  | .twNoticeRetry ix => Sys2Proof.Machine.execTwNoticeRetry ix s
  | .stretchTimeout ix => Sys2Proof.Machine.execStretchTimeout ix s
  | .twRecover c ix pulses => Sys2Proof.Machine.execTwRecover c ix pulses s
  | .twBusFree ix => Sys2Proof.Machine.execTwBusFree ix s
  | .thermalRead core west east vcoreMv => Sys2Proof.Machine.execThermalRead core west east vcoreMv s
  | .edgeThermalShutdown d temp => Sys2Proof.Machine.execEdgeThermalShutdown d temp s
  | .thermClear c val => Sys2Proof.Machine.execThermClear c val s
  | .faultSel c index => Sys2Proof.Machine.execFaultSel c index s
  | .faultClear c => Sys2Proof.Machine.execFaultClear c s
  | .edgeDieAnswer d => Sys2Proof.Machine.execEdgeDieAnswer d s
  | .hestNReleased => Sys2Proof.Machine.execHestNReleased s
  | .tripSourceInactive src => Sys2Proof.Machine.execTripSourceInactive src s
  | .polderCalenFall => Sys2Proof.Machine.execPolderCalenFall s

end Sys2Proof.Machine
end

