-- ==== Sys2Proof/Machine/Step.lean ====
section
/-! DEFINITION. One step: the command at the front of the queue acts on the state without it; where none waits, 8 ns pass. -/
namespace Sys2Proof.Machine

/-- The step: the front command is taken out of the queue and executed; on an empty queue 8 ns of time pass (DESIGN CHOICE: log
entry 2). -/
def step (s : State) : Host.Outcome State Fault Refusal :=
  match s.pending with
  | c :: rest => exec c { s with pending := rest }
  | [] => .next (tick s)

/-- The command that a word spells by the table's bits, put at the front of the queue. The table gives no row any bits, so no word spells a
command and the state stays. -/
def State.withFetchWord (s : State) (nbits w : Nat) : State :=
  match decodeTableWord nbits w with
  | some c => { s with pending := c :: s.pending }
  | none => s

end Sys2Proof.Machine
end

