-- ==== Sys2Proof/Safety.lean ====
section
/-! DEFINITION. What the claims speak of: a safe state, memory in canonical form, and a core that runs its next instruction. -/
namespace Sys2Proof.Machine

/-! ### Memory -/

/-- The canonical form of memory: the bytes of the banks and of both DRAM channels, the stored control words and the panel words in effect are
listed with rising addresses, and no entry equals what an unlisted address reads as. -/
def Memory.wf (s : State) : Bool :=
  swf resetWord s.words && swf resetWord s.panel.applied && swf cellDefault s.cells &&
    (List.finRange 2).all fun ch => swf (dramDefault (s.chan ch).epoch) (s.chan ch).cells

/-! ### The machinery -/

/-- A gate output is off: it sinks, or gives no current (R408, R418). -/
def GateOut.off (o : GateOut) : Bool := o.onAt.isNone && match o.drive with | .source _ => false | .iso n => n == 0 | .sink _ => true

/-- The gates of an axis are off: its bridge forms no pulse, and its six outputs are off. -/
def axisGatesAreOff (a : AxisId) (s : State) : Bool :=
  ((s.gate.axes[a]).pulses.toList.all fun p => p.high.isNone && p.low.isEmpty) &&
    (List.finRange 24).all fun ch => decide (channelAxis ch ≠ a) || (s.gate.outs[ch]).off

/-- No axis is in a start: turning its gates off records no START_FAILED (Table 15.3). -/
def noStart (s : State) : Bool := (List.finRange 4).all fun a => !starting s.axes[a]

/-- The machinery is in its safe state: every gate off and no brake released (R56, R441). -/
def machinerySafe (s : State) : Bool :=
  (List.finRange 4).all fun a => axisGatesAreOff a s && decide ((s.mach.brakes[a]).phase = .set)

/-! ### Datagrams -/

/-- A datagram reaches session k: the device listens on its port, it comes to the device's UDP port, is well formed and no HELLO, it names the
session, its tag passes the rule of the life cycle, its SEQ is fresh (R143, R144, R150, R151), fewer than 64 datagrams are held for the
session (R146), and it does not wake the device from Quiet. -/
def Arrives (d : Datagram) (k : Fin 8) (s : State) : Prop :=
  knpReceives d s = true ∧ wellFormed d = true ∧ d.type ≠ 1 ∧ findSession d.session s = some k ∧ tagPasses k d s = true ∧
    seqFresh s.sec.sessions[k] d.seq = true ∧ heldDatagrams k s < 64 ∧ s.modes.mode ≠ .quiet

/-- The datagram holds its whole message. -/
def Whole (d : Datagram) : Prop := moreParts d = false ∧ d.frag = 0

/-- A datagram of a type has been sent since s, and no other. -/
def sentOne (s t : State) (type : Byte) : Prop := ∃ x : Datagram, x.type = type ∧ t.sec.sent = s.sec.sent ++ [x]

/-! ### Cores -/

/-- Core c runs its next instruction now: it runs, no control-space run is open, no single step is made, the word at its PC lies in a bank
of its own and is of right parity (R76, R128, R259), and no register that the instruction uses waits for a far load (R78). -/
def Runs (c : CoreId) (uses : List Reg) (s : State) : Prop :=
  (s.core c).status = .running ∧ (s.core c).csRun = [] ∧ (s.core c).step = false ∧ s.owns c (s.core c).pc.toNat = true ∧
    s.parityError (s.core c).pc.toNat 4 = none ∧ ∀ r ∈ uses, (s.core c).locked r = false

/-- Core c issues a control-space access now: it runs, makes no single step, its fetch succeeds (R76, R128, R259), the access joins the
open run (R128), no register that it uses waits for a far load (R78), and the device-wide bound leaves room (R36). -/
def Issues (c : CoreId) (uses reads : List Reg) (s : State) : Prop :=
  (s.core c).status = .running ∧ (s.core c).step = false ∧ s.owns c (s.core c).pc.toNat = true ∧
    s.parityError (s.core c).pc.toNat 4 = none ∧ (∀ r ∈ uses, (s.core c).locked r = false) ∧ (s.core c).csRun.length < 4 ∧
    (∀ e ∈ (s.core c).csRun, ∀ r ∈ reads, e.rd ≠ some r) ∧ inflight s < 1472

/-- A write by core c of the control word at an address is judged by the block that holds it: the cores can act and the device-wide bound
leaves room (R36), the core holds the grant of the word's row (R82), and the block takes requests (R37, R547). -/
def Writes (c : CoreId) (addr : Nat) (s : State) : Prop :=
  coreMay s = true ∧ granted (coreWriter c s) addr = true ∧ blockAborts (addrBlock addr) s = false ∧ Memory.wf s = true

/-- Core c has carried out an instruction that changes it by f: it goes on at the next word. -/
def State.did (s : State) (c : CoreId) (f : Core → Core) : State :=
  s.updCore c fun k => { f k with pc := k.pc + 4, entryWait := false }

/-- Core c has written rd and its flags: Z, N, C and V as given, T and LATE as they were. -/
def State.wrote (s : State) (c : CoreId) (rd : Reg) (v : Word) (z n cf vf : Bool) : State :=
  s.did c fun k => { k.setReg rd v with f := ⟨z, n, cf, vf, k.f.t, k.f.late⟩ }

/-- Core c has written the pair rd and its flags. -/
def State.wrotePair (s : State) (c : CoreId) (rd : Reg) (v : DWord) (z n cf vf : Bool) : State :=
  s.did c fun k => { k.setPair rd v with f := ⟨z, n, cf, vf, k.f.t, k.f.late⟩ }

/-- An exact value brought into the signed range of n bits. -/
def saturated (n : Nat) (x : Int) : Int := max (-(2 ^ (n - 1) : Nat)) (min ((2 ^ (n - 1) : Nat) - 1) x)

/-- An exact value lies outside the signed range of n bits. -/
def saturates (n : Nat) (x : Int) : Bool := decide (x < -(2 ^ (n - 1) : Nat)) || decide (((2 ^ (n - 1) : Nat) : Int) ≤ x)

/-- Core c has taken a synchronous trap (R96, R133): PC, F, the cause and the address words are saved, F.T is set, and it goes on at its
vector. -/
def State.trapped (s : State) (c : CoreId) (cause : BitVec 4) (lo hi : Word) : State :=
  s.updCore c fun k => { k with
    trapCause := cause, trapPc := k.pc, trapF := k.f.toWord, trapLo := lo, trapHi := hi, f := { k.f with t := true }
    pc := codeAddr (s.word (coreAddr c 3)), entryWait := false }

/-- A write of a control word by core c is refused: the core takes CS_REFUSED with the address where it runs (R129, R133, R545). -/
def State.refused (s : State) (c : CoreId) (addr : Nat) : State :=
  if (s.core c).status = .running then syncTrap c 5 (s.core c).pc (BitVec.ofNat 32 addr) 0 s else s

/-- A run of commands that ends in a state, none of them stopping the machine. -/
def runAll : List Instr → State → Option State
  | [], s => some s
  | c :: cs, s =>
    match exec c s with
    | .next t => runAll cs t
    | _ => none

end Sys2Proof.Machine
end

