-- ==== Sys2Proof/Certificates/Slice0/Obligations.lean ====
section
/-! DEFINITION. The statements for the provers. -/

open Sys2Proof Sys2Proof.Machine

/-- The command at the front of the queue, taken out of it, has its own effect. -/
def Obligations.StepRunsFront : Prop :=
  ∀ (c : Instr) (rest : List Instr) (s : State), s.pending = c :: rest → step s = exec c { s with pending := rest }

/-- R171 and log entry 2 (the model's choice): on an empty queue 8 ns pass, by which device time advances at the rate TIME_RATE gives, unless its
clock or that of the time engine is absent; the ports of the switch send, the probe counts, and nothing else changes. -/
def Obligations.IdleStep : Prop :=
  ∀ s : State, s.pending = [] → ∃ t, step s = .next t ∧ t.pending = [] ∧ t.clock = s.clock + 8 ∧
    t.cores = s.cores ∧ t.cells = s.cells ∧ t.dram = s.dram ∧ t.modes = s.modes ∧ t.fuses = s.fuses ∧ { t.gate with outs := s.gate.outs } = s.gate ∧ t.mach = s.mach ∧
    t.polder = s.polder ∧ t.faults = s.faults ∧ (∀ a, a ≠ 0x040B → t.word a = s.word a) ∧
    (s.clockLost.getLsbD 0 = false → s.clockLost.getLsbD 1 = false → ∃ whole : Int,
      whole * 1000000000 ≤ s.time.frac + 8 * timeRate s ∧ s.time.frac + 8 * timeRate s < (whole + 1) * 1000000000 ∧
      t.deviceTime = s.deviceTime + BitVec.ofInt 64 (8 + whole) ∧ t.time.frac = s.time.frac + 8 * timeRate s - whole * 1000000000) ∧
    ((s.clockLost.getLsbD 0 = true ∨ s.clockLost.getLsbD 1 = true) → t.deviceTime = s.deviceTime ∧ t.time = s.time)

/-- What reset leaves (Tables 0.2 to 19.3, R13, R60): every control word at its reset value but the cause of the last reset, which says power-on; the
device in Boot, the machinery in its safe state, no command waiting and no fault recorded. -/
def Obligations.ResetState : Prop :=
  (∀ a, a ≠ 0x0013 → State.reset.word a = resetWord a) ∧ State.reset.word 0x0013 = 1 ∧ machinerySafe State.reset = true ∧
    State.reset.modes.mode = .boot ∧ State.reset.pending = [] ∧ State.reset.faults.ring = [] ∧ Memory.wf State.reset = true ∧
    ∀ c : CoreId, (State.reset.core c).status = .halted ∧ (State.reset.core c).pc = 0

/-- A command acts on everything but the queue of the commands that wait. -/
def Obligations.ExecKeepsQueue : Prop :=
  ∀ (c : Instr) (s t : State), exec c s = .next t → t.pending = s.pending

/-- Every step keeps memory in its canonical form: stored control words, panel words, bank bytes and DRAM bytes. -/
def Obligations.EveryStepKeepsMemory : Prop :=
  ∀ s t : State, Memory.wf s = true → step s = .next t → Memory.wf t = true

/-- R153, R157 to R160: whatever is commanded, the identity of the device, its fitted polder and the hash of its password stay; the anti-rollback
floor never falls; the life cycle never goes back, a sealed device stays sealed, and once it is no longer blank its owner's key and its secret stay.
-/
def Obligations.FusesStand : Prop :=
  ∀ s t : State, step s = .next t →
    t.fuses.devid = s.fuses.devid ∧ t.fuses.polder = s.fuses.polder ∧ t.fuses.passHash = s.fuses.passHash ∧ s.fuses.floor ≤ t.fuses.floor ∧
    (s.fuses.life = .sealed → t.fuses.life = .sealed) ∧
    (s.fuses.life ≠ .blank → t.fuses.life ≠ .blank ∧ t.fuses.ownerKey = s.fuses.ownerKey ∧ t.fuses.secret = s.fuses.secret)

/-- R463 to R465: once the polder is sealed, no command writes a calibration parameter, its password or the identification stored at sealing, nor
unseals it; fail is final; and sealed or not, the seal counter never decreases. -/
def Obligations.LegalSealStands : Prop :=
  ∀ s t : State, step s = .next t →
    s.polder.seals ≤ t.polder.seals ∧
    (s.polder.phase = .fail → t.polder.phase = .fail) ∧
    (s.polder.phase ≠ .unsealed → t.polder.phase ≠ .unsealed ∧ t.polder.p1 = s.polder.p1 ∧ t.polder.stored = s.polder.stored ∧
      ∀ ch : Fin 4, (t.polder.chans[ch]).cal = (s.polder.chans[ch]).cal)

/-- R117 and R118: every data instruction of Table 5.4, in every core that runs it, with the value, the flags that change and the flags that stay;
nothing else of the state changes but the PC. -/
def Obligations.DataInstructions : Prop :=
  ∀ (c : CoreId) (rd ra rb : Reg) (imm : BitVec 18) (s : State),
    let k := s.core c
    let a := k.reg ra
    let b := k.reg rb
    let sx : Word := imm.signExtend 32
    let zx : Word := imm.setWidth 32
    let logic (v : Word) : State := s.wrote c rd v (decide (v = 0)) v.msb k.f.c k.f.v
    let add (y : Word) : State := s.wrote c rd (a + y) (decide (a + y = 0)) (a + y).msb (decide (2 ^ 32 ≤ a.toNat + y.toNat))
      (decide (a.toInt + y.toInt ≠ (a + y).toInt))
    let shl (n : Nat) : State := s.wrote c rd (a <<< n) (decide (a <<< n = 0)) (a <<< n).msb
      (if n = 0 then k.f.c else ((a.setWidth 96 : BitVec 96) <<< n).getLsbD 32) k.f.v
    let shr (n : Nat) : State := s.wrote c rd (a >>> n) (decide (a >>> n = 0)) (a >>> n).msb
      (if n = 0 then k.f.c else (a.setWidth 96 : BitVec 96).getLsbD (n - 1)) k.f.v
    let sar (n : Nat) : State :=
      let v : Word := BitVec.ofInt 32 (a.toInt / 2 ^ n)
      s.wrote c rd v (decide (v = 0)) v.msb (if n = 0 then k.f.c else (a.signExtend 96 : BitVec 96).getLsbD (n - 1)) k.f.v
    let sat (x : Int) : State :=
      let v : Word := BitVec.ofInt 32 (saturated 32 x)
      s.wrote c rd v (decide (v = 0)) v.msb k.f.c (saturates 32 x)
    let pair (v : DWord) (vf : Bool) : State := s.wrotePair c rd v (decide (v = 0)) v.msb k.f.c vf
    (Runs c [rd, ra, rb] s →
      exec (.add c rd ra rb) s = .next (add b) ∧
      exec (.sub c rd ra rb) s = .next (s.wrote c rd (a - b) (decide (a - b = 0)) (a - b).msb (decide (b.toNat ≤ a.toNat))
        (decide (a.toInt - b.toInt ≠ (a - b).toInt))) ∧
      exec (.and c rd ra rb) s = .next (logic (a &&& b)) ∧
      exec (.or c rd ra rb) s = .next (logic (a ||| b)) ∧
      exec (.xor c rd ra rb) s = .next (logic (a ^^^ b)) ∧
      exec (.shl c rd ra rb) s = .next (shl (b.toNat % 64)) ∧
      exec (.shr c rd ra rb) s = .next (shr (b.toNat % 64)) ∧
      exec (.sar c rd ra rb) s = .next (sar (b.toNat % 64)) ∧
      exec (.mul c rd ra rb) s = .next (logic (BitVec.ofNat 32 (a.toNat * b.toNat))) ∧
      exec (.mulq c rd ra rb) s = .next (sat ((a.toInt * b.toInt + 2 ^ 30) / 2 ^ 31))) ∧
    (Runs c [rd, ra] s →
      exec (.addi c rd ra imm) s = .next (add sx) ∧
      exec (.andi c rd ra imm) s = .next (logic (a &&& zx)) ∧
      exec (.ori c rd ra imm) s = .next (logic (a ||| zx)) ∧
      exec (.xori c rd ra imm) s = .next (logic (a ^^^ zx)) ∧
      (imm.toNat < 32 →
        exec (.shli c rd ra imm) s = .next (shl imm.toNat) ∧
        exec (.shri c rd ra imm) s = .next (shr imm.toNat) ∧
        exec (.sari c rd ra imm) s = .next (sar imm.toNat))) ∧
    (Runs c [rd, 0] s → exec (.lui c rd imm) s = .next (s.did c fun k => k.setReg rd (BitVec.ofNat 32 (imm.toNat * 2 ^ 14)))) ∧
    (Runs c [rd, rd + 1, ra, rb] s → rd.val % 2 = 0 →
      let x := (k.pair rd).toInt + a.toInt * b.toInt
      exec (.mull c rd ra rb) s = .next (pair (BitVec.ofInt 64 (a.toInt * b.toInt)) k.f.v) ∧
      exec (.mac c rd ra rb) s = .next (pair (BitVec.ofInt 64 x) (saturates 64 x)) ∧
      exec (.macs c rd ra rb) s = .next (pair (BitVec.ofInt 64 (saturated 64 x)) (saturates 64 x))) ∧
    (Runs c [rd, ra, ra + 1] s → ra.val % 2 = 0 → imm.toNat < 64 →
      exec (.extq c rd ra imm) s = .next (sat ((k.pair ra + if imm = 0 then 0 else BitVec.ofNat 64 (2 ^ (imm.toNat - 1))).toInt
        / 2 ^ imm.toNat)))

/-- R119: CMP and CMPI set the flags of a subtraction and write no register; Bcc, BL and JR continue where they say; a JR to an address that is no
multiple of 4 traps MISALIGNED. Nothing else changes. -/
def Obligations.CompareAndBranch : Prop :=
  ∀ (c : CoreId) (rd ra rb : Reg) (imm : BitVec 18) (cond : BitVec 4) (off : BitVec 22) (s : State),
    let k := s.core c
    let a := k.reg ra
    let cmp (y : Word) : State := s.wrote c 0 0 (decide (a = y)) (a - y).msb (decide (y.toNat ≤ a.toNat))
      (decide (a.toInt - y.toInt ≠ (a - y).toInt))
    let taken : Bool := [k.f.z, !k.f.z, k.f.c, !k.f.c, k.f.n, !k.f.n, k.f.v, !k.f.v, k.f.c && !k.f.z, !k.f.c || k.f.z,
      k.f.n == k.f.v, k.f.n != k.f.v, !k.f.z && (k.f.n == k.f.v), k.f.z || (k.f.n != k.f.v), true, k.f.late].getD cond.toNat true
    let there : Word := k.pc + BitVec.ofInt 32 (4 * off.toInt)
    let went (pc : Word) (f : Core → Core) : State := s.updCore c fun k => { f k with pc := pc, entryWait := false }
    (Runs c [ra, rb] s → exec (.cmp c ra rb) s = .next (cmp (k.reg rb))) ∧
    (Runs c [ra] s → exec (.cmpi c ra imm) s = .next (cmp (imm.signExtend 32))) ∧
    (Runs c [] s → exec (.bcc c cond off) s = .next (went (if taken then there else k.pc + 4) id)) ∧
    (Runs c [rd] s → exec (.bl c rd off) s = .next (went there fun k => k.setReg rd (k.pc + 4))) ∧
    (Runs c [ra] s → a.toNat % 4 = 0 → exec (.jr c ra) s = .next (went a id)) ∧
    (Runs c [ra] s → k.f.t = false → a.toNat % 4 ≠ 0 → exec (.jr c ra) s = .next (s.trapped c 4 a 0))

/-- R120, R122, R133 and R136: loads and stores of bytes and words in a bank of the core's own, and the indivisible SWAP and ADDM. A load takes the
little-endian word or the extended byte; a store writes the low bytes of rd with right parity; SWAP and ADDM take the old word into rd and write the
bank; every other byte of memory reads as before. An access that is misaligned, refused or of wrong parity traps with its address, writes no register
and no byte, and is counted and recorded where the bank refuses it. -/
def Obligations.BankAccess : Prop :=
  ∀ (c : CoreId) (rd ra rb : Reg) (imm : BitVec 18) (s : State),
    let k := s.core c
    let addr := k.reg ra + imm.signExtend 32
    let word (a : Nat) : Word := (s.byteAt a).setWidth 32 ||| (s.byteAt (a + 1)).setWidth 32 <<< 8 ||| (s.byteAt (a + 2)).setWidth 32 <<< 16 |||
      (s.byteAt (a + 3)).setWidth 32 <<< 24
    let stored (a n : Nat) (v : Word) (f : Core → Core) (out : Host.Outcome State Fault Refusal) : Prop := ∃ t, out = .next t ∧
      (∀ i < n, t.byteAt (a + i) = BitVec.ofNat 8 (v.toNat / 2 ^ (8 * i))) ∧
      (∀ b, b < a ∨ a + n ≤ b → t.byteAt b = s.byteAt b) ∧
      (∀ b, t.badParity.contains b = (s.badParity.contains b && (decide (b < a) || decide (a + n ≤ b)))) ∧
      t.cores = (s.did c f).cores ∧ t.words = s.words ∧ t.dram = s.dram ∧ t.faults = s.faults
    let traps (at_ : Word) (n : Nat) (reads : Bool) (out : Host.Outcome State Fault Refusal) : Prop := k.f.t = false →
      (at_.toNat % n ≠ 0 → out = .next (s.trapped c 4 at_ 0)) ∧
      (at_.toNat % n = 0 → s.owns c at_.toNat = false → out = .next ((bankRefused c at_.toNat s).trapped c 2 at_ 0)) ∧
      (∀ p, reads = true → at_.toNat % n = 0 → s.owns c at_.toNat = true → s.parityError at_.toNat n = some p →
        out = .next ((bankParity c p s).trapped c 3 at_ 0))
    (Runs c [rd, ra] s →
      let a := addr.toNat
      traps addr 4 true (exec (.ldw c rd ra imm) s) ∧ traps addr 1 true (exec (.ldb c rd ra imm) s) ∧
      traps addr 1 true (exec (.ldbu c rd ra imm) s) ∧ traps addr 4 false (exec (.stw c rd ra imm) s) ∧
      traps addr 1 false (exec (.stb c rd ra imm) s) ∧
      (s.owns c a = true → swf cellDefault s.cells = true →
        (a % 4 = 0 → s.parityError a 4 = none → exec (.ldw c rd ra imm) s = .next (s.did c fun k => k.setReg rd (word a))) ∧
        (s.parityError a 1 = none →
          exec (.ldb c rd ra imm) s = .next (s.did c fun k => k.setReg rd ((s.byteAt a).signExtend 32)) ∧
          exec (.ldbu c rd ra imm) s = .next (s.did c fun k => k.setReg rd ((s.byteAt a).setWidth 32))) ∧
        (a % 4 = 0 → stored a 4 (k.reg rd) id (exec (.stw c rd ra imm) s)) ∧ stored a 1 (k.reg rd) id (exec (.stb c rd ra imm) s))) ∧
    (Runs c [rd, ra, rb] s →
      let a := (k.reg ra).toNat
      let old (k : Core) : Core := k.setReg rd (word a)
      traps (k.reg ra) 4 true (exec (.swap c rd ra rb) s) ∧ traps (k.reg ra) 4 true (exec (.addm c rd ra rb) s) ∧
      (a % 4 = 0 → s.owns c a = true → s.parityError a 4 = none → swf cellDefault s.cells = true →
        stored a 4 (k.reg rb) old (exec (.swap c rd ra rb) s) ∧ stored a 4 (word a + k.reg rb) old (exec (.addm c rd ra rb) s)))

/-- R121, R77 and R36: a far access of an aligned address of the pair ra is issued in order with the bytes of a store, a far load locks its registers,
and the core goes on; a seventeenth far load waits, and every access does while 1,472 transactions are in flight. Nothing else changes. R78 and R80:
the reply to a far load with status OK puts the data into the register and unlocks it; the reply leaves the other cores, memory and the words as they
are. -/
def Obligations.FarAccess : Prop :=
  (∀ (c : CoreId) (rd ra : Reg) (imm : BitVec 16) (s : State),
    let k := s.core c
    let a : DWord := k.pair ra + imm.signExtend 64
    let load (wide : Bool) : State := s.did c fun k => { k with
      farTag := k.farTag + 1, farWait := k.farWait ++ [⟨k.farTag, false, wide, rd, a, []⟩]
      farOut := k.farOut ++ [⟨k.farTag, false, wide, rd, a, []⟩] }
    let store (wide : Bool) (n v : Nat) : State := s.did c fun k => { k with
      farTag := k.farTag + 1, farWait := k.farWait ++ [⟨k.farTag, true, wide, rd, a, leBytes n v⟩] }
    let room : Prop := inflight s < 1472
    let waits : Host.Outcome State Fault Refusal := .next (s.updCore c fun k => { k with entryWait := false })
    ra.val % 2 = 0 →
      (Runs c [rd, ra, ra + 1] s → a.toNat % 4 = 0 →
        (k.farOut.length < 16 → room → exec (.fldw c rd ra imm) s = .next (load false)) ∧
        (16 ≤ k.farOut.length ∨ ¬room → exec (.fldw c rd ra imm) s = waits) ∧
        (room → exec (.fstw c rd ra imm) s = .next (store false 4 (k.reg rd).toNat)) ∧
        (¬room → exec (.fstw c rd ra imm) s = waits)) ∧
      (Runs c [rd, rd + 1, ra, ra + 1] s → a.toNat % 8 = 0 → rd.val % 2 = 0 →
        (k.farOut.length < 16 → room → exec (.fldd c rd ra imm) s = .next (load true)) ∧
        (room → exec (.fstd c rd ra imm) s = .next (store true 8 (k.pair rd).toNat)))) ∧
  (∀ (c : CoreId) (i : Nat) (r : FarReply) (s : State),
    (s.core c).farReplies[i]? = some r → r.status = .ok → r.req.store = false →
      let gone (k : Core) : Core := { k with
        farReplies := k.farReplies.eraseIdx i, farOut := k.farOut.filter fun q => decide (q.tag ≠ r.req.tag) }
      (r.req.wide = false → exec (.farReply c i) s = .next (s.updCore c fun k => (gone k).setReg r.req.rd (BitVec.ofNat 32 (leNat r.data)))) ∧
      (r.req.wide = true → exec (.farReply c i) s = .next (s.updCore c fun k => (gone k).setPair r.req.rd (BitVec.ofNat 64 (leNat r.data)))))

/-- R123: SEND puts a word at the end of the queue its port is bound to, TAKE and PEEK give the head; without a credit SEND waits, without an entry
TAKE waits and PEEK sets Z. R123 and R133: an instruction on a port that is unbound, or bound at the other end, traps QUEUE_UNBOUND with the number of
the port. -/
def Obligations.QueuePorts : Prop :=
  (∀ (c : CoreId) (rd : Reg) (port : Fin 8) (q : Nat) (s : State),
    let imm : BitVec 16 := BitVec.ofNat 16 port.val
    let stays := s.updCore c fun k => { k with entryWait := false }
    Runs c [rd] s → q ≠ (s.word 0x0409).toNat % 256 →
      (boundQueue c port true s = some q →
        (0 < s.credits q c →
          exec (.send c rd imm) s = .next ((s.setQueue q (s.queue q ++ [⟨c.val, (s.core c).reg rd⟩])).did c id)) ∧
        (s.credits q c = 0 → exec (.send c rd imm) s = .next stays)) ∧
      (boundQueue c port false s = some q →
        (∀ e rest, s.queue q = e :: rest →
          ((∀ w ∈ s.waiting, w.1 ≠ q) → (∀ x : Fin 8, q = 232 + x.val → (s.sec.sessions[x]).held = []) →
            exec (.take c rd imm) s = .next ((s.setQueue q rest).did c fun k => k.setReg rd e.val)) ∧
          exec (.peek c rd imm) s = .next (s.did c fun k => { k.setReg rd e.val with f := { k.f with z := false } })) ∧
        (s.queue q = [] → exec (.take c rd imm) s = .next stays ∧
          exec (.peek c rd imm) s = .next (s.did c fun k => { k with f := { k.f with z := true } })))) ∧
  (∀ (c : CoreId) (rd : Reg) (port : Fin 8) (s : State),
    let imm : BitVec 16 := BitVec.ofNat 16 port.val
    let trap : Host.Outcome State Fault Refusal := .next (s.trapped c 7 (BitVec.ofNat 32 port.val) 0)
    Runs c [rd] s → (s.core c).f.t = false →
      (boundQueue c port true s = none → exec (.send c rd imm) s = trap) ∧
      (boundQueue c port false s = none → exec (.take c rd imm) s = trap ∧ exec (.peek c rd imm) s = trap))

/-- R84, R101 and R124: WAIT ends at once with the lowest pending event of its mask and clears it where it is latched, else the core sleeps until
WAIT_WAKE finds one; EVENT raises one bit of one core. R125: TNOW reads device time with bits [2:0] at 0, TADD adds a signed number of nanoseconds,
TGET and TPUT move a time register and a pair. Nothing else changes. -/
def Obligations.EventsAndTime : Prop :=
  ((∀ (c : CoreId) (rd ra : Reg) (s : State) (n : Nat),
    let mask := (s.core c).reg ra
    Runs c [rd, ra] s → mask.toNat ≠ 0 → mask.toNat < 2 ^ 25 → firstEvent c mask s = some n →
      exec (.wait c rd ra) s = .next (s.did c fun k => { k.setReg rd (BitVec.ofNat 32 n) with events := setBit k.events n false })) ∧
  (∀ (c : CoreId) (rd ra : Reg) (s : State),
    let mask := (s.core c).reg ra
    Runs c [rd, ra] s → mask.toNat ≠ 0 → mask.toNat < 2 ^ 25 → firstEvent c mask s = none →
      exec (.wait c rd ra) s = .next (s.updCore c fun k => { k with status := .waiting mask rd, entryWait := false })) ∧
  (∀ (c : CoreId) (rd : Reg) (mask : Word) (s : State) (n : Nat),
    (s.core c).status = .waiting mask rd → firstEvent c mask s = some n →
      exec (.waitWake c) s = .next (s.updCore c fun k => { k.setReg rd (BitVec.ofNat 32 n) with
        events := setBit k.events n false, status := .running, pc := k.pc + 4 })) ∧
  (∀ (c target : CoreId) (n : Fin 8) (s : State),
    Runs c [] s → s.blocks[target.castLE (by decide : 8 ≤ 25)] = .admitted →
      exec (.event c (BitVec.ofNat 16 (target.val * 256 + n.val))) s =
        .next ((s.updCore target fun k => { k with events := setBit k.events (8 + n.val) true }).did c id))) ∧
  (∀ (c : CoreId) (rd ra : Reg) (tn : TReg) (s : State),
    let k := s.core c
    let put (v : DWord) : State := s.did c fun k => { k with t := k.t.set tn v }
    (Runs c [] s → exec (.tnow c tn) s = .next (put (BitVec.ofNat 64 (s.deviceTime.toNat / 8 * 8)))) ∧
    (Runs c [ra] s → exec (.tadd c tn ra) s = .next (put (BitVec.ofInt 64 (k.t[tn].toNat + (k.reg ra).toInt)))) ∧
    (Runs c [rd, rd + 1] s → rd.val % 2 = 0 → exec (.tget c rd tn) s = .next (s.did c fun k => k.setPair rd k.t[tn])) ∧
    (Runs c [ra, ra + 1] s → ra.val % 2 = 0 → exec (.tput c tn ra) s = .next (put (k.pair ra))))

/-- R96, R97 and R132: TRAP enters the handler with cause SOFTWARE and its code; RETURN restores F and PC (at PC + 4 with SKIP), then takes the first
cause that is held; RETURN with F.T = 0 traps ILLEGAL with its word, and with a nonzero IMM22[21:1] in a handler it is a second synchronous cause,
which halts the core; NOP goes on and HALT halts. R97: a synchronous cause while a handler runs halts the core with CORE_DOUBLE_TRAP, whose data are
the cause and the PC. -/
def Obligations.TrapsAndControl : Prop :=
  (∀ (c : CoreId) (code : BitVec 22) (skip : Bool) (next : Nat × DWord) (xs : List (Nat × DWord)) (s : State),
    let k := s.core c
    Runs c [] s →
      (k.f.t = false → exec (.trap c code) s = .next (s.trapped c 9 (code.setWidth 32) 0)) ∧
      (k.f.t = true → k.held = [] →
        exec (.returnFromTrap c 0) s = .next (s.updCore c fun k => { k with f := Flags.ofWord k.trapF, pc := k.trapPc, entryWait := false }) ∧
        exec (.returnFromTrap c 1) s =
          .next (s.updCore c fun k => { k with f := Flags.ofWord k.trapF, pc := k.trapPc + 4, entryWait := false })) ∧
      (k.f.t = true → k.held = next :: xs → (Flags.ofWord k.trapF).t = false →
        ∃ t, exec (.returnFromTrap c (if skip then 1 else 0)) s = .next t ∧ (t.core c).held = xs ∧ (t.core c).trapCause = BitVec.ofNat 4 next.1 ∧
          (t.core c).trapPc = k.trapPc + (if skip then 4 else 0) ∧ (t.core c).trapF = (Flags.ofWord k.trapF).toWord ∧
          (t.core c).f.t = true ∧ (t.core c).pc = codeAddr (s.word (coreAddr c 3)) ∧ (t.core c).g = k.g) ∧
      (k.f.t = false → exec (.returnFromTrap c code) s = .next (s.trapped c 1 (wordC 0x3C 0 code) 0)) ∧
      (k.f.t = true → 2 ≤ code.toNat → ∃ t, exec (.returnFromTrap c code) s = .next t ∧ (t.core c).status = .doubleTrap ∧ (t.core c).pc = k.pc) ∧
      exec (.nop c) s = .next (s.did c id) ∧
      exec (.halt c) s = .next (s.did c fun k => { k with status := .halted })) ∧
  (∀ (c : CoreId) (code : BitVec 22) (s : State), Runs c [] s → (s.core c).f.t = true →
    ∃ t, exec (.trap c code) s = .next t ∧ (t.core c).status = .doubleTrap ∧ (t.core c).pc = (s.core c).pc ∧
      t.faults.ring.head? = some ⟨0x1010, BitVec.ofNat 16 c.val, BitVec.ofNat 32 (9 * 2 ^ 28 + (s.core c).pc.toNat % 2 ^ 22), s.deviceTime⟩ ∧
      t.cells = s.cells ∧ ∀ d, d ≠ c → (t.core d).pc = (s.core d).pc ∧ (t.core d).g = (s.core d).g)

/-- R112, R114, R133 and R142: a word of an opcode that Table 5.11 leaves illegal, a word with a bit set in a field that its instruction does not use,
and an odd register for a pair trap ILLEGAL with the instruction word; no register is written. -/
def Obligations.IllegalWordsTrap : Prop :=
  ∀ (c : CoreId) (rd ra rb : Reg) (tn : TReg) (imm : BitVec 18) (off : BitVec 16) (word : Word) (s : State),
    let illegal (w : Word) : Host.Outcome State Fault Refusal := .next (s.trapped c 1 w 0)
    Runs c [] s → (s.core c).f.t = false →
      (word.toNat / 2 ^ 26 = 0 ∨ word.toNat / 2 ^ 26 = 0x3F → exec (.illegalOpcode c word) s = illegal word) ∧
      (1 ≤ word.toNat / 2 ^ 26 → word.toNat / 2 ^ 26 ≤ 8 → word.toNat % 2 ^ 14 ≠ 0 → exec (.illegalOpcode c word) s = illegal word) ∧
      (0x3D ≤ word.toNat / 2 ^ 26 → word.toNat % 2 ^ 26 ≠ 0 → exec (.illegalOpcode c word) s = illegal word) ∧
      (illegalWord word = true → exec (.illegalOpcode c word) s = illegal word) ∧
      (32 ≤ imm.toNat →
        exec (.shli c rd ra imm) s = illegal (wordB 0x0D rd ra imm) ∧ exec (.shri c rd ra imm) s = illegal (wordB 0x0E rd ra imm) ∧
        exec (.sari c rd ra imm) s = illegal (wordB 0x0F rd ra imm)) ∧
      (rd.val % 2 = 1 →
        exec (.mull c rd ra rb) s = illegal (wordA 0x12 rd ra rb 0 0) ∧ exec (.mac c rd ra rb) s = illegal (wordA 0x14 rd ra rb 0 0) ∧
        exec (.macs c rd ra rb) s = illegal (wordA 0x15 rd ra rb 0 0) ∧ exec (.tget c rd tn) s = illegal (wordD 0x2F rd 0 tn 0)) ∧
      (ra.val % 2 = 1 →
        exec (.extq c rd ra imm) s = illegal (wordB 0x16 rd ra imm) ∧ exec (.tput c tn ra) s = illegal (wordD 0x30 0 ra tn 0) ∧
        exec (.fldw c rd ra off) s = illegal (wordD 0x21 rd ra 0 off) ∧ exec (.fstw c rd ra off) s = illegal (wordD 0x23 rd ra 0 off)) ∧
      (8 ≤ off.toNat →
        exec (.send c rd off) s = illegal (wordD 0x25 rd 0 0 off) ∧ exec (.take c rd off) s = illegal (wordD 0x26 rd 0 0 off) ∧
        exec (.peek c rd off) s = illegal (wordD 0x27 rd 0 0 off))

/-- R9, R82, R128, R543, R544, R547 and R549: a write of a control word for which its block has no rule takes effect where the core holds the grant
and the block takes requests: the stored bits take the value, a 1 clears a W1C bit that hardware has not set in the same update, every other bit and
word stays; so LOOP_SP of every slot and MACH_HOLD_IQ of every axis take the value written. Without the grant, and for a word with nothing to write,
it is refused with CONTROL_ACCESS_FAULT and CS_REFUSED; a block that takes no requests answers a write that has its grant RESET_ABORT, and the core
takes CS_ABORT: whether the write acted is undefined, and the fields of the word hold a free value (R31, R37). -/
def Obligations.ControlWrites : Prop :=
  ∀ (c : CoreId) (addr : BitVec 16) (val : Word) (s : State),
    let a := addr.toNat
    let traps (cause : Nat) (t : State) : State :=
      if (s.core c).status = .running then syncTrap c cause (s.core c).pc (BitVec.ofNat 32 a) 0 t else t
    let refused : State := traps 5 (record 0x1016 c a s)
    coreMay s = true →
      (granted (coreWriter c s) a = false → exec (.controlWrite c addr val) s = .next refused) ∧
      (granted (coreWriter c s) a = true → blockAborts (addrBlock a) s = true →
        exec (.controlWrite c addr val) s = .next (traps 6 (record 0x1001 c (addrBlock a) ((undefineWord a s).countUp 0x0407 0 32)))) ∧
      (Writes c a s → (∀ f ∈ fieldsAt a, f.acc = .ro) → exec (.controlWrite c addr val) s = .next refused) ∧
      (Writes c a s → maskNow (· != .ro) a s ≠ 0 → (∀ v t, blockRule (coreWriter c s) a v t = .plain v) →
        ∃ v : Word, exec (.controlWrite c addr val) s = .next (s.setWord a v) ∧
          ∀ i < 32, v.getLsbD i =
            if (maskNow (· == .rw) a s).getLsbD i then val.getLsbD i
            else if (maskNow (· == .w1c) a s).getLsbD i && val.getLsbD i && !s.justSet a i then false
            else (s.word a).getLsbD i) ∧
      (Writes c a s → ((∃ n : Fin 24, a = 0x4000 + 0x10 * n.val + 7) ∨ ∃ x : AxisId, a = machAddr x 0xA) →
        exec (.controlWrite c addr val) s = .next (s.setWord a val))

/-- R81, R127, R128 and R544: an access of the control space is issued with its reply and the core goes on at the next word; CGET reads the word as it
stands, CPUT, CSET and CCLR write a stored word. R128, R129 and R133: when the replies of a control-space run have arrived the run is over; the core
traps once, for its first failing access, at that access's PC and with its address: CS_REFUSED or CS_ABORT. -/
def Obligations.ControlSpaceRuns : Prop :=
  (∀ (c : CoreId) (rd ra : Reg) (imm : BitVec 16) (s : State),
    let s1 := s.updCore c fun k => { k with entryWait := false }
    let a := (imm.toNat + ((s.core c).reg ra).toNat) % 65536
    let v := (s.core c).reg rd
    let issued (dest : Option Reg) (t : State) : State :=
      notePeak (t.updCore c fun k => { k with csRun := k.csRun ++ [⟨k.pc, a, .ok, dest⟩], pc := k.pc + 4 })
    (Issues c [rd, ra] [ra] s → blockAborts (addrBlock a) s = false →
      exec (.cget c rd ra imm) s = .next (issued (some rd) ((readLatch a s1).updCore c fun k => k.setReg rd (readWord a s1)))) ∧
    (Issues c [rd, ra] [ra, rd] s → Writes c a s → (∀ f ∈ fieldsAt a, f.acc = .rw) → maskNow (· == .rw) a s ≠ 0 → modeAllows a s = true →
        (∀ w x t, blockRule w a x t = .plain x) →
      let all := maskNow (· == .rw) a s
      let keep := s.word a &&& ~~~all
      exec (.cput c rd ra imm) s = .next (issued none (s1.setWord a ((v &&& all) ||| keep))) ∧
      exec (.cset c rd ra imm) s = .next (issued none (s1.setWord a (((s.word a ||| v) &&& all) ||| keep))) ∧
      exec (.cclr c rd ra imm) s = .next (issued none (s1.setWord a ((s.word a &&& ~~~v &&& all) ||| keep))))) ∧
  (∀ (c : CoreId) (s : State), (s.core c).csRun ≠ [] → (s.core c).held = [] →
    ((∀ e ∈ (s.core c).csRun, e.status = .ok ∨ e.status = .poison) →
      exec (.csRunReplies c) s = .next (s.updCore c fun k => { k with csRun := [] })) ∧
    (∀ (ok rest : List RunEntry) (e : RunEntry), (s.core c).csRun = ok ++ e :: rest → (∀ x ∈ ok, x.status = .ok) →
        (s.core c).status = .running → (s.core c).f.t = false →
      let trapped (cause : BitVec 4) : State := s.updCore c fun k => { k with
        csRun := [], trapCause := cause, trapPc := e.pc, trapF := k.f.toWord, trapLo := BitVec.ofNat 32 e.addr, trapHi := 0
        f := { k.f with t := true }, pc := codeAddr (s.word (coreAddr c 3)) }
      (e.status = .refused → exec (.csRunReplies c) s = .next (trapped 5)) ∧
      (e.status = .resetAbort → exec (.csRunReplies c) s = .next (trapped 6))))

/-- R130, R254, R256, R257 and R260: BGIVE hands an owned bank on, BTAKE takes a free powered bank and answers 1 for one that is owned; a bank without
power is powered up, filled with zeros and then taken by the BTAKE admitted first (R261); BANK_RECLAIM frees the bank of an engine and BANK_POWER
takes the power and the contents of a free bank. Nothing else changes. -/
def Obligations.BankHandover : Prop :=
  ∀ (c : CoreId) (rd ra : Reg) (code : BitVec 16) (b : BankId) (s : State),
    let bank := s.banks[b]
    let owned (n : Nat) : State := { s with banks := modAt s.banks b fun k => { k with owner := n } }
    let took (t : State) (yes : Bool) : State :=
      t.did c fun k => { k.setReg rd (if yes then 0 else 1) with f := { k.f with z := yes } }
    let named : Word := BitVec.ofNat 32 b.val
    let room : Prop := inflight s < 1472
    let waits : Host.Outcome State Fault Refusal := .next (s.updCore c fun k => { k with entryWait := false })
    (Runs c [rd] s → (s.core c).reg rd = named → granted (coreWriter c s) (0x1000 + b.val) = true →
      (bank.owner = c.val → (code.toNat < 14 ∨ code.toNat = 31) →
        (room → exec (.bgive c rd code) s = .next ((owned code.toNat).did c id)) ∧ (¬room → exec (.bgive c rd code) s = waits)) ∧
      (bank.owner ≠ c.val → code.toNat < 32 → (s.core c).f.t = false →
        exec (.bgive c rd code) s = .next (s.trapped c 2 (BitVec.ofNat 32 (b.val * 0x20000)) 0))) ∧
    (Runs c [rd, ra] s → (s.core c).reg ra = named → granted (coreWriter c s) (0x1000 + b.val) = true →
      (¬room → exec (.btake c rd ra) s = waits) ∧
      (room → bank.owner ≠ 31 → exec (.btake c rd ra) s = .next (took s false)) ∧
      (room → bank.owner = 31 → bank.powered = true → exec (.btake c rd ra) s = .next (took (owned c.val) true)) ∧
      (room → bank.owner = 31 → bank.powered = false →
        exec (.btake c rd ra) s = .next (({ s with banks := modAt s.banks b fun k => { k with filling := true, takers := k.takers ++ [c] } }.setFlag 0x1020 b.val true).updCore c
          fun k => { k with status := .filling b rd, entryWait := false }))) ∧
    (bank.filling = true → bank.takers = [] → exec (.bankFillDone b) s = .next (zeroFill b s)) ∧
    (bank.filling = true → (s.core c).status = .filling b rd → (s.core c).held = [] → (s.core c).step = false → bank.takers.head? = some c →
      bank.owner = 31 → ∃ t, exec (.bankFillDone b) s = .next t ∧ t.banks[b] = ⟨c.val, true, false, []⟩ ∧
        (t.core c).status = .running ∧ (t.core c).pc = (s.core c).pc + 4 ∧ (rd ≠ 0 → (t.core c).reg rd = 0) ∧ (t.core c).f.z = true ∧
        (∀ a < 0x20000, t.byteAt (b.val * 0x20000 + a) = 0) ∧
        ∀ a, a < b.val * 0x20000 ∨ b.val * 0x20000 + 0x20000 ≤ a → t.byteAt a = s.byteAt a) ∧
    (Writes c 0x1021 s → 8 ≤ bank.owner → bank.owner ≠ 11 →
      exec (.bankReclaim c (BitVec.ofNat 32 (0x100 + b.val))) s = .next (owned 31)) ∧
    (Writes c 0x1020 s → mayPowerDown b s = true → s.flag 0x1020 b.val = true →
      exec (.bankPowerWrite c (s.word 0x1020 &&& ~~~BitVec.ofNat 32 (2 ^ b.val))) s =
        .next { (s.setFlag 0x1020 b.val false) with
          banks := modAt s.banks b fun k => { k with powered := false, filling := false }
          cells := sclear s.cells (b.val * 0x20000) (b.val * 0x20000 + 0x20000) })

/-- R93 and R131: CLAIM takes a free token, or one held at a lower level, whose holder gets event 24 where it is a core, and else answers the holder;
YIELD releases a token that the source holds; a source that is neither the core's own nor a slot's, or a bit above it (the model's choice: log entry
177), traps ILLEGAL; at the device-wide bound of R36 the request waits. -/
def Obligations.TokenClaims : Prop :=
  ∀ (c : CoreId) (rd ra : Reg) (obj : BitVec 16) (source : Nat) (s : State),
    let answered (v : Word) (t : State) : State := t.did c fun k => { k.setReg rd v with f := { k.f with z := decide (v = 0) } }
    let given : State := { s with tokens := (obj, source) :: s.tokens.filter fun t => decide (t.1 ≠ obj) }
    let level (n : Nat) := s.field (0x0A00 + n) 0 3
    let room : Prop := inflight s < 1472
    let waits : Host.Outcome State Fault Refusal := .next (s.updCore c fun k => { k with entryWait := false })
    (Runs c [rd, ra] s → (s.core c).f.t = false →
      (bits ((s.core c).reg ra) 21 11 ≠ 0 ∨ ¬(bits ((s.core c).reg ra) 16 5 = c.val ∨
          8 ≤ bits ((s.core c).reg ra) 16 5 ∧ bits ((s.core c).reg ra) 16 5 < 16)) →
        exec (.claim c rd ra) s = .next (s.trapped c 1 (wordA 0x39 rd ra 0 0 0) 0) ∧
        exec (.yield c rd ra) s = .next (s.trapped c 1 (wordA 0x3A rd ra 0 0 0) 0)) ∧
    (Runs c [rd, ra] s → (s.core c).reg ra = BitVec.ofNat 32 (source * 2 ^ 16 + obj.toNat) → (source = c.val ∨ 8 ≤ source ∧ source < 16) →
      (¬room → exec (.claim c rd ra) s = waits ∧ exec (.yield c rd ra) s = waits) ∧
      (room → s.tokens.lookup obj = none →
        exec (.claim c rd ra) s = .next (answered 0 given) ∧ exec (.yield c rd ra) s = .next (answered 1 s)) ∧
      (room → s.tokens.lookup obj = some source →
        exec (.claim c rd ra) s = .next (answered 0 s) ∧
        exec (.yield c rd ra) s = .next (answered 0 { s with tokens := s.tokens.filter fun t => decide (t.1 ≠ obj) })) ∧
      (∀ h, room → s.tokens.lookup obj = some h → h ≠ source →
        exec (.yield c rd ra) s = .next (answered 1 s) ∧
        (level source ≤ level h → exec (.claim c rd ra) s = .next (answered (BitVec.ofNat 32 (2 ^ 31 + h)) s)) ∧
        (level h < level source → 8 ≤ h → exec (.claim c rd ra) s = .next (answered 0 given)) ∧
        (∀ d : CoreId, d.val = h → level h < level source → exec (.claim c rd ra) s = .next (answered 0 (raiseEvent 24 d given)))))

/-- R28, R92, R94 and R95: the word that completes an order of core c admits it. With AUTHORITY_MERGE it joins its merge cycle; without it the holder
of the token is accepted; an order that does not fit, or has a SPEED where it is no motion order, is answered CONFLICT, counted and recorded. The
reply goes to the queue of the core, waits where that has no credit, and is lost while that end is unbound. R94 and R95: at the end of a merge cycle
the orders accepted by their tokens reach their programs, and of two orders of one object that differ in kind the lower kind wins: it is delivered,
the other is answered CONFLICT; of two of one kind, level and time of admission that hold no token, the one of the lower SOURCE wins. A new cycle
begins. -/
def Obligations.OrdersAndMerging : Prop :=
  (∀ (c : CoreId) (w h v : Word) (payload : List Word) (s : State),
    let o : Order := ⟨bits h 28 4, c.val, some c, h.setWidth 16, v, payload, s.clock, s.deviceTime.toNat / 125000, 0, 0⟩
    let taken : State := { s.setQueue 240 [] with assembly := modAt s.assembly c fun _ => [], orderTurn := c + 1 }
    let replied (accept : Bool) (t : State) : State :=
      if anyHolds (241 + c.val) false s then
        if (s.queue (241 + c.val)).length < 16 ∧ ∀ w ∈ s.waiting, w.1 ≠ 241 + c.val then
          t.setQueue (241 + c.val) (s.queue (241 + c.val) ++ [⟨11, replyWord o accept⟩])
        else { t with waiting := s.waiting ++ [(241 + c.val, ⟨11, replyWord o accept⟩)] }
      else t
    s.queue 240 = [⟨c.val, w⟩] → s.assembly[c] ++ [w] = h :: v :: payload → payload.length = bits h 16 7 → payload.length ≤ 64 →
      bits h 23 5 = c.val → s.field 0x0409 0 8 < 240 →
      (objectFits o.obj = true → 0 < o.kind → o.kind < 4 → (o.kind = 2 ∨ v = 0) → s.agreed.getLsbD 2 = true →
        exec (.orderSubmit c) s = .next { taken with orders := s.orders ++ [o] }) ∧
      (objectFits o.obj = true → 0 < o.kind → o.kind < 4 → (o.kind = 2 ∨ v = 0) → s.agreed.getLsbD 2 = false → tokenHolder o.obj s = some c.val →
        exec (.orderSubmit c) s = .next { replied true taken with accepted := s.accepted ++ [o] }) ∧
      ((objectFits o.obj = false ∨ 4 ≤ o.kind ∨ o.kind ≠ 2 ∧ v ≠ 0) →
        exec (.orderSubmit c) s = .next (replied false (record 0x1014 o.obj.toNat c.val (taken.countUp 0x0A11 0 32))))) ∧
  (∀ (o p : Order) (s : State), s.deviceTime.toNat / 125000 ≠ s.merged →
    (s.orders = [] → (∀ x ∈ s.accepted, x.sender.isSome) →
      exec .mergeCycleEnd s = .next { s with
        delivered := s.delivered ++ s.accepted, accepted := [], merged := s.deviceTime.toNat / 125000 }) ∧
    (s.accepted = [] → (s.orders = [o, p] ∨ s.orders = [p, o]) → o.obj = p.obj → o.kind = 1 →
      (p.kind = 2 ∨ p.kind = 1 ∧ s.field (0x0A00 + p.source) 0 3 = s.field (0x0A00 + o.source) 0 3 ∧ s.tokens.lookup o.obj = none ∧
        o.time = p.time ∧ o.source < p.source) →
      o.sender.isSome → p.sender.isSome →
      ∃ t, exec .mergeCycleEnd s = .next t ∧ t.delivered = s.delivered ++ [o] ∧ t.orders = [] ∧
        t.merged = s.deviceTime.toNat / 125000 ∧ t.tokens = s.tokens ∧ t.cells = s.cells ∧
        t.faults.ring.head? = some ⟨0x1014, p.obj, BitVec.ofNat 32 p.source, s.deviceTime⟩))

/-- R85, R86, R87, R89, R126 and R551: TACK and TACKP take the lowest free slot and keep the descriptor, the value, the time without its low three
bits, the period and the grants of the core; a late one that is dropped answers 0xC0000000 and is reported; a descriptor with a reserved bit or a
short period traps TACK_REFUSED; without a free slot, and at the device-wide bound of R36, the instruction waits. R91, R126 and R551: UNTACK takes a
pending tack of the core out and answers 0 with Z, or 1 (FIRED) where its handle has fired since, or 2 (UNKNOWN); a handle above 511 traps
TACK_REFUSED; at the device-wide bound of R36 it waits. -/
def Obligations.Tacks : Prop :=
  (∀ (c : CoreId) (rd ra rb rc : Reg) (tn : TReg) (s : State),
    let k := s.core c
    let desc := k.reg ra
    let tack (n : Nat) (period : Option Nat) : Tack := ⟨n, c, bits desc 30 2, bits desc 28 2, bits desc 26 2, bits desc 0 16, k.reg rb,
      k.t[tn] &&& ~~~7, period, s.word (coreAddr c 0xB), false⟩
    let answered (late : Bool) (r : Word) (t : State) : State :=
      t.did c fun k => { k.setReg rd r with f := { k.f with late := late } }
    let waits : Host.Outcome State Fault Refusal := .next (s.updCore c fun k => { k with entryWait := false })
    let onTime (period : Option Nat) (out : Host.Outcome State Fault Refusal) : Prop :=
      ∀ n, inflight s < 1472 → tackRefused desc period = false → freeSlot c s = some n → s.deviceTime.toNat + 2000 ≤ (k.t[tn] &&& ~~~7 : DWord).toNat →
        out = .next (answered false (BitVec.ofNat 32 n) { s with
          tacks := s.tacks ++ [tack n period], fired := s.fired.filter fun e => decide (e.1 ≠ n) })
    let tooLate (period : Option Nat) (out : Host.Outcome State Fault Refusal) : Prop :=
      inflight s < 1472 → tackRefused desc period = false → (freeSlot c s).isSome → (k.t[tn] &&& ~~~7 : DWord).toNat < s.deviceTime.toNat + 2000 →
        (s.feature 1 = true → bits desc 28 2 = 2) →
        out = .next (answered true 0xC0000000 (record 0x1013 c.val 0x200
          (s.updCore c fun k => { k with dropped := min 65535 (k.dropped + 1), entryWait := false })))
    let other (period : Option Nat) (out : Host.Outcome State Fault Refusal) : Prop :=
      (tackRefused desc period = true → k.f.t = false → out = .next (s.trapped c 8 desc 0)) ∧
      (tackRefused desc period = false → (freeSlot c s = none ∨ 1472 ≤ inflight s) → out = waits)
    (Runs c [rd, ra, rb] s → let out := exec (.tack c rd tn ra rb) s; onTime none out ∧ tooLate none out ∧ other none out) ∧
    (Runs c [rd, ra, rb, rc] s →
      let p := some (k.reg rc).toNat
      let out := exec (.tackp c rd tn ra rb rc) s
      onTime p out ∧ tooLate p out ∧ other p out)) ∧
  (∀ (c : CoreId) (rd ra : Reg) (s : State),
    let h := (s.core c).reg ra
    let answered (r : Word) (t : State) : State := t.did c fun k => { k.setReg rd r with f := { k.f with z := decide (r = 0) } }
    let mine (t : Tack) : Bool := t.slot == h.toNat && decide (t.core = c)
    Runs c [rd, ra] s → ((s.core c).f.t = false → 512 ≤ h.toNat → exec (.untack c rd ra) s = .next (s.trapped c 8 h 0)) ∧
      (h.toNat < 512 → 1472 ≤ inflight s → exec (.untack c rd ra) s = .next (s.updCore c fun k => { k with entryWait := false })) ∧
      (h.toNat < 512 → inflight s < 1472 →
      (s.tacks.any mine = true →
        exec (.untack c rd ra) s = .next (answered 0 { s with
          tacks := s.tacks.filter fun t => decide (t.slot ≠ h.toNat)
          launches := if s.tacks.any (fun t => t.slot == h.toNat && t.handed) then s.launches.filter fun l => decide (l.slot ≠ h.toNat)
            else s.launches })) ∧
      (s.tacks.any mine = false → s.fired.contains (h.toNat, c) = true → exec (.untack c rd ra) s = .next (answered 1 s)) ∧
      (s.tacks.any mine = false → s.fired.contains (h.toNat, c) = false → exec (.untack c rd ra) s = .next (answered 2 s))))

/-- R85, R86, R90, R183 and R550: a due tack fires: a one-shot leaves its slot, a periodic one goes on one period later, and the action is made for
the placing core; an action on a block that drives pins is handed to its retimer up to 1 µs before and made at its time, and the tack fires with it.
-/
def Obligations.TackActions : Prop :=
  ∀ (handle : Fin 512) (t : Tack) (s : State),
    let target : CoreId := Fin.ofNat 8 (t.target / 256)
    let left : State := { s with
      tacks := s.tacks.filter fun u => decide (u.slot ≠ t.slot), fired := (t.slot, t.core) :: s.fired }
    let moved (p : Nat) : State := { s with
      tacks := s.tacks.map fun u => if u.slot = t.slot then { u with time := t.time + BitVec.ofNat 64 (p * 8), handed := false } else u }
    (s.tacks.find? (fun u => u.slot == handle.val) = some t → tackDue t s = true → (∀ u ∈ s.tacks, u.slot = t.slot → u.handed = false) →
        t.period = none →
      (t.kind = 0 → exec (.tackFire handle) s = .next (ctlWrite ⟨t.core, t.grant, true⟩ .put t.target t.value left).2) ∧
      (t.kind = 1 → exec (.tackFire handle) s = .next (ctlWrite ⟨t.core, t.grant, true⟩ .setBits t.target t.value left).2) ∧
      (t.kind = 2 → exec (.tackFire handle) s = .next (ctlWrite ⟨t.core, t.grant, true⟩ .clearBits t.target t.value left).2) ∧
      (t.kind = 3 → s.blockOut (target.castLE (by decide : 8 ≤ 25)) = false →
        exec (.tackFire handle) s = .next (raiseEvent (8 + t.target % 8) target left))) ∧
    (∀ p, s.tacks.find? (fun u => u.slot == handle.val) = some t → tackDue t s = true →
      (∀ u ∈ s.tacks, u.slot = t.slot → u.handed = false) → t.period = some p → t.kind = 3 →
      s.blockOut (target.castLE (by decide : 8 ≤ 25)) = false →
        exec (.tackFire handle) s = .next (raiseEvent (8 + t.target % 8) target (moved p))) ∧
    (s.tacks.find? (fun u => u.slot == handle.val) = some t → timeClocked s = true → t.handed = false → t.kind < 3 →
      drivesPins (blockOfAddr t.target) = true → blockAborts (addrBlock t.target) s = false →
      t.time.toNat ≤ s.deviceTime.toNat + 1000 →
        exec (.tackHandover handle) s = .next { s with
          tacks := s.tacks.map fun u => if u.slot = t.slot then { u with handed := true } else u
          launches := s.launches ++ [⟨t.slot, t.core, t.kind, t.target, t.value, t.time, t.grant⟩] }) ∧
    (s.tacks.find? (fun u => u.slot == handle.val && u.handed) = some t → tackDue t s = true → s.launches.any (fun l => l.slot == t.slot) = true →
      t.kind = 0 →
        exec (.retimerLaunch handle) s = .next (ctlWrite ⟨t.core, t.grant, true⟩ .put t.target t.value
          { (match t.period with | none => left | some p => moved p) with launches := s.launches.filter fun l => decide (l.slot ≠ t.slot) }).2)

/-- R98 and R99: at the limit without a kick the watchdog traps, at the second the core is reset, its block out and due to return, and CORE_WATCHDOG
is recorded; its banks and the bytes in them stay, and the words of an order that it had begun are discarded. -/
def Obligations.Watchdogs : Prop :=
  ∀ (c : CoreId) (s : State),
    let k := s.core c
    let b : Fin 25 := c.castLE (by decide)
    let limit := s.field (coreAddr c 9) 0 16 * 1000
    let age := s.deviceTime.toNat - k.kickAt
    0 < limit →
      (limit ≤ age → k.wdogFired = false → canTrap k = true →
        exec (.watchdogTrap c) s = .next (s.updCore c fun k => { k with
          wdogFired := true, trapCause := 12, trapPc := k.pc, trapF := k.f.toWord, trapHi := 0, f := { k.f with t := true }
          pc := codeAddr (s.word (coreAddr c 3)), status := .running })) ∧
      (limit ≤ age → k.wdogFired = false → canTrap k = false →
        exec (.watchdogTrap c) s = .next (s.updCore c fun k => { k with wdogFired := true, held := holdCause (12, 0) k.held })) ∧
      (2 * limit ≤ age → k.wdogFired = true → s.blocks[b] = .admitted → (∀ e ∈ s.miscount, e.1 ≠ b) →
        ∃ t, exec (.coreWatchdog c) s = .next t ∧ t.blocks[b] = .out ∧ t.readmit.getLsbD c.val = true ∧
          (t.core c).status = .halted ∧ (t.core c).g = Vector.replicate 16 0 ∧ (t.core c).f = {} ∧
          (t.core c).pc = codeAddr (s.word (coreAddr c 2)) ∧ (t.core c).farOut = [] ∧
          (∀ x, (x, c.val) ∉ t.tokens) ∧ t.queue (241 + c.val) = [] ∧
          (s.assembly[c].length + ((s.queue 240).filter (·.core == c.val)).length < 2 →
            t.assembly[c] = [] ∧ ∀ e ∈ t.queue 240, e.core ≠ c.val) ∧
          (∀ i < 8, t.word (coreAddr c (0x10 + i)) = 0) ∧
          (∀ x : Fin 32, (t.banks[x]).owner = (s.banks[x]).owner ∧ (t.banks[x]).powered = (s.banks[x]).powered) ∧ t.cells = s.cells ∧ (∀ d ≠ c, (t.core d).g = (s.core d).g ∧ (t.core d).pc = (s.core d).pc) ∧
          t.faults.ring.head? = some ⟨0x1011, BitVec.ofNat 16 c.val, 0, s.deviceTime⟩)

/-- R98, R99, R100 and R109: a write of CORE_WDOG_KICK restarts the count, START starts a halted core at CORE_START_PC, HALT halts it at its next
instruction boundary, CORE_QBIND binds a port to an end of a queue that is free and a program's, and else is refused with QUEUE_BIND_REFUSED. -/
def Obligations.CoreCommands : Prop :=
  ∀ (c target : CoreId) (port : Fin 8) (val : Word) (s : State),
    let k := s.core target
    let q := bits val 0 8
    let send := bit val 8
    (Writes c (coreAddr target 0xA) s →
      exec (.coreWdogKick c target) s = .next (s.updCore target fun k => { k with kickAt := s.deviceTime.toNat, wdogFired := false })) ∧
    (Writes c (coreAddr target 1) s → k.status = .halted → k.held = [] → s.blockOut (target.castLE (by decide : 8 ≤ 25)) = false →
      exec (.coreStart c target) s =
        .next (s.updCore target fun k => { k with pc := codeAddr (s.word (coreAddr target 2)), status := .running, entryWait := false })) ∧
    (Writes c (coreAddr target 1) s → k.status = .running → k.csRun = [] →
      exec (.coreHalt c target) s = .next (s.updCore target fun k => { k with status := .halted })) ∧
    (Writes c (qbindAddr target port) s → bit val 31 = true → unitEnd q send = false → endHeld target port q send s = false →
      ∃ w : Word, exec (.coreQbind c target port val) s = .next (s.setWord (qbindAddr target port) w) ∧
        bit w 31 = true ∧ bit w 8 = send ∧ bits w 0 8 = q) ∧
    (Writes c (qbindAddr target port) s → bit val 31 = false →
      ∃ w : Word, exec (.coreQbind c target port val) s = .next (s.setWord (qbindAddr target port) w) ∧ bit w 31 = false) ∧
    (Writes c (qbindAddr target port) s → bit val 31 = true → (unitEnd q send = true ∨ endHeld target port q send s = true) →
      (s.core c).status = .running → (s.core c).f.t = false →
      ∃ t, exec (.coreQbind c target port val) s = .next t ∧ t.words = s.words ∧ (t.core c).trapCause = 5 ∧
        (t.core c).trapLo = BitVec.ofNat 32 (qbindAddr target port) ∧
        t.faults.ring.head? = some ⟨0x1015, BitVec.ofNat 16 target.val, BitVec.ofNat 32 (b2n send * 2 ^ 8 + q), s.deviceTime⟩)

/-- R37–R40, R49 and Table 2.6: a reset takes an admitted block out and makes it due to return, a power-down takes it out for good, a power-up of a
block that is out makes it due; action 0 does nothing; a command that names no block, a block never alone or its own core is refused with
BLOCK_REFUSED and traps where the core runs. A block that is due presents its feature word: it is admitted where it holds every feature asked of it,
else it stays out with READMIT_REFUSED; one that is not due, is kept out by a lost clock, or is a core whose image is being replaced does not return.
A block into which a sender has a wrong credit count stays out until the next device reset (Table 2.7). -/
def Obligations.BlockCommands : Prop :=
  ∀ (c : CoreId) (block : Fin 32) (b : Fin 25) (feature : DWord) (s : State),
    let goes (t : State) : Prop :=
      (t.blocks[b] = if s.miscount.any (fun e => decide (e.1 = b)) then .mismatched else .out) ∧ (∀ d, d ≠ b → t.blocks[d] = s.blocks[d]) ∧
        t.fuses = s.fuses ∧ (∀ x : Fin 32, (t.banks[x]).owner = (s.banks[x]).owner ∧ (t.banks[x]).powered = (s.banks[x]).powered) ∧
        t.pending = s.pending ∧ ∀ l ∈ t.launches, blockOfAddr l.target ≠ b.val
    let due (on : Bool) : State := setReadmit b on s
    (Writes c 0x0403 s →
      exec (.blockNoAction c block) s = .next s ∧
      (b.val = block.val → b.val ≠ 11 → b.val ≠ 23 → b.val ≠ c.val →
        (aloneIn b s = true → s.blocks[b] = .admitted →
          (∃ t, exec (.blockReset c block) s = .next t ∧ goes t ∧
            (t.readmit.getLsbD b.val = true ↔ t.blocks[b] = .out)) ∧
          (∃ t, exec (.blockPowerDown c block) s = .next t ∧ goes t ∧ t.readmit.getLsbD b.val = false)) ∧
        (s.blocks[b] = .out → exec (.blockPowerUp c block) s = .next (due true) ∧
          (aloneIn b s = true → exec (.blockReset c block) s = .next (due true)))) ∧
      ((block.val = 11 ∨ block.val = 23 ∨ block.val = c.val ∨ 25 ≤ block.val) →
        let refused : State := (record 0x1006 block.val c.val s).refused c 0x0403
        exec (.blockReset c block) s = .next refused ∧ exec (.blockPowerUp c block) s = .next refused ∧
          exec (.blockPowerDown c block) s = .next refused)) ∧
    ((s.blocks[b] ≠ .out ∨ s.readmit.getLsbD b.val = false ∨ s.byClock.getLsbD b.val = true ∨ (b.val < 8 ∧ s.sec.update.isSome)) →
      exec (.blockReadmit b feature) s = .next s) ∧
    (s.blocks[b] = .out → s.readmit.getLsbD b.val = true → s.byClock.getLsbD b.val = false → (b.val < 8 → s.sec.update = none) →
      (openFeatures s &&& blockFeatures b.val &&& ~~~feature = 0 → 10 ≤ b.val → s.word 0x4809 = 0 → s.word 0x4C09 = 0 →
        exec (.blockReadmit b feature) s = .next { setReadmit b false s with blocks := modAt s.blocks b fun _ => .admitted }) ∧
      (openFeatures s &&& blockFeatures b.val &&& ~~~feature = 0 → b.val < 10 →
        ∃ t, exec (.blockReadmit b feature) s = .next t ∧ t.blocks[b] = .admitted ∧ t.readmit.getLsbD b.val = false ∧ t.cells = s.cells) ∧
      (∀ n < 64, openFeatures s &&& blockFeatures b.val &&& ~~~feature = BitVec.ofNat 64 (2 ^ n) →
        exec (.blockReadmit b feature) s = .next (record 0x1005 b.val n (setReadmit b false s))))

/-- R24, R47 and R48: a request beyond FABRIC_STALL_LIMIT is reported and waits on, one within it is not; a write of FABRIC_CONTROL restarts the peak
at the transactions in flight; a write of FABRIC_PROBE_SEL clears both counts of the probe; the measured handshake time shows. Without power nothing
happens. -/
def Obligations.FabricObservation : Prop :=
  ∀ (c : CoreId) (requester target : Fin 25) (age : Nat) (queue : Byte) (hs : BitVec 16) (s : State),
    (coresPowered s = true → max 10 (s.field 0x0402 0 16) < age → exec (.fabricStall requester target age) s = .next (record 0x1002 requester.val target.val s)) ∧
    ((coresPowered s = false ∨ age ≤ max 10 (s.field 0x0402 0 16)) → exec (.fabricStall requester target age) s = .next s) ∧
    (Writes c 0x040C s → exec (.peakClear c) s = .next (s.setField 0x0400 16 11 (min 2047 (inflight s)))) ∧
    (Writes c 0x0409 s → ∃ t, exec (.probeSelect c queue) s = .next t ∧ t.field 0x0409 0 8 = queue.toNat ∧
      t.word 0x040A = 0 ∧ t.word 0x040B = 0 ∧ t = { s with words := t.words, probeAt := s.deviceTime } ∧
      ∀ a, a ≠ 0x0409 → a ≠ 0x040A → a ≠ 0x040B → t.word a = s.word a) ∧
    (coresPowered s = true → exec (.fabricSpeedUpdate hs) s = .next (s.setWord 0x0401 (hs.setWidth 32))) ∧
    (coresPowered s = false → exec (.fabricSpeedUpdate hs) s = .next s)

/-- R33, R34, R546 and Table 2.10: the loss of a clock is declared where the detector of its domain is armed: FABRIC_DOMAIN_LOST and
DOMAIN_CLOCK_LOST; device time's own domains bring the machinery to its safe state and Run to Trip, the cascade's take the Holros block out. A
detector that is not armed forgets what it declared. Where the clock returns, the domain is lost no longer, and a block that no other lost clock holds
is due to be readmitted. -/
def Obligations.DomainClocks : Prop :=
  ∀ (d : Fin 25) (s : State),
    let mask : BitVec 25 := BitVec.ofNat 25 (2 ^ d.val)
    let lost : State := { s with clockLost := s.clockLost ||| mask }
    let back : State := { s with
      clockLost := s.clockLost &&& ~~~mask, clockSaid := s.clockSaid &&& ~~~mask, clockTold := s.clockTold &&& ~~~mask }
    let armed : Prop := clockArmed d s = true ∧ s.clockTold.getLsbD d.val = false
    (clockArmed d s = false → exec (.domainClockLost d) s = .next { lost with clockTold := s.clockTold &&& ~~~mask }) ∧
    (clockArmed d s = true → s.clockTold.getLsbD d.val = true → exec (.domainClockLost d) s = .next lost) ∧
    (d = 23 → armed →
      exec (.domainClockLost d) s =
        .next (record 0x1004 (d.val + 1) 0
          ({ lost with clockSaid := s.clockSaid ||| mask, clockTold := s.clockTold ||| mask }.latch 0x0406 d.val))) ∧
    (d.val < 2 → armed → s.modes.mode = .run → Memory.wf s = true →
      ∃ t, exec (.domainClockLost d) s = .next t ∧ t.modes.mode = .trip ∧ machinerySafe t = true ∧ timeClocked t = false ∧
        t.flag 0x0406 d.val = true ∧ t.deviceTime = s.deviceTime ∧ t.tacks = s.tacks ∧ t.cells = s.cells) ∧
    (8 ≤ d.val → d.val ≤ 11 → armed →
      ∃ t, exec (.domainClockLost d) s = .next t ∧ t.blocks[(12 : Fin 25)] ≠ .admitted ∧ t.byClock.getLsbD 12 = true ∧
        t.readmit = s.readmit ∧ t.cells = s.cells) ∧
    (2 ≤ d.val → clockHolds d = [] →
      exec (.domainClockReturn d) s = .next back) ∧
    (12 ≤ d.val → d.val ≤ 14 → s.byClock.getLsbD 13 = true → s.clockSaid &&& ~~~mask = 0 →
      exec (.domainClockReturn d) s = .next { back with byClock := s.byClock &&& ~~~0x2000, readmit := s.readmit ||| 0x2000 }) ∧
    (d.val < 2 → s.clockSaid.getLsbD d.val = true →
      exec (.domainClockReturn d) s =
        .next ((back.setField 0x2002 0 2 0).setWord 0x2004 0))

/-- R50–R53, R69 and Table 3.2: each request of MODE_REQUEST that the arbiter accepts, and its refusal from Hold. A mode change counts, keeps the mode
before and raises event 22 on every core. -/
def Obligations.ModeRequests : Prop :=
  ∀ (c : CoreId) (s : State),
    let m := s.modes.mode
    let came (to_ : Mode) (t : State) : Prop :=
      t.modes.mode = to_ ∧ t.modes.previous = m ∧ t.modes.changes = s.modes.changes + 1 ∧ (∀ d, bit (t.core d).events 22 = true) ∧
        t.cells = s.cells ∧ t.blocks = s.blocks ∧ t.deviceTime = s.deviceTime ∧
        ((to_ ≠ .hold ∧ to_ ≠ .trip ∨ noStart s = true) → t.faults = s.faults)
    let refused (target : Nat) : Host.Outcome State Fault Refusal := .next (record 0xE002 0xFFFF (m.num * 256 + target) s)
    Writes c 0x0011 s → s.modes.entering = none →
      (m = .hold → mayRun s = true → ∃ t, exec (.requestRun c) s = .next t ∧ came (if s.modes.degraded then .degraded else .run) t) ∧
      (m = .hold → mayRun s = false → exec (.requestRun c) s = refused 4) ∧
      (m = .run → allStill s = true → ∃ t, exec (.requestHold c) s = .next t ∧ came .hold t ∧ machinerySafe t = true) ∧
      (m = .run → allStill s = false → ∃ t, exec (.requestHold c) s = .next t ∧ came .stop t ∧
        (t.mach.stop.map (·.cat)) = some 1 ∧ t.field 0x5080 0 2 = 1) ∧
      (m = .hold → panelAsleep s = true → ∃ t, exec (.requestQuiet c) s = .next t ∧ came .quiet t) ∧
      (m = .hold → panelAsleep s = false → exec (.requestQuiet c) s = refused 6) ∧
      ((m = .hold ∨ m = .quiet) → exec (.requestStandby c) s = .next (s.updModes fun x => { x with entering := some x.mode })) ∧
      (m = .run → exec (.requestStandby c) s = refused 1) ∧
      ((m = .run ∨ m = .hold ∨ m = .quiet ∨ m = .stop ∨ m = .maintenance) →
        ∃ t, exec (.requestTrip c) s = .next t ∧ came .trip t ∧ machinerySafe t = true) ∧
      (m = .hold → maintenanceAllowed s = true → ∃ t, exec (.requestMaintenance c) s = .next t ∧ came .maintenance t) ∧
      (m = .hold → maintenanceAllowed s = false → exec (.requestMaintenance c) s = refused 10)

/-- R40, R59–R62, R64, R65, R255 and Tables 3.7 to 3.9: the boot ROM judges the primary slot, then the secondary; an accepted image fills the banks it
names in ascending order, sets the entry programs and leads to Admission, a rejected one leaves its reason. The wiring checks name and disable what
failed; the feature check admits every block whose word holds what is asked of it, keeps the others out, hands the banks of the image to the lowest
entry core and starts the entry cores; an entry program reports ready; when all is done Admission leads to Hold. A limit that passes is reported once.
-/
def Obligations.StartUp : Prop :=
  ∀ (c : CoreId) (secondary : Bool) (img : Bytes) (failed : List (WiringCheck × Fin 64)) (words : List DWord) (s : State),
    let m := s.modes
    let isReady := m.ready ||| BitVec.ofNat 8 (2 ^ c.val)
    let banks := (List.range 32).filter fun n => (imgBanks img).testBit n
    (m.mode = .boot → m.held = false → s.field 0x0014 0 2 = 0 → s.clockLost.getLsbD 23 = false → m.slotsEnded = false →
      (secondary = true → m.slotFailed = true) → Memory.wf s = true →
      (s.sec.flash[if secondary then (1 : Fin 2) else 0]).getD [] = img →
      (rejectCode img s = 0 →
        ∃ t, exec (.bootSlotRead secondary) s = .next t ∧ t.modes.mode = .admission ∧ t.modes.previous = .boot ∧
          t.modes.entryCores = BitVec.ofNat 8 (imgCores img) ∧ t.modes.entryPc = codeAddr (imgPc img) ∧
          t.modes.loadBanks = BitVec.ofNat 32 (imgBanks img) ∧ t.modes.reqFeat = imgFeatures img ∧
          t.agreed = imgFeatures img ∧ t.word 0x001A = BitVec.ofNat 32 (imgSequence img) ∧ t.flag 0x0014 2 = secondary ∧
          (∀ c, t.word (coreAddr c 2) = codeAddr (imgPc img)) ∧
          (∀ j n i, banks[j]? = some n → i < 131072 → j * 131072 + i < imgLen img →
            some (t.byteAt (n * 131072 + i)) = img[64 + j * 131072 + i]?) ∧
          ∀ a, (∀ j n, banks[j]? = some n → a < n * 131072 ∨ n * 131072 + min 131072 (imgLen img - j * 131072) ≤ a) → t.byteAt a = s.byteAt a) ∧
      (rejectCode img s ≠ 0 → ∃ t, exec (.bootSlotRead secondary) s = .next t ∧ t.modes.mode = .boot ∧ t.cells = s.cells ∧
        t.word 0x0014 = setBits (s.word 0x0014) 4 4 (rejectCode img s) ∧ t.modes.slotFailed = !secondary ∧ t.modes.slotsEnded = secondary ∧
        (secondary = false → t.faults = s.faults) ∧
        (secondary = true → t.faults.ring.head? = some ⟨0xD001, 0, BitVec.ofNat 32 (16 + rejectCode img s), s.deviceTime⟩))) ∧
    (m.mode = .admission → m.wired = false →
      ∃ t, exec (.wiringChecksDone failed) s = .next t ∧ t.modes.wired = true ∧ t.modes.failed = failed.map (fun f => (f.1, f.2.val)) ∧
        t.blocks = s.blocks ∧ t.cells = s.cells ∧ (m.started = false → t.modes.mode = .admission) ∧
        (failed = [] → m.started = false → exec (.wiringChecksDone failed) s = .next (s.updModes fun x => { x with wired := true, failed := [] })) ∧
        (∀ k n, failed = [(k, n)] → m.started = false → t.faults.ring.head? = some ⟨0xE004, BitVec.ofNat 16 n.val, BitVec.ofNat 32 (checkNum k),
          s.deviceTime⟩)) ∧
    (m.mode = .admission → m.started = false →
      ∃ t, exec (.featureCheck words) s = .next t ∧ t.modes.started = true ∧ t.cells = s.cells ∧
        (∀ b : Fin 25, t.blocks[b] =
          if b = 11 ∨ b = 23 then .admitted
          else if (s.blocks[b] = .fresh ∨ s.blocks[b] = .out ∧ s.readmit.getLsbD b.val = true) ∧ s.byClock.getLsbD b.val = false then
            if (m.reqFeat ||| openFeatures s) &&& blockFeatures b.val &&& ~~~words.getD b.val (blockFeatures b.val) = 0 then .admitted else .out
          else s.blocks[b]) ∧
        (∀ d : CoreId, m.entryCores.getLsbD d.val = true → t.blocks[d.castLE (by decide : 8 ≤ 25)] = .admitted →
          (t.core d).status = .running ∧ (t.core d).pc = m.entryPc ∧ ((t.core d).entryWait = (decide (m.entryPc.toNat < 0x400000) && !t.owns d.val m.entryPc.toNat))) ∧
        (∀ d : CoreId, m.entryCores.getLsbD d.val = false → (t.core d).status = (s.core d).status ∧ (t.core d).pc = (s.core d).pc) ∧
        (m.entryCores.getLsbD c.val = true → (∀ d : CoreId, d < c → m.entryCores.getLsbD d.val = false) → ∀ x : Fin 32,
          (t.banks[x]).owner = if m.loadBanks.getLsbD x.val then c.val else (s.banks[x]).owner)) ∧
    (m.mode = .admission → m.started = true → m.entryCores.getLsbD c.val = true →
      (∃ t, exec (.entryReady c) s = .next t ∧ t.modes.ready = isReady ∧ t.cells = s.cells ∧ t.blocks = s.blocks ∧ t.cores.map (·.pc) = s.cores.map (·.pc)) ∧
      (m.entryCores &&& ~~~isReady ≠ 0 → exec (.entryReady c) s = .next (s.updModes fun x => { x with ready := isReady })) ∧
      (m.wired = true → m.entryCores &&& ~~~isReady = 0 → chanState 0 s ≠ 0 → chanState 1 s ≠ 0 → Memory.wf s = true →
        ∃ t, exec (.entryReady c) s = .next t ∧ machinerySafe t = true ∧
          t.modes.mode = (if m.cat0Held = true ∨ tripLatched s = true ∨ hestLow s = true ∧ s.field 0x2404 1 2 = 0 then .trip else .hold))) ∧
    (m.mode = .admission → m.lateRaised = false → m.entryCores &&& ~~~m.ready ≠ 0 →
      m.released + max 200 (s.field 0x0019 0 16) * 1000000 ≤ s.clock →
      exec .admitTimeout s = .next (record 0xE003 0xFFFF (m.entryCores &&& ~~~m.ready).toNat
        (s.updModes fun x => { x with lateRaised := true })))

/-- R54–R58, R501 and Tables 3.4 and 3.5: the rails and resets. A rail that leaves its window makes the power stages safe; after 10 µs the device
resets and is held with every block out, while the LED currents of a die that has made itself safe stand for 10 ms; 2 ms after the last core-die rail
came in the hold ends, and a release of reset then finds every unit as after reset, latches the straps and boots. The fuses, the flash and the
polder's calibration stand through every reset. -/
def Obligations.RailsAndResets : Prop :=
  ∀ (r : Rail) (boot : Fin 4) (mstr : Bool) (s : State),
    let m := s.modes
    let kept (t : State) : Prop := t.fuses = s.fuses ∧ t.pending = s.pending ∧ t.clock = s.clock ∧
      (s.sec.writing = none → t.sec.flash = s.sec.flash) ∧ ∀ i : Fin 4, (t.polder.chans[i]).cal = (s.polder.chans[i]).cal
    let fresh (t : State) : Prop := (∀ c, (t.core c).status = .halted ∧ (t.core c).g = Vector.replicate 16 0) ∧ t.tacks = [] ∧
      t.orders = [] ∧ t.tokens = [] ∧ (∀ b : Fin 25, t.blocks[b] = .out) ∧ t.cells = [] ∧ machinerySafe t = true ∧
      ∀ k : Fin 8, (t.sec.sessions[k]).phase = .closed
    let safeStands (t : State) : Prop := ∀ d : Fin 2, (s.dies[d]).safe = true → (s.dies[d]).ledsOff = false →
      s.clock < (s.dies[d]).safeAt + 10000000 → (t.dies[d]).safe = true ∧ (t.dies[d]).safeAt = (s.dies[d]).safeAt ∧
        ∀ c ∈ ledChans d, (t.ledCh c).units = (s.ledCh c).units
    (m.held = false → m.mode ≠ .dormant → railDie r = none → swf resetWord s.words = true →
      ∃ t, exec (.railLeavesWindow r) s = .next t ∧ t.flag 0x0018 (railBit r) = false ∧ machinerySafe t = true ∧
        (∀ d : Fin 2, (t.dies[d]).safe = true) ∧ t.modes = s.modes ∧ t.cells = s.cells ∧ (noStart s = true → t.faults = s.faults)) ∧
    (m.held = false → m.mode ≠ .dormant → m.porEnded = true → railGood r s = false →
      ∃ t, exec (.railOutOfRange r) s = .next t ∧ kept t ∧ fresh t ∧ t.modes.held = true ∧ t.modes.railHold = true ∧ safeStands t ∧
        t.deviceTime = s.deviceTime ∧ t.flag 0x0013 4 = true ∧
        t.faults.ring.head? = some ⟨0xE001, BitVec.ofNat 16 (railBit r), 0, s.deviceTime⟩) ∧
    (railDie r = none → exec (.railInRange r) s =
      .next ((s.setFlag 0x0018 (railBit r) true).updModes fun x => { x with railsInAt := s.clock })) ∧
    (railDie r ≠ none → exec (.railInRange r) s = .next (s.setFlag 0x0018 (railBit r) true)) ∧
    (coreRailsGood s = true → m.railsInAt + 2000000 ≤ s.clock → (m.porEnded = false ∨ m.railHold = true ∧ m.holdHot = false) →
      exec .powerOnResetEnd s = .next (s.updModes fun x => { x with porEnded := true, railHold := false })) ∧
    (m.porEnded = true → m.railHold = false → m.strapped = false → s.sec.lockNext = false → s.field 0x2002 0 2 = 0 →
      (mstr = true → boot ≠ 3) → s.word 0x4809 = 0 → s.word 0x4C09 = 0 → Memory.wf s = true →
      ∃ t, exec (.resetRelease boot mstr) s = .next t ∧ t.modes.mode = .boot ∧ t.modes.held = false ∧ t.modes.strapped = true ∧
        t.modes.released = s.clock ∧ t.word 0x0012 = BitVec.ofNat 32 (boot.val + 4 * b2n mstr) ∧ t.field 0x0014 0 2 = boot.val ∧
        (∀ b : Fin 25, t.blocks[b] = .fresh) ∧ t.faults = s.faults ∧ t.cells = [] ∧ (∀ c, t.core c = {}) ∧ t.tacks = [] ∧ kept t) ∧
    ((m.porEnded = false ∨ m.railHold = true ∨ m.strapped = true) →
      exec (.resetRelease boot mstr) s = .next (s.updModes fun x => { x with resetN := true })) ∧
    (m.mode ≠ .dormant →
      ∃ t, exec .resetNAssert s = .next t ∧ kept t ∧ fresh t ∧ t.modes.held = true ∧ t.modes.mode = .boot ∧ t.modes.resetN = false ∧
        t.deviceTime = s.deviceTime ∧ t.faults = s.faults ∧ t.flag 0x0013 1 = true) ∧
    (∃ t, exec .vaonLost s = .next t ∧ kept t ∧ fresh t ∧ t.modes.mode = .dormant ∧ t.modes.held = true ∧ t.deviceTime = 0 ∧
      t.faults = {} ∧ t.sec.lockNext = true) ∧
    (s.polder.vpol = true → coreUnpowered s = true →
      exec .vpolPresent s = .next (s.updModes fun x => { x with mode := .dormant, previous := x.mode }))

/-- R18, R21, R22, R54, R55: an edge die whose rails are in range is in contact once it answers during Boot; one that has not answered for 10 µs, or
reports that it protected itself, is lost: EDGE_DIE_LOST, its bit of IDENT_DIES, its gates and brakes off, and a degradation; a die that hears nothing
of the core die latches its own safe state, and 10 ms later its LED sinks are off. -/
def Obligations.EdgeDies : Prop :=
  ∀ (die : Die) (why : EdgeReport) (s : State),
    let d := dieIx die
    let off (t : State) : Prop := ∀ a ∈ dieAxes d, axisGatesAreOff a t = true ∧ gatesEnabled a t = false ∧ (t.mach.brakes[a]).phase = .set
    let said (data : Nat) : FaultEntry := ⟨0x1020, BitVec.ofNat 16 (d.val + 1), BitVec.ofNat 32 data, s.deviceTime⟩
    let lost (data : Nat) (t : State) : Prop := (t.dies[d]).lost = true ∧ t.flag 0x0008 d.val = false ∧ off t ∧ t.modes.degraded = true ∧
      t.cells = s.cells ∧ t.blocks = s.blocks ∧ said data ∈ t.faults.ring ∧ (noStart s = true → t.faults.ring.head? = some (said data))
    swf resetWord s.words = true →
      (s.modes.mode = .boot → s.modes.held = false → s.dies[d].lost = false → s.dies[d].safe = false →
        (s.field 0x0018 (7 + 2 * d.val) 2 = 3 → exec (.edgeDieAnswer die) s = .next (s.setFlag 0x0008 d.val true)) ∧
        (s.field 0x0018 (7 + 2 * d.val) 2 ≠ 3 → exec (.edgeDieAnswer die) s = .next s)) ∧
      (dieUp d s = true → s.dies[d].lost = false →
        (∃ t, exec (.edgeDieHandshakeTimeout die) s = .next t ∧ lost 0 t ∧ (s.modes.mode = .run → t.modes.mode = .degraded)) ∧
        ∃ t, exec (.edgeDieReport die why) s = .next t ∧ lost (reportCode why) t ∧ (t.dies[d]).safe = true) ∧
      (s.modes.held = false → s.modes.mode ≠ .dormant → s.dies[d].safe = false →
        ∃ t, exec (.edgeCoreSilence die) s = .next t ∧ off t ∧ (t.dies[d]).safe = true ∧ (t.dies[d]).safeAt = s.clock ∧
          t.modes = s.modes ∧ t.cells = s.cells ∧ (noStart s = true → t.faults = s.faults)) ∧
      (s.dies[d].safe = true → s.dies[d].ledsOff = false → s.dies[d].safeAt + 10000000 ≤ s.clock →
        ∃ t, exec (.edgeLedHoldExpiry die) s = .next t ∧ (t.dies[d]).ledsOff = true ∧ t.cells = s.cells ∧ t.modes = s.modes ∧ t.mach = s.mach ∧
          t.gate = s.gate)

/-- R51, R55, R63, R69, R70: Standby is committed with both channels at rest: every pending tack is dropped and reported, and the core die is off,
with no block that takes a request. An enabled wake event before the channels have committed abandons the entry; after that, and in Standby, it boots
the device warm. The degraded latch, the edge dies and a channel in self-refresh with its contents stand through both. -/
def Obligations.StandbyAndWake : Prop :=
  ∀ (s : State), Memory.wf s = true → s.faults.count < 2 ^ 32 →
    let rests : Prop := chanRests 0 s = true ∧ chanRests 1 s = true
    let stands (t : State) : Prop := t.modes.degraded = s.modes.degraded ∧ t.dies = s.dies ∧ t.fuses = s.fuses ∧ t.deviceTime = s.deviceTime ∧
      t.word 0x0012 = s.word 0x0012 ∧ ∀ ch : Fin 2, chanState ch s = 2 → chanState ch t = 2 ∧ (t.chan ch).cells = (s.chan ch).cells
    let abandoned : State := record 0xE005 0xFFFF 0 (s.updModes fun x => { x with entering := none })
    let warm (n : Nat) (out : Host.Outcome State Fault Refusal) : Prop :=
      ∃ t, out = .next t ∧ t.modes.mode = .boot ∧ t.modes.previous = .standby ∧ t.modes.strapped = true ∧ t.flag 0x0016 n = true ∧
        t.flag 0x0014 3 = true ∧ stands t
    (s.modes.entering.isSome → rests →
      ∃ t, exec .standbyCommit s = .next t ∧ t.modes.mode = .standby ∧ t.tacks = [] ∧ t.launches = [] ∧ machinerySafe t = true ∧
        (∀ c, t.core c = {}) ∧ (noStart s = true → t.faults.count = min (2 ^ 32 - 1) (s.faults.count + s.tacks.length)) ∧
        (∀ b : Fin 25, t.blocks[b] = .out) ∧ t.modes.standbyAt = s.clock ∧ stands t) ∧
    (s.modes.entering.isSome → ¬rests → exec .standbyCommit s = .next s) ∧
    (s.flag 0x0015 0 = true → s.modes.entering.isSome → ¬rests → exec .wakeBall s = .next abandoned) ∧
    (s.flag 0x0015 0 = true → s.modes.entering.isSome → rests → warm 0 (exec .wakeBall s)) ∧
    (s.flag 0x0015 0 = false → exec .wakeBall s = .next s) ∧
    (s.modes.entering = none → s.modes.mode = .standby →
      (s.flag 0x0015 0 = true → warm 0 (exec .wakeBall s)) ∧
      (s.flag 0x0015 2 = true → s.word 0x0017 ≠ 0 → s.modes.standbyAt + (s.word 0x0017).toNat * 1000000 ≤ s.clock →
        warm 2 (exec .standbyAlarm s)) ∧
      (s.flag 0x0015 1 = true → s.polder.wake = true → warm 1 (exec .polderWake s))) ∧
    (s.modes.standbyAt + (s.word 0x0017).toNat * 1000000 > s.clock → exec .standbyAlarm s = .next s)

/-- R508 and R509: the readings show in their words while the device is powered; a die above its hot threshold shows HOT, and DIE_HOT is raised once
for each rise, again after a fall of 5 °C; a core die at 125 °C is held in reset with its fault, until it reads 110 °C or less; an edge die that its
own comparator finds at 135 °C turns its sinks and the machinery off, latches its THERM bit, raises DIE_OVERTEMP and makes a category 0 demand, which
leads to Trip, is held in Boot and Admission, and is refused in Trip and Update. A 1 written to a THERM bit clears it while its die reads 115 °C or
less and hardware has not set it in the same update; the write is answered OK and changes nothing else. -/
def Obligations.ThermalSupervision : Prop :=
  ∀ (c : CoreId) (core west east vcore : BitVec 16) (die : Die) (temp : BitVec 16) (val : Word) (s : State),
    let d := dieIx die
    let m := s.modes
    let powered : Prop := m.mode ≠ .dormant ∧ m.mode ≠ .standby
    let dies : List (Nat × Nat × BitVec 16) := [(0, 1100, core), (1, 1150, west), (2, 1150, east)]
    let hot (e : Nat × Nat × BitVec 16) : Bool := decide ((e.2.1 : Int) < e.2.2.toInt)
    let raised (t : State) : State :=
      forAll (fun e s => record 0xE006 e.1 (e.2.2.signExtend 32).toNat s) (dies.filter fun e => hot e && !m.hotSaid.getLsbD e.1) t
    let shut : Prop := 1250 ≤ core.toInt ∧ m.held = false ∧ m.porEnded = true
    let fault : FaultEntry := ⟨0xE007, BitVec.ofNat 16 (d.val + 1), temp.setWidth 32, s.deviceTime⟩
    swf resetWord s.words = true →
      (¬powered → exec (.thermalRead core west east vcore) s = .next s) ∧
      (powered → ¬shut →
        ∃ t, exec (.thermalRead core west east vcore) s = .next t ∧ t.word 0x0020 = core.setWidth 32 ∧ t.word 0x0021 = west.setWidth 32 ∧
          t.word 0x0022 = east.setWidth 32 ∧ t.word 0x0024 = vcore.setWidth 32 ∧ (∀ e ∈ dies, t.flag 0x0023 (3 + e.1) = hot e) ∧
          (∀ e ∈ dies, t.modes.hotSaid.getLsbD e.1 = (hot e || m.hotSaid.getLsbD e.1 && decide ((e.2.1 : Int) < e.2.2.toInt + 50))) ∧
          t.field 0x0023 0 3 = s.field 0x0023 0 3 ∧ (∀ a, a < 0x0020 ∨ 0x0024 < a → t.word a = s.word a) ∧
          t.modes = { m with hotSaid := t.modes.hotSaid, holdHot := m.holdHot && decide (1100 < core.toInt) } ∧
          t.faults = (raised s).faults ∧ t.cells = s.cells) ∧
      (powered → shut →
        ∃ t, exec (.thermalRead core west east vcore) s = .next t ∧ t.modes.held = true ∧ t.modes.railHold = true ∧ t.modes.holdHot = true ∧
          t.modes.mode = .boot ∧ machinerySafe t = true ∧ (∀ b : Fin 25, t.blocks[b] = .out) ∧ t.fuses = s.fuses ∧ t.flag 0x0013 4 = true ∧
          t.faults = (record 0xE007 0 core.toNat (raised s)).faults) ∧
      (coresPowered s = true → 1350 ≤ temp.toInt →
        ∃ t, exec (.edgeThermalShutdown die temp) s = .next t ∧ machinerySafe t = true ∧ t.flag 0x0023 d.val = true ∧
          (∀ i ∈ ledChans d, (t.ledCh i).units = 0) ∧ (t.led.dies[d]).rows = 0 ∧ t.cells = s.cells ∧ fault ∈ t.faults.ring ∧
          ((m.mode = .run ∨ m.mode = .hold ∨ m.mode = .quiet ∨ m.mode = .degraded ∨ m.mode = .stop ∨ m.mode = .maintenance) →
            t.modes.mode = .trip ∧ (noStart s = true → t.faults.ring.head? = some fault)) ∧
          ((m.mode = .boot ∨ m.mode = .admission) → t.modes.mode = m.mode ∧ t.modes.cat0Held = true ∧
            (noStart s = true → t.faults.ring.head? = some fault)) ∧
          ((m.mode = .trip ∨ m.mode = .update) → t.modes.mode = m.mode)) ∧
      ((coresPowered s = false ∨ temp.toInt < 1350) → exec (.edgeThermalShutdown die temp) s = .next s) ∧
      (Writes c 0x0023 s →
        ∃ t, exec (.thermClear c val) s = .next t ∧ t = { s with words := t.words } ∧ (∀ a, a ≠ 0x0023 → t.word a = s.word a) ∧
          t.field 0x0023 2 30 = s.field 0x0023 2 30 ∧
          ∀ e : Fin 2, t.flag 0x0023 e.val = (s.flag 0x0023 e.val &&
            !(val.getLsbD e.val && decide (sbits (s.word (0x0021 + e.val)) 0 16 ≤ 1150) && !s.justSet 0x0023 e.val)))

/-- R147, R148, R152 and Table 6.3: a HELLO with BASE opens the lowest free slot and is answered with HELLO_ACK; one without BASE, or with no slot
free, is answered with its error. A valid datagram keeps its session open; BYE, 2 s without a first datagram and SEC_SESSION_TIMEOUT close it with
SESSION_CLOSED, and its tokens are released. R35, R143, R144, R146, R150 and R151: a datagram on another port than SEC_KNP_PORT is none of KNP; one
that is malformed or a replay is discarded and counted, one without the tag it needs raises KNP_AUTH_FAILED, one of no session is dropped, and one of
a session for which 64 are held is discarded and counted as a drop of the internal port, with its SEQ unused (the model's choices: log entries 178 and
179); none of them has any other effect. -/
def Obligations.Sessions : Prop :=
  (∀ (d : Datagram) (k : Fin 8) (s : State),
    let x := s.sec.sessions[k]
    let closed (type : Nat) (t : State) : Prop :=
      t.sec.sessions[k] = {} ∧ (∀ j : Fin 8, j ≠ k → t.sec.sessions[j] = s.sec.sessions[j]) ∧
        t.tokens = s.tokens.filter (fun p => decide (p.2 ≠ 8 + k.val)) ∧ t.cells = s.cells ∧ t.fuses = s.fuses ∧ sentOne s t 0x3F ∧
        t.faults.ring.head? = some ⟨0xD005, BitVec.ofNat 16 k.val, BitVec.ofNat 32 type, s.deviceTime⟩
    let refused (code : Nat) (out : Host.Outcome State Fault Refusal) : Prop :=
      ∃ t, out = .next t ∧ t.sec.sessions = s.sec.sessions ∧ sentOne s t 0x3F ∧ t.cells = s.cells ∧
        t.faults.ring.head? = some ⟨BitVec.ofNat 16 code, 0xFFFF, 1, s.deviceTime⟩
    (d.type = 1 → knpReceives d s = true → wellFormed d = true → d.payload.length = 24 → Whole d →
      ((fromBe (d.payload.take 8)) % 2 = 1 → x.phase = .closed → (∀ j : Fin 8, j < k → (s.sec.sessions[j]).phase ≠ .closed) →
        ∃ t, exec (.hello d) s = .next t ∧ (t.sec.sessions[k]).phase = .offered ∧ (t.sec.sessions[k]).port = d.port ∧
          (t.sec.sessions[k]).agreed = BitVec.ofNat 64 (fromBe (d.payload.take 8)) &&& deviceMap s ∧
          (t.sec.sessions[k]).host = d.payload.drop 8 ∧ (t.sec.sessions[k]).since = s.clock ∧ (t.sec.sessions[k]).got = [] ∧
          (t.sec.sessions[k]).id.toNat % 8 = k.val ∧ (t.sec.sessions[k]).id ≠ 0 ∧ sentOne s t 0x02 ∧
          (∀ j : Fin 8, j ≠ k → t.sec.sessions[j] = s.sec.sessions[j]) ∧ t.cells = s.cells ∧ t.words = s.words ∧ t.faults = s.faults) ∧
      ((fromBe (d.payload.take 8)) % 2 = 0 → refused 0xD003 (exec (.hello d) s)) ∧
      ((fromBe (d.payload.take 8)) % 2 = 1 → (∀ j : Fin 8, (s.sec.sessions[j]).phase ≠ .closed) → refused 0xD004 (exec (.hello d) s))) ∧
    (Arrives d k s → Whole d →
      (d.type = 4 → exec (.keepalive d) s = .next (s.updSession k (takeSeq d.seq s.clock))) ∧
      (d.type = 3 → ∃ t, exec (.bye d) s = .next t ∧ closed 3 t)) ∧
    (x.phase = .offered → x.since + 2000000000 ≤ s.clock → ∃ t, exec (.offeredTimeout k) s = .next t ∧ closed 0 t) ∧
    (x.phase = .opened → x.since + max 1000 (s.field 0x6009 0 16) * 1000000 ≤ s.clock →
      ∃ t, exec (.sessionTimeout k) s = .next t ∧ closed 0 t) ∧
    (s.clock < x.since + 1000000000 → exec (.offeredTimeout k) s = .next s ∧ exec (.sessionTimeout k) s = .next s)) ∧
  (∀ (d : Datagram) (k : Fin 8) (s : State),
    ((knpListens d.port s = false ∨ d.dport.toNat ≠ s.field 0x6008 0 16) → exec (.knpFragment d) s = .next s) ∧
    (knpReceives d s = true →
      (wellFormed d = false → exec (.knpFragment d) s = .next (s.countUp 0x600A 0 32)) ∧
      (wellFormed d = true → d.type ≠ 1 →
        (findSession d.session s = none → exec (.knpFragment d) s = .next s) ∧
        (findSession d.session s = some k →
          (tagPasses k d s = false → ∃ t, exec (.knpFragment d) s = .next t ∧ sentOne s t 0x3F ∧ t.words = s.words ∧ t.cells = s.cells ∧
            (t.sec.sessions[k]).got = (s.sec.sessions[k]).got ∧ (t.sec.sessions[k]).phase = (s.sec.sessions[k]).phase ∧
            t.faults.ring.head? = some ⟨0xD006, BitVec.ofNat 16 k.val, BitVec.ofNat 32 d.type.toNat, s.deviceTime⟩) ∧
          (tagPasses k d s = true → seqFresh s.sec.sessions[k] d.seq = false →
            exec (.knpFragment d) s = .next (s.countUp 0x600A 0 32)) ∧
          (tagPasses k d s = true → seqFresh s.sec.sessions[k] d.seq = true → 64 ≤ (s.sec.sessions[k].held.map (·.1)).sum →
            exec (.knpFragment d) s = .next (recordLimited 0x3002 2 0 (s.countUp 0x1C18 0 32)))))))

/-- R92, R94, R145, R146 and R282: an ORDER joins its merge cycle with the slot as its source; a QUERY reaches the slot's queue as words; a SLEEP puts
the slots of the named stream to sleep; both wait while 1,472 transactions are in flight (R36); an ANSWER or a NOTICE that a program spells on queue
249 is sent on its session. A first fragment is held; a message incomplete after 1 s is discarded. -/
def Obligations.ProgramMessages : Prop :=
  ∀ (d : Datagram) (k : Fin 8) (c : CoreId) (h v : Word) (n : Fin 2) (r : Reassembly) (s : State),
    let x := s.sec.sessions[k]
    let took : State := s.updSession k (takeSeq d.seq s.clock)
    let agreed : Prop := BitVec.ofNat 64 (Config.messageNeeds d.type.toNat (d.payload.map (·.toNat))) &&& ~~~x.agreed = 0
    let o : Order := ⟨bits h 28 4, 8 + k.val, none, h.setWidth 16, v, [], s.clock, s.deviceTime.toNat / 125000, x.id.toNat, 1⟩
    let words (type : Nat) : List Word :=
      BitVec.ofNat 32 (type * 2 ^ 24 + k.val * 2 ^ 20 + d.payload.length) :: beWords ((d.payload.length + 3) / 4) d.payload
    (Arrives d k s → Whole d → agreed →
      ((d.type = 0x10 ∨ d.type = 0x14) → 1472 ≤ inflight s → exec (.order d) s = .next s ∧ exec (.sleep d) s = .next s) ∧
      (d.type = 0x10 → inflight s < 1472 → d.payload = beBytes 4 h.toNat ++ beBytes 4 v.toNat → bits h 16 7 = 0 → objectFits o.obj = true → 0 < o.kind →
        o.kind < 4 → (o.kind = 2 ∨ v = 0) → s.agreed.getLsbD 2 = true → exec (.order d) s = .next { took with orders := s.orders ++ [o] }) ∧
      (d.type = 0x11 → x.held = [] → s.queue (232 + k.val) = [] → d.payload.length ≤ 252 →
        ∃ t, exec (.query d) s = .next t ∧ t.queue (232 + k.val) = (words 0x11).map (fun w => ⟨23, w⟩) ∧ (t.sec.sessions[k]).held = [] ∧
          t.cells = s.cells ∧ t.orders = s.orders ∧ t.faults = s.faults) ∧
      (d.type = 0x14 → inflight s < 1472 → d.payload = [BitVec.ofNat 8 n.val] → panelOn n s = true → s.blockOut 13 = false → slotSrc n s = n.val →
        (s.panel.slots[n]).asleep = false → ∃ t, exec (.sleep d) s = .next t ∧ (t.panel.slots[n]).asleep = true ∧ t.cells = s.cells ∧
          t.orders = s.orders)) ∧
    (Arrives d k s → d.type = 0x11 → d.frag = 0 → moreParts d = true → x.parts = [] → x.gone = [] →
      exec (.knpFragment d) s = .next (took.updSession k fun x => { x with
        parts := [⟨d.seq, d.type, s.clock, [(0, d.payload)], none⟩] })) ∧
    (x.parts = [r] → r.since + 1000000000 ≤ s.clock →
      ∃ t, exec (.knpReassemblyTimeout k r.msg) s = .next t ∧ (t.sec.sessions[k]).parts = [] ∧ sentOne s t 0x3F ∧ t.cells = s.cells ∧
        t.faults.ring.head? = some ⟨0xD00B, BitVec.ofNat 16 k.val, BitVec.ofNat 32 r.type.toNat, s.deviceTime⟩) ∧
    (x.parts = [r] → s.clock < r.since + 1000000000 → exec (.knpReassemblyTimeout k r.msg) s = .next s) ∧
    (s.queue 249 = [⟨c.val, h⟩] → s.sec.asm[c] = [] → bits h 0 20 = 0 → bits h 20 4 = k.val → x.phase = .opened →
      (bits h 24 8 = 0x12 → ∃ t, exec .answer s = .next t ∧ t.queue 249 = [] ∧ sentOne s t 0x12 ∧ t.cells = s.cells ∧ t.faults = s.faults) ∧
      (bits h 24 8 = 0x13 → (∃ t, exec .notice s = .next t ∧ t.queue 249 = [] ∧ sentOne s t 0x13 ∧ t.cells = s.cells ∧ t.faults = s.faults) ∧
        exec .answer s = .next s))

/-- R153, R154, R156, R163 and R164: an image is opened by one session at a time, its bytes are kept by offset; one that is not whole is rejected, and
an update image staged before stays (the model's choice: log entry 182); whole and valid it is staged or written to the boot slots, the secondary
first, and in Boot taken as the boot image too; a commit from Hold takes the device to Update, whose images, or the old ones where the update is
abandoned (when, is the model's choice: log entry 27), then lead to Admission; a commit in another mode is refused and the staged image discarded
after 60 s. -/
def Obligations.ImageTransfers : Prop :=
  ∀ (d : Datagram) (k : Fin 8) (tr : Transfer) (st : Staged) (img : Bytes) (set : DWord) (s : State),
    let took : State := s.updSession k (takeSeq d.seq s.clock)
    (Arrives d k s → Whole d →
      (d.type = 0x20 → s.sec.transfer = none → s.sec.writing = none → d.payload.length = 5 → fromBe (d.payload.drop 4) = 0 →
        fromBe (d.payload.take 4) ≤ 2097280 →
        exec (.imageBegin d) s = .next (took.updSec fun x => { x with transfer := some ⟨k, 0, fromBe (d.payload.take 4), []⟩ })) ∧
      (d.type = 0x20 → s.sec.transfer = some tr → ∃ t, exec (.imageBegin d) s = .next t ∧ t.sec.transfer = some tr ∧ sentOne s t 0x3F ∧
        t.faults.ring.head? = some ⟨0xD008, BitVec.ofNat 16 k.val, 0x20, s.deviceTime⟩) ∧
      (s.sec.transfer = some tr → tr.slot = k →
        (d.type = 0x21 → 4 < d.payload.length → fromBe (d.payload.take 4) + (d.payload.length - 4) ≤ tr.length →
          let kept : State := took.updSec fun x => { x with
            transfer := some { tr with chunks := (fromBe (d.payload.take 4), d.payload.drop 4) :: tr.chunks } }
          (tr.target = 0 → exec (.imageData d) s = .next kept) ∧
          (tr.target = 1 → ∃ t, exec (.imageData d) s = .next t ∧ t.sec = kept.sec ∧ t.cells = s.cells ∧ t.modes = s.modes)) ∧
        (d.type = 0x22 → received tr < tr.length → ∃ t, exec (.imageEnd d) s = .next t ∧ t.sec.transfer = none ∧
          t.sec.flash = s.sec.flash ∧ t.sec.staged = s.sec.staged ∧ t.sec.writing = s.sec.writing ∧
          t.faults.ring.head? = some ⟨0xD007, BitVec.ofNat 16 k.val, 0x22, s.deviceTime⟩) ∧
        (d.type = 0x22 → tr.length ≤ received tr → rejectCode (chunkBytes tr.chunks tr.length) s = 0 →
          imgFeatures (chunkBytes tr.chunks tr.length) &&& ~~~(s.sec.sessions[k]).agreed = 0 →
          ∃ t, exec (.imageEnd d) s = .next t ∧ t.sec.transfer = none ∧ sentOne s t 0x23 ∧ t.sec.flash = s.sec.flash ∧
            (tr.target = 1 → t.sec.staged = some ⟨k, chunkBytes tr.chunks tr.length, (s.sec.sessions[k]).agreed, none⟩) ∧
            (tr.target = 0 → t.sec.writing = some (k, chunkBytes tr.chunks tr.length, false) ∧
              (s.modes.mode = .boot → t.modes.mode = .admission)))) ∧
      (d.type = 0x24 → s.sec.staged = some st → st.slot = k →
        (s.modes.mode = .hold → ∃ t, exec (.updateCommit d) s = .next t ∧ t.modes.mode = .update ∧ t.sec.staged = none ∧
          t.sec.update = some (st.image, st.set) ∧ machinerySafe t = true ∧ t.cells = s.cells ∧
          ∀ c : CoreId, s.admitted (c.castLE (by decide)) = true → (t.core c).status = .halted) ∧
        (s.modes.mode = .run → st.until_ = none → ∃ t, exec (.updateCommit d) s = .next t ∧ t.modes.mode = .run ∧
          t.sec.staged = some { st with until_ := some (s.clock + 60000000000) } ∧ sentOne s t 0x3F))) ∧
    (s.clockLost.getLsbD 23 = false →
      (s.sec.writing = some (k, img, false) → exec (.bootSlotWriteDone true) s =
        .next (s.updSec fun x => { x with flash := modAt x.flash 1 fun _ => some img, writing := some (k, img, true) })) ∧
      (s.sec.writing = some (k, img, true) → exec (.bootSlotWriteDone true) s =
        .next (s.updSec fun x => { x with flash := modAt x.flash 0 fun _ => some img, writing := none }))) ∧
    (s.sec.writing = some (k, img, false) → (s.sec.sessions[k]).phase = .opened →
      ∃ t, exec (.bootSlotWriteDone false) s = .next t ∧ t.sec.writing = none ∧ t.sec.flash[(0 : Fin 2)] = s.sec.flash[(0 : Fin 2)] ∧
        sentOne s t 0x23) ∧
    (s.modes.mode = .update → s.sec.update = some (img, set) → swf resetWord s.words = true →
      (dramServes s = true → ∃ t, exec .updateImagesReplaced s = .next t ∧ t.modes.mode = .admission ∧ t.sec.update = none ∧ t.agreed = set ∧
        t.modes.entryCores = BitVec.ofNat 8 (imgCores img) ∧ t.word 0x001A = BitVec.ofNat 32 (imgSequence img) ∧ t.fuses = s.fuses) ∧
      (dramServes s = false → ∃ t, exec .updateImagesReplaced s = .next t ∧ t.modes.mode = .admission ∧ t.sec.update = none ∧ t.sec.raiseTo = none ∧
        t.agreed = s.agreed ∧ t.modes.entryCores = s.modes.entryCores ∧ t.word 0x001A = s.word 0x001A ∧ t.cells = s.cells ∧ t.fuses = s.fuses)) ∧
    (∀ e, s.sec.staged = some { st with until_ := some e } →
      (e ≤ s.clock → exec .stagedImageExpiry s = .next (s.updSec fun x => { x with staged := none })) ∧
      (s.clock < e → exec .stagedImageExpiry s = .next s))

/-- R157 to R161, R166 and Table 6.5: a right password or response reopens a Sealed part and clears the failures; a wrong one counts and starts a
lockout that doubles, and within it no attempt is judged; a nonce serves one response within 30 s. SEAL seals an Open part, closes the reopening and
leaves Maintenance. R160, R161: a nonce is gone 30 s after its issue and stands before; the lockout's end passes. Nothing else changes. -/
def Obligations.Reopening : Prop :=
  (∀ (d : Datagram) (k : Fin 8) (s : State),
    let took (t : State) : Prop := (t.sec.sessions[k]).got.head? = some d.seq ∧ t.cells = s.cells ∧ t.modes.mode = s.modes.mode
    let opens (t : State) : Prop := took t ∧ t.sec.fails = 0 ∧ t.sec.reopened = decide (s.fuses.life = .sealed) ∧ t.fuses = s.fuses ∧
      sentOne s t 0x34 ∧ t.faults = s.faults
    let fails (t : State) : Prop := took t ∧ t.sec.fails = min 65535 (s.sec.fails + 1) ∧ t.sec.reopened = s.sec.reopened ∧ t.fuses = s.fuses ∧
      t.sec.lockEnd = s.clock + min (2 ^ (t.sec.fails - 1)) 3600 * 1000000000
    let locked (t : State) : Prop := took t ∧ t.sec.fails = s.sec.fails ∧ t.sec.lockEnd = s.sec.lockEnd ∧ t.sec.reopened = s.sec.reopened ∧
      t.fuses = s.fuses
    let judged (right : Bool) (out : Host.Outcome State Fault Refusal) : Prop :=
      ∃ t, out = .next t ∧ (s.clock < s.sec.lockEnd → locked t) ∧ (s.sec.lockEnd ≤ s.clock → if right then opens t else fails t)
    Arrives d k s → Whole d →
      (d.type = 0x30 → d.payload.length = 16 →
        judged (decide (Config.passwordHash d.payload = s.fuses.passHash)) (exec (.reopenPassword d) s)) ∧
      (d.type = 0x31 → ∃ t n, exec (.challengeReq d) s = .next t ∧ n.length = 32 ∧ t.sec.nonce = some (n, s.clock) ∧ sentOne s t 0x32 ∧
        took t ∧ t.fuses = s.fuses) ∧
      (d.type = 0x33 →
        judged (responseRight d.payload s) (exec (.reopenResponse d) s) ∧ ∀ t, exec (.reopenResponse d) s = .next t → t.sec.nonce = none) ∧
      (d.type = 0x35 → s.fuses.life = .opened → (∀ j : Fin 8, (s.sec.sessions[j]).agreed.toNat < 2 ^ 48) →
        ∃ t, exec (.seal d) s = .next t ∧ t.fuses = { s.fuses with life := .sealed } ∧ t.sec.reopened = false ∧ t.sec.jtagIr < 2 ∧
          (s.modes.mode = .maintenance → t.modes.mode = .hold ∧ machinerySafe t = true) ∧
          (s.modes.mode ≠ .maintenance → took t))) ∧
  (∀ (n : Bytes) (at_ : Nat) (s : State),
    (s.sec.nonce = some (n, at_) →
      (at_ + 30000000000 ≤ s.clock → exec .challengeNonceExpiry s = .next (s.updSec fun x => { x with nonce := none })) ∧
      (s.clock < at_ + 30000000000 → exec .challengeNonceExpiry s = .next s)) ∧
    (s.sec.lockEnd ≤ s.clock → exec .reopenLockoutExpiry s = .next (s.updSec fun x => { x with lockEnd := 0 })) ∧
    (s.clock < s.sec.lockEnd → exec .reopenLockoutExpiry s = .next s))

/-- R149, R157, R162 and Table 6.7: IDCODE and BYPASS serve always; the boundary scan and the core debug serve a Blank part, and an Open or reopened
one in Maintenance, and are refused as BYPASS else; the value of the boundary register is any; EXTEST holds the outputs off; the fuses are written
once, on a Blank part. -/
def Obligations.JtagPort : Prop :=
  ∀ (c : CoreId) (r : Reg) (v : Word) (n : TReg) (w : DWord) (a : BitVec 22) (refused : Bool) (pub secret : Bytes) (s : State),
    let at_ (ir dr : Nat) : State := s.updSec fun x => { x with jtagIr := ir, jtagDr := dr }
    exec .jtagIdcode s = .next (at_ 1 0x116404D3) ∧ exec (.jtagBypass refused) s = .next (at_ 0 0) ∧
    (jtagOpen s = true →
      (∃ dr, exec .jtagSample s = .next (at_ 2 dr).bump) ∧
      (∃ t, exec .jtagExtest s = .next t ∧ (∃ dr, t.sec = (at_ 3 dr).sec) ∧ machinerySafe t = true ∧ t.cells = s.cells ∧
        t.modes = s.modes ∧ (noStart s = true → t.faults = s.faults)) ∧
      exec (.jtagCoreDebug c (.readReg r)) s = .next (at_ 4 ((s.core c).reg r).toNat) ∧
      exec (.jtagCoreDebug c (.writeReg r v)) s = .next ((at_ 4 0).updCore c fun k => k.setReg r v) ∧
      exec (.jtagCoreDebug c .readPc) s = .next (at_ 4 (s.core c).pc.toNat) ∧
      exec (.jtagCoreDebug c (.writePc v)) s = .next ((at_ 4 0).updCore c fun k => { k with pc := codeAddr v }) ∧
      exec (.jtagCoreDebug c .readF) s = .next (at_ 4 (s.core c).f.toWord.toNat) ∧
      exec (.jtagCoreDebug c (.writeF v)) s = .next ((at_ 4 0).updCore c fun k => { k with f := Flags.ofWord v }) ∧
      exec (.jtagCoreDebug c (.readTime n)) s = .next (at_ 4 (s.core c).t[n].toNat) ∧
      exec (.jtagCoreDebug c (.writeTime n w)) s = .next ((at_ 4 0).updCore c fun k => { k with t := k.t.set n w }) ∧
      ((s.core c).status = .halted →
        exec (.jtagCoreDebug c .single) s = .next ((at_ 4 0).updCore c fun k => { k with status := .running, step := true })) ∧
      ((s.core c).status = .running → (s.core c).csRun = [] →
        exec (.jtagCoreDebug c .halt) s = .next ((at_ 4 0).updCore c fun k => { k with status := .halted })) ∧
      (s.owns c a.toNat = true → s.parityError a.toNat 1 = none →
        exec (.jtagCoreDebug c (.readBank a)) s = .next (at_ 4 (s.byteAt a.toNat).toNat)) ∧
      (s.owns c a.toNat = true → exec (.jtagCoreDebug c (.writeBank a (v.setWidth 8))) s = .next ((at_ 4 0).storeBytes a.toNat [v.setWidth 8]))) ∧
    (jtagOpen s = false → exec .jtagSample s = .next (at_ 0 0) ∧ exec .jtagExtest s = .next (at_ 0 0) ∧
      exec (.jtagCoreDebug c (.readReg r)) s = .next (at_ 0 0)) ∧
    (s.fuses.life = .blank → pub.length = 64 → secret.length = 32 →
      exec (.jtagFuseProgram pub secret) s =
        .next { at_ 5 0 with fuses := { s.fuses with ownerKey := pub, secret := secret, life := .opened } }) ∧
    (s.fuses.life ≠ .blank → exec (.jtagFuseProgram pub secret) s = .next (at_ 0 0))

/-- R172 to R175, R182, R184, R188 to R190: a received frame teaches its source and leaves for the live port of its destination, cut-through or from
its queue; a bad FCS is counted, and such a frame is never queued; a frame of a VLAN beyond the 64th goes nowhere; an entry goes after 300 s. A link
comes up at the speed of its port's mode; the loss of a link, also by a change of MODE, is recorded. A frame for the internal port goes on to the
receive ring, but for one of queue 7. A fit gate list waits for a cycle start at least one old cycle later; one out of its bounds is refused. -/
def Obligations.EthernetSwitch : Prop :=
  ∀ (c : CoreId) (port p : Fin 3) (n : Fin 2) (f : EthFrame) (mac : BitVec 48) (speed : Fin 4) (entry : Fin 16) (val : Word)
      (l : List (Nat × Nat)) (t0 : Nat) (s : State),
    let learned : State := s.updNet fun x => { x with macs := (x.macs.filter fun e => decide (e.mac ≠ f.src)) ++ [⟨f.src, port, s.clock⟩] }
    let data : Nat := if s.time.slave = some n then 1 else 0
    (s.blockOut 10 = false → portLive port s = true →
      (f.fcsOk = false → ∃ t, exec (.ethFrameRx port f) s = .next t ∧
        t = { s.countUp (0x1C10 + 4 * port.val + 2) 0 32 with net := t.net } ∧ t.net.macs = s.net.macs ∧
        ∀ d : Fin 3, (t.net.egress[d]).frames = (s.net.egress[d]).frames) ∧
      (∀ v pcp, f.vlan = some (v, pcp) → f.fcsOk = true → s.net.macs.length < 1024 → s.net.vlans.lookup v.toNat = none → 64 ≤ s.net.vlans.length →
        exec (.ethFrameRx port f) s = .next learned) ∧
      (f.fcsOk = true → s.net.macs.length < 1024 → s.net.macs.find? (fun e => decide (e.mac = f.dst)) = some ⟨f.dst, p, t0⟩ →
        f.dst ≠ f.src → f.vlan = none → p ≠ port → f.cls ≠ .stream →
        (portLive p s = false → exec (.ethFrameRx port f) s = .next learned) ∧
        (portLive p s = true → (s.net.egress[p]).frames = [] → (s.net.egress[p]).sending = none → f.len ≤ 1522 →
          let q := frameQueue port f s
          let stored : QFrame := ⟨q, f.len, s.clock, port, if f.cls = .ptp then some f.corr else none⟩
          (cutsThrough port f q p s = false → (p ≠ 2 ∨ q = 7) →
            exec (.ethFrameRx port f) s = .next (learned.updEgress p fun e => { e with frames := [stored] })) ∧
          (p = 2 → q ≠ 7 → ∃ t, exec (.ethFrameRx port f) s = .next t ∧ (t.net.egress[p]).frames = [stored] ∧ t.net.macs = learned.net.macs ∧
            t.net.ringIn = (s.net.ringIn % ringBytes s + f.len) % ringBytes s ∧ t.faults = s.faults ∧ t.cells = s.cells ∧ t.modes = s.modes) ∧
          (cutsThrough port f q p s = true → ∃ t, exec (.ethFrameRx port f) s = .next t ∧ t = { s with net := t.net } ∧
            t.net.macs = learned.net.macs ∧ (t.net.egress[p]).frames = [] ∧ (t.net.egress[p]).sending = some (q, f.len, 80 * f.len))))) ∧
    (portLive port s = false → exec (.ethFrameRx port f) s = .next s) ∧
    exec (.macAgeOut mac) s = .next (s.updNet fun x => { x with
      macs := x.macs.filter fun e => decide (e.mac ≠ mac) || decide (s.clock < e.seen + 300000000000) }) ∧
    (s.blockOut 10 = false → s.clockLost = 0 →
      (portMode n s = 1 → exec (.linkUp n 3) s = .next ((s.setFlag 0x1C02 n.val true).setField 0x1C02 (2 + 2 * n.val) 2 3)) ∧
      (portMode n s = 3 → exec (.linkUp n 1) s = .next ((s.setFlag 0x1C02 n.val true).setField 0x1C02 (2 + 2 * n.val) 2 1)) ∧
      (portMode n s = 0 → exec (.linkUp n speed) s = .next s)) ∧
    (portLink n s = true → ∃ t, exec (.linkDown n) s = .next t ∧ (Memory.wf s = true → portLink n t = false ∧ portSpeed n t = 0) ∧
      t.cells = s.cells ∧ t.net = s.net ∧
      (s.time.slave ≠ some n → t.faults.ring.head? = some ⟨0x3001, BitVec.ofNat 16 n.val, BitVec.ofNat 32 data, s.deviceTime⟩)) ∧
    (portLink n s = false → exec (.linkDown n) s = .next s) ∧
    (Writes c (0x1C00 + n.val) s → sealedNow s = false →
      (portLink n s = false → ∃ w : Word, exec (.portModeWrite c n val) s = .next (s.setWord (0x1C00 + n.val) w) ∧ bits w 0 2 = bits val 0 2) ∧
      (portLink n s = true → bits val 0 2 ≠ portMode n s →
        ∃ t, exec (.portModeWrite c n val) s = .next t ∧ portLink n t = false ∧ portMode n t = bits val 0 2 ∧ t.cells = s.cells)) ∧
    (Writes c (0x1C40 + 16 * n.val + entry.val) s → sealedNow s = false → s.word (0x1C40 + 16 * n.val + entry.val) = 0 →
      let a := 0x1C40 + 16 * n.val + entry.val
      let written := writtenList n (s.setWord a val)
      (listFits written = true → exec (.qbvListWrite c n entry val) s =
        .next ((s.setWord a val).updNet fun x => { x with qbv := modAt x.qbv n fun q => { q with next := some (written, s.deviceTime.toNat) } })) ∧
      (listFits written = false → ∃ t, exec (.qbvListWrite c n entry val) s = .next t ∧ t.words = s.words ∧ t.net = s.net)) ∧
    ((s.net.qbv[n]).active ≠ [] → 0 < listCycle (s.net.qbv[n]).active → (s.net.qbv[n]).next = some (l, t0) →
      let cycle := listCycle (s.net.qbv[n]).active
      let start := s.deviceTime.toNat / cycle * cycle
      (s.net.qbv[n]).start < start →
        (t0 + cycle ≤ start → exec (.qbvCycleStart n) s =
          .next (s.updNet fun x => { x with qbv := modAt x.qbv n fun _ => { active := l, next := none, start := start } })) ∧
        (start < t0 + cycle → exec (.qbvCycleStart n) s =
          .next (s.updNet fun x => { x with qbv := modAt x.qbv n fun q => { q with start := start } })))

/-- R176 to R178, R185, R188, R192, R201: a Sync offset of the slave port, measured by its delay mechanism and corrected by its NET_PORT_ASYM (its
sign is the model's choice, log entry 155), is stored and leads to LOCKING; an offset above 1 µs steps device time only in FREE, with TIME_STEPPED;
without Sync for three intervals the time state is HOLDOVER, whose limit is reported once; REARM returns to FREE in Hold; a read of TIME_NOW_LO
latches the high half. -/
def Obligations.DeviceTime : Prop :=
  ∀ (c : CoreId) (rd : Reg) (n : Fin 2) (peer : Bool) (measured_ : Int) (interval : Nat) (s : State), Memory.wf s = true →
    let role := bits (portCfg n s) 5 3
    let offset : Int := measured_ + (s.word (0x1C03 + n.val)).toInt
    (s.blockOut 10 = false → portLink n s = true → (role = 1 ∨ role = 2 ∨ role = 4) → timeByRing s = false → timeClocked s = true →
      peer = peerDelay n s → s.tacks = [] → s.orders = [] → s.accepted = [] → offset.natAbs < 2 ^ 31 →
      ∃ t, exec (.ptpSync n ⟨peer, measured_⟩ interval) s = .next t ∧ t.time.slave = some n ∧ t.time.syncAt = s.clock ∧ t.time.interval = interval ∧
        t.word 0x2003 = BitVec.ofInt 32 offset ∧ t.cells = s.cells ∧ t.cores.map (·.g) = s.cores.map (·.g) ∧
        (timeState s = 0 → timeState t = 1) ∧ (timeState s = 3 → timeState t = 1) ∧
        ((timeState s ≠ 0 ∨ offset.natAbs ≤ 1000) → t.deviceTime = s.deviceTime ∧ t.faults = s.faults) ∧
        (timeState s = 0 → 1000 < offset.natAbs → t.deviceTime = s.deviceTime + BitVec.ofInt 64 offset ∧
          (t.faults.ring.head?.map fun e => (e.code, e.unit)) = some (0x3005, 0xFFFF))) ∧
    ((s.blockOut 10 = true ∨ portLink n s = false ∨ timeByRing s = true ∨ peer ≠ peerDelay n s) →
      exec (.ptpSync n ⟨peer, measured_⟩ interval) s = .next s) ∧
    (timeByRing s = false → s.time.syncAt + 3 * s.time.interval ≤ s.clock → (timeState s = 1 ∨ timeState s = 2) →
      ∃ t, exec .ptpSyncTimeout s = .next t ∧ timeState t = 3 ∧ t.time.holdAt = s.clock ∧ t.deviceTime = s.deviceTime ∧ t.cells = s.cells ∧
        t.faults.ring.head? = some ⟨0x3003, 0xFFFF, 0, s.deviceTime⟩) ∧
    ((timeByRing s = true ∨ s.clock < s.time.syncAt + 3 * s.time.interval) → exec .ptpSyncTimeout s = .next s) ∧
    (timeState s = 3 → s.time.expired = false → s.time.holdAt + s.field 0x2006 0 16 * 1000000000 ≤ s.clock →
      exec .ptpHoldoverExpired s = .next (record 0x3004 0xFFFF 0 (s.updTime fun x => { x with expired := true }))) ∧
    (s.time.expired = true → exec .ptpHoldoverExpired s = .next s) ∧
    (Writes c 0x2007 s →
      (s.modes.mode = .hold → exec (.timeRearm c) s = .next ((s.setField 0x2002 0 2 0).setWord 0x2004 0)) ∧
      (s.modes.mode = .run → exec (.timeRearm c) s = .next s)) ∧
    (coreMay s = true → (s.core c).locked rd = false →
      exec (.timeNowRead c rd) s = .next ({ s with time := { s.time with high := (s.deviceTime >>> 32).setWidth 32 } }.updCore c
        fun k => k.setReg rd ((BitVec.ofNat 32 (s.deviceTime.toNat / 8 * 8)))))

/-- R179, R180, R181, R184: E1.31 data of the winning source reaches its destinations at once, or is held until the sync packet of its address; an
address without sync for 2.5 s holds nothing; with its last source a universe is lost and its FALLBACK applies; the universes of the map are
announced; a stream joins its group with its enable word, source-specific where a source is set, a third one is refused; a packet of a stream begins a
frame, and one whose format disagrees with the stream's words is counted at the port it came by. -/
def Obligations.StageNetworks : Prop :=
  ∀ (c : CoreId) (pk : E131Packet) (u : Universe) (addr : BitVec 16) (dest : Fin 64) (v : Byte) (stream : Fin 2) (enable : Word) (entry : Fin 128)
      (half : Fin 2) (val : Word) (pv : VideoPacket) (src : E131Source) (s : State),
    let univ := pk.univ.toNat
    let only (e : Nat) (m : MapEntry) : Prop := mapEntry e s = m ∧ ∀ k < 128, k ≠ e → (mapEntry k s).valid = false
    let m : MapEntry := ⟨true, false, true, univ, 1, 1, dest.val⟩
    let same (t : State) : Prop := t.words = s.words ∧ t.cells = s.cells ∧ t.faults = s.faults ∧ t.loop = s.loop
    (s.blockOut 10 = false → only 5 m → s.net.universes = [] → s.net.syncs = [] → pk.slots = [v] →
      (pk.sync = 0 → ∃ t, exec (.e131Data pk) s = .next t ∧ (t.led.chans[dest]).net = v.toNat * 257 ∧ same t ∧
        (∀ d : Fin 64, d ≠ dest → t.led.chans[d] = s.led.chans[d])) ∧
      (pk.sync ≠ 0 → ∃ t, exec (.e131Data pk) s = .next t ∧ t.led = s.led ∧ same t ∧
        t.net.universes.map (·.held) = [some (pk.sync.toNat, [v])] ∧ t.net.syncs = [(pk.sync.toNat, s.clock, false)])) ∧
    (s.blockOut 10 = false → only 5 m → s.net.universes = [{ u with univ := univ, held := some (addr.toNat, [v]) }] →
      ∃ t, exec (.e131Sync addr) s = .next t ∧ (t.led.chans[dest]).net = v.toNat * 257 ∧ same t ∧ t.net.universes.map (·.held) = [none]) ∧
    (s.net.syncs = [(addr.toNat, s.clock, false)] → exec .e131SyncTimeout s = .next s) ∧
    (∀ at_, s.net.syncs = [(addr.toNat, at_, false)] → at_ + 2500000000 ≤ s.clock →
      exec .e131SyncTimeout s = .next (s.updNet fun x => { x with syncs := [(addr.toNat, at_, true)] })) ∧
    (s.blockOut 10 = false → only 5 m → s.net.universes = [{ u with univ := univ, sources := [src] }] → src.seen + 2500000000 ≤ s.clock →
      ∃ t, exec (.e131SourceLost pk.univ src.source) s = .next t ∧ (t.led.chans[dest]).net = s.field 0x1E05 0 16 ∧ t.cells = s.cells ∧
        t.net.universes.map (·.sources) = [[]] ∧
        t.faults.ring.head? = some ⟨0x3007, pk.univ, 0, s.deviceTime⟩) ∧
    (s.blockOut 10 = false → s.net.discovery = none →
      exec .e131Discovery s = .next (s.updNet fun x => { x with discovery := some (s.clock, mapUniverses s) })) ∧
    (∀ at_ l, s.net.discovery = some (at_, l) → s.clock < at_ + 10000000000 → exec .e131Discovery s = .next s) ∧
    (let a := 0x1D00 + 2 * entry.val + half.val;
      Writes c a s → s.word a = 0 → val &&& (if half = 0 then 0x1FFF0000 else 0x00000F00) = 0 →
      ((mapEntry entry (s.setWord a val)).valid = false ∨ mapFits entry (s.setWord a val) = true →
        exec (.e131MapWrite c entry half val) s = .next (s.setWord a val)) ∧
      ((mapEntry entry (s.setWord a val)).valid = true → mapFits entry (s.setWord a val) = false →
        ∃ t, exec (.e131MapWrite c entry half val) s = .next t ∧ t.words = s.words ∧ t.net = s.net ∧
          t.faults.ring.head? = some ⟨0x3008, BitVec.ofNat 16 entry.val, 0, s.deviceTime⟩)) ∧
    (Writes c (0x1C25 + 6 * stream.val) s → sealedNow s = false →
      exec (.streamJoin c stream.val true enable) s = .next ((s.setWord (0x1C25 + 6 * stream.val) enable).updNet fun x =>
        { x with
          joined := modAt x.joined stream fun _ => bit enable 0
          report := if bit enable 0 then some (streamGroup stream s,
              streamSource stream s)
            else x.report })) ∧
    (Writes c 0x1C2B s → sealedNow s = false → (s.core c).status = .halted →
      ∃ t, exec (.streamJoin c 2 true enable) s = .next t ∧ t.words = s.words ∧ t.net = s.net ∧
        t.faults.ring.head? = some ⟨0x3006, 2, 0, s.deviceTime⟩) ∧
    (inStream stream pv s = false → exec (.st2110Packet stream pv) s = .next s) ∧
    (s.blockOut 10 = false → s.flag 0x1C02 pv.port.val = true → inStream stream pv s = true →
      (pv.is444 ≠ s.flag (0x1C24 + 6 * stream.val) 0 → exec (.st2110Packet stream pv) s = .next (s.countUp (0x1C12 + 4 * pv.port.val) 0 32)) ∧
      (streamFormat stream pv s = true → pv.first = true → pv.marker = false →
        slotTakes 0 stream.val s = true → slotTakes 1 stream.val s = false →
        (s.panel.slots[(0 : Fin 2)]).cur = none → (∀ b : Fin 4, ((s.panel.slots[(0 : Fin 2)]).bufs[b]).state = .free) →
        (s.panel.slots[(0 : Fin 2)]).shown = none →
        ∃ t b, exec (.st2110Packet stream pv) s = .next t ∧ (t.panel.slots[(0 : Fin 2)]).cur = some b ∧
          ((t.panel.slots[(0 : Fin 2)]).bufs[b]).state = .writing ∧ (t.panel.slots[(0 : Fin 2)]).seq = some pv.seq ∧
          ((t.panel.slots[(0 : Fin 2)]).bufs[b]).capture = rtpTime pv.rtpTime s ∧
          (t.panel.slots[(0 : Fin 2)]).blocks = pv.blocks.map (fun x => ((x.1, 16 * x.2.1), x.2.2.map (widen pv.is10))) ∧
          t.words = s.words ∧ t.dram = s.dram ∧ t.faults = s.faults ∧ t.panel.slots[(1 : Fin 2)] = s.panel.slots[(1 : Fin 2)]))

/-- R266 to R271, R282, R283: a written buffer becomes complete, newest of its slot, eligible at its PRESENT_TIME or at its capture time plus
SLOT_DELAY, and ends a sleep once every write of it is answered; a ready playback buffer does so for every slot that plays; a slot without a frame for
SLOT_SLEEP ms sleeps, once; NEXT takes a bank that the engine owns or is refused. R200, R204, R211, R270, R271: while HOLROS_VIDEO is agreed, a slice
that an up port carries to an admitted node begins a frame of a slot that shows Holros video, whose buffer takes its PRESENT_TIME, or adds its decoded
pixels to the frame it belongs to; a frame is written once its crop is whole. Otherwise, for a frame that has ended, and for one to be shown before
the frame received, it has no effect. -/
def Obligations.PanelFrames : Prop :=
  (∀ (c : CoreId) (slot : Fin 2) (b : Fin 4) (val : Word) (s : State),
    let x := s.panel.slots[slot]
    let y := x.bufs[b]
    let ms := min 500 (max 2 (s.field (slotWord slot 5) 0 9))
    let plays := panelOn slot (inEffect s)
    let finished (eligible : Nat) (t : State) : Prop :=
      ((t.panel.slots[slot]).bufs[b]).state = .complete eligible ∧ ((t.panel.slots[slot]).bufs[b]).order = x.orders + 1 ∧
        (t.panel.slots[slot]).asleep = false ∧ (t.panel.slots[slot]).doneAt = s.clock ∧
        (∀ d : Fin 4, d ≠ b → (t.panel.slots[slot]).bufs[d] = x.bufs[d]) ∧ t.cells = s.cells ∧ t.dram = s.dram ∧ t.faults = s.faults ∧
        (Memory.wf s = true → t.field (slotWord slot 6) 0 2 = 1)
    (s.blockOut 13 = false → y.state = .written → y.asked = 0 →
      ∃ t, exec (.panelBufferComplete slot b) s = .next t ∧
        finished (if y.present then y.capture else y.capture + s.field (slotWord slot 4) 0 20 * 1000) t) ∧
    ((s.blockOut 13 = true ∨ y.state ≠ .written ∨ y.asked ≠ 0) → exec (.panelBufferComplete slot b) s = .next s) ∧
    (Writes c 0x2833 s → slotTakes slot 3 s = true →
      ∃ t, exec (.panelPlayReady c b) s = .next t ∧ finished s.deviceTime.toNat t) ∧
    (Writes c 0x2833 s → slotTakes 0 3 s = false → slotTakes 1 3 s = false → exec (.panelPlayReady c b) s = .next s) ∧
    (plays = true → s.blockOut 13 = false → x.doneAt + ms * 1000000 ≤ s.clock →
      (x.asleep = true → exec (.slotSleep slot) s = .next s) ∧
      (x.asleep = false → exec (.slotSleep slot) s = .next (record 0x5004 slot.val 0
        ((s.updPanelSlot slot fun x => { x with asleep := true }).setField (slotWord slot 6) 0 2 2)))) ∧
    ((plays = false ∨ s.blockOut 13 = true ∨ s.clock < x.doneAt + ms * 1000000) → exec (.slotSleep slot) s = .next s) ∧
    (Writes c 0x2807 s →
      ((bits val 16 5 = 31 ∨ (s.banks[(Fin.ofNat 32 (bits val 16 5) : Fin 32)]).owner = 8) →
        ∃ t, exec (.panelTablesNext c val) s = .next t ∧ t = { s with words := t.words, panel := { s.panel with nextAt := some s.deviceTime.toNat } } ∧
          t.field 0x2807 16 5 = bits val 16 5 ∧ t.field 0x2807 0 3 = bits val 0 3 ∧ t.field 0x2807 24 5 = s.field 0x2807 24 5 ∧
          ∀ a, a ≠ 0x2807 → t.word a = s.word a) ∧
      (bits val 16 5 ≠ 31 → (s.banks[(Fin.ofNat 32 (bits val 16 5) : Fin 32)]).owner ≠ 8 →
        exec (.panelTablesNext c val) s = .next ((record 0x5008 0xFFFF 0x2807 s).refused c 0x2807)))) ∧
  (∀ (port : Fin 2) (b : Fin 4) (x : Slice) (s : State),
    let slot := s.panel.slots[(0 : Fin 2)]
    let got : List ((Nat × Nat) × List Nat) := (slicePixels x).map fun b => ((b.1, b.2.1), b.2.2)
    let held (l : List ((Nat × Nat) × List Nat)) : State := s.updPanelSlot 0 fun y => { y with blocks := l }
    let video : Prop := s.feature 15 = true ∧ s.blockOut 12 = false ∧ holUp port s = true ∧ holAdmitted s = true ∧
      slotTakes 0 2 s = true ∧ slotTakes 1 2 s = false
    ((s.blockOut 12 = true ∨ holUp port s = false ∨ holAdmitted s = false ∨ s.feature 15 = false) →
      exec (.holSliceRx ⟨port, x⟩) s = .next s) ∧
    (slotTakes 1 2 s = false →
      (slotTakes 0 2 s = false ∨ (slot.frame = some x.frame ∧ slot.cur = none) ∨
        (slot.frame.isSome ∧ slot.frame ≠ some x.frame ∧ x.present.toNat < slot.present)) →
      exec (.holSliceRx ⟨port, x⟩) s = .next s) ∧
    (video → slot.cur = none → slot.shown = none → (∀ b : Fin 4, (slot.bufs[b]).state = .free) →
      slot.frame ≠ some x.frame → (slot.frame.isSome → slot.present ≤ x.present.toNat) →
      ∃ t d, exec (.holSliceRx ⟨port, x⟩) s = .next t ∧ (t.panel.slots[(0 : Fin 2)]).frame = some x.frame ∧ t.cells = s.cells ∧
        (slot.is444 = x.is444 → t.words = s.words) ∧ t.faults = s.faults ∧ (t.panel.slots[(0 : Fin 2)]).is444 = x.is444 ∧
        (t.panel.slots[(0 : Fin 2)]).present = x.present.toNat ∧
        ((t.panel.slots[(0 : Fin 2)]).bufs[d]).lossy = decide (x.coder = 2) ∧
        ((t.panel.slots[(0 : Fin 2)]).bufs[d]).is444 = x.is444 ∧
        ((t.panel.slots[(0 : Fin 2)]).bufs[d]).capture = x.present.toNat ∧ ((t.panel.slots[(0 : Fin 2)]).bufs[d]).present = true ∧
        (frameWhole 0 x.is444 (held got) = false → (t.panel.slots[(0 : Fin 2)]).cur = some d ∧ t.dram = s.dram ∧
          ((t.panel.slots[(0 : Fin 2)]).bufs[d]).state = .writing ∧ (t.panel.slots[(0 : Fin 2)]).blocks = got) ∧
        (frameWhole 0 x.is444 (held got) = true → (t.panel.slots[(0 : Fin 2)]).cur = none ∧
          ((t.panel.slots[(0 : Fin 2)]).bufs[d]).state = .written ∧ (t.panel.slots[(0 : Fin 2)]).blocks = [])) ∧
    (video → slot.frame = some x.frame → slot.cur = some b → frameWhole 0 x.is444 (held (slot.blocks ++ got)) = false →
      exec (.holSliceRx ⟨port, x⟩) s = .next (s.updPanelSlot 0 fun y => { y with
        blocks := y.blocks ++ got
        bufs := if x.coder = 2 then modAt y.bufs b fun z => { z with lossy := true } else y.bufs })))

/-- R293 to R295, R301, R306 to R309, R312, R314, R316: class E at V_n swaps in a complete upload with RSTART, or stops it with WABORT and records
SCAN_UNDERRUN; class L starts line 0, or trains after a lost lock. V_n counts the frame and brings the words into effect; before it is due nothing
happens. The selection point opens the next upload; a refresh restarts the drivers; a line goes out once its reads are answered, and VSYNC after the
last; a class L line starts with LOAD, or SCAN_UNDERRUN is counted. An FSYNC edge in its window sets the next V; one outside is ignored and counted,
and in a fourth frame makes the engine hold once the frame is complete. -/
def Obligations.ScanOut : Prop :=
  ∀ (n v : Nat) (s : State),
    let p := s.panel
    let now := s.deviceTime.toNat
    let startsAt := p.vAt + p.refresh * scanPeriod s / (64 * refreshes s)
    let kept (t : State) : Prop := t.cells = s.cells ∧ t.cores.map (·.pc) = s.cores.map (·.pc) ∧ t.fuses = s.fuses ∧ t.led = s.led
    let holds : Prop := p.rephase = true ∧ fsyncIn s = true ∧ predicted s ≤ 64 * now
    let classE : Prop := scanReady s = true ∧ classL s = false
    let lineL : Prop := scanReady s = true ∧ classL s = true
    let applied := applyWords 0x2840 0x2880 s
    let shown : Prop := p.selected = some n ∧ p.runNext = true
    let begins (t : State) : Prop := t.panel.n = some n ∧ t.panel.vAt = v ∧ t.panel.shownF = p.shownF + 1 ∧ t.panel.hold = false ∧ kept t ∧
      (∀ a, 0x2840 ≤ a → a < 0x2844 → t.shownWord a = s.word a) ∧ (n < 2 ^ 24 → Memory.wf s = true → t.field 0x2844 8 24 = n)
    (scanReady s = false → exec .scanFrameStart s = .next s ∧ exec .scanSelect s = .next s ∧ exec (.scanLineStart []) s = .next s ∧
      exec .scanRefreshStart s = .next s ∧ exec .fsyncEdge s = .next s) ∧
    (scanReady s = true → holds → ∃ t, exec .scanFrameStart s = .next t ∧ t.panel.hold = true ∧ t.panel.rephase = false ∧ t.panel.n = p.n ∧
      t.faults = s.faults ∧ kept t ∧ (Memory.wf s = true → t.field 0x2844 0 3 = 3)) ∧
    (scanReady s = true → ¬holds → dueFrame s = none → exec .scanFrameStart s = .next s) ∧
    (classE → ¬holds → dueFrame s = some (n, v, false) → s.modes.mode ≠ .quiet →
      ((shown → uploadDone v applied = true) →
        ∃ t, exec .scanFrameStart s = .next t ∧ begins t ∧ t.faults = s.faults ∧ t.panel.refresh = 1 ∧ t.panel.refreshAt = some v ∧
          t.panel.uploading = p.uploading ∧ (Memory.wf s = true → t.field 0x2844 0 3 = 2) ∧
          (shown → t.panel.latch = [.rstart] ∧ t.panel.swap = false ∧ t.panel.display = if p.swap then p.config else p.display) ∧
          (¬shown → t.panel.latch = [] ∧ t.panel.swap = p.swap ∧ t.panel.display = p.display)) ∧
      (shown → uploadDone v applied = false →
        ∃ t, exec .scanFrameStart s = .next t ∧ begins t ∧ t.panel.latch = [.rstart, .wabort] ∧ t.panel.uploading = false ∧
          t.panel.swap = false ∧ t.panel.display = p.display ∧ t.panel.fetched = [] ∧
          t.faults.ring.head? = some ⟨0x5009, 0xFFFF, 0, s.deviceTime⟩)) ∧
    (lineL → ¬holds → dueFrame s = some (n, v, false) → s.modes.mode ≠ .quiet →
      (p.lanes = .unlocked → ∃ t, exec .scanFrameStart s = .next t ∧ begins t ∧ t.panel.lanes = .training ∧ t.panel.tries = 0 ∧
        t.panel.trainAt = none ∧ t.panel.processed = false ∧ t.faults = s.faults ∧ (Memory.wf s = true → t.field 0x2844 0 3 = 1)) ∧
      (p.lanes = .idle → shown → p.sent = some 0 → 1 < panelH s → ∃ t, exec .scanFrameStart s = .next t ∧ begins t ∧
        t.panel.processed = true ∧ t.panel.line = 1 ∧ t.panel.sent = none ∧ t.panel.lanes = .idle ∧ t.faults = s.faults ∧
        (Memory.wf s = true → t.field 0x2844 0 3 = 2))) ∧
    (scanReady s = true → p.hold = false → dueSelection s = some n → s.modes.mode = .run →
      ∃ t, exec .scanSelect s = .next t ∧ t.panel.selected = some n ∧ t.panel.runNext = true ∧ t.panel.uploading = !classL s ∧
        (classL s = false → t.panel.line = 0) ∧ t.panel.poison = [] ∧ kept t) ∧
    (scanReady s = true → (p.hold = true ∨ dueSelection s = none) → exec .scanSelect s = .next s) ∧
    (classE → p.n.isSome → (p.refresh < refreshes s ∨ p.hold = true) → startsAt ≤ now →
      ∃ t, exec .scanRefreshStart s = .next t ∧ t.panel.refresh = p.refresh + 1 ∧ t.panel.refreshAt = some startsAt ∧ t.words = s.words ∧
        t.faults = s.faults ∧ t.dram = s.dram ∧ kept t ∧
        (p.processed = true → p.hold = false → t.panel.latch = .rstart :: p.latch ∧ t.panel.swap = false ∧
          t.panel.display = if p.swap then p.config else p.display) ∧
        ((p.processed = false ∨ p.hold = true) → t.panel.latch = p.latch ∧ t.panel.sends = p.sends ∧ t.panel.swap = p.swap)) ∧
    (classE → p.uploading = true → (∀ x ∈ p.sends, x.at_ ≤ now) → p.sendCfg = false → p.sendCur = false →
      (p.line = 0 → p.config = some (panelDepth s, segsS s)) → rowsReady (rowsOf p.line s) s = true →
      ∃ t, exec (.scanLineStart []) s = .next t ∧ t.panel.line = p.line + 1 ∧ kept t ∧ t.panel.fetched = [] ∧
        t.panel.out.map (·.1) = rowsOf p.line s ∧
        (p.line + 1 < muxM s → t.panel.latch = .data p.line :: p.latch ∧ t.panel.uploading = true ∧
          (t.panel.sends.head?.map fun x => (x.cmd, x.width)) = some (.data p.line, panelDepth s)) ∧
        (muxM s ≤ p.line + 1 → t.panel.latch = .vsync :: .data p.line :: p.latch ∧ t.panel.uploading = false ∧ t.panel.swap = true)) ∧
    (classE → (p.uploading = false ∨ (∃ x ∈ p.sends, now < x.at_) ∨ rowsReady (rowsOf p.line s) s = false) →
      exec (.scanLineStart []) s = .next s) ∧
    (lineL → p.n.isSome → p.line < linesTotal s → lineAt p.line s ≤ now → p.line < panelH s → p.lanes = .idle → p.processed = true →
      s.modes.mode ≠ .quiet →
      ∃ t, exec (.scanLineStart []) s = .next t ∧ t.panel.line = p.line + 1 ∧ t.panel.pol = polarity p.line s ∧ kept t ∧
        (∀ k < kslLanes s, ((t.panel.ksl.getD k []).take 2) = (encodeKsl (p.kslRd.getD k false) (kslLoad (polarity p.line s))).1) ∧
        (Memory.wf s = true → t.field 0x2846 0 32 =
          if p.sent = some p.line then s.field 0x2846 0 32 else min (2 ^ 32 - 1) (s.field 0x2846 0 32 + 1))) ∧
    (scanReady s = true → fsyncIn s = true →
      let accepted : Prop := p.hold = true ∨ p.n = none ∨ (inWindow now s = true ∧ p.edgeV = none ∧ p.rephase = false)
      let ignores (f : Panel → Panel) : State := (s.countUp 0x2847 0 32).updPanel fun q => { f q with ignoredNow := true }
      (accepted → ∃ t, exec .fsyncEdge s = .next t ∧ t.panel.edgeV = some (now + 2000) ∧ t.panel.hold = false ∧ t.cells = s.cells ∧
        t.faults = s.faults ∧ t.words = s.words) ∧
      (¬accepted → (p.ignoredNow = true ∨ p.rephase = true) → exec .fsyncEdge s = .next (ignores id)) ∧
      (¬accepted → p.ignoredNow = false → p.rephase = false →
        (p.ignored < 3 → exec .fsyncEdge s = .next (ignores fun q => { q with ignored := q.ignored + 1 })) ∧
        (3 ≤ p.ignored → exec .fsyncEdge s = .next ((record 0x500B 0xFFFF 0 (ignores id)).updPanel fun q =>
          { q with ignored := 0, rephase := true }))))

/-- R299, R303 to R305, R308, R309, R316: a training attempt of the class L lanes sends TP1 and then TP2; its check after 30 µs sends CONFIG and IDLE,
or fails, and the third failure sends EIDLE and is recorded; a lost lock is recorded and pulls GOE low; sleeping lanes wake, and are checked and send
IDLE or train; KSL_RETRAIN trains; what the lanes send goes out in the 8b/10b code. In every other state these commands have no effect. The class E
commands ask for CURRENT and CONFIG. A scan word is written as any control word: outside 0x2840 to 0x287F nothing happens; a word with nothing to
write is refused; a value that breaks a budget is refused with PANEL_CONFIG_REFUSED; one within the budgets is stored and waits for the next V_n, and
a class that SCAN_CTRL deselects leaves its lanes in electrical idle. -/
def Obligations.PanelLinks : Prop :=
  ∀ (c : CoreId) (t0 : Nat) (addr : BitVec 16) (val : Word) (s : State),
    let p := s.panel
    let a := addr.toNat
    let now := s.deviceTime.toNat
    let rests : Bool := match p.lanes with | .sleeping | .waking _ => true | _ => false
    let kept (t : State) : Prop := t.cells = s.cells ∧ t.dram = s.dram ∧ t.cores.map (·.pc) = s.cores.map (·.pc)
    let tells (t : State) (state : Nat) : Prop := (Memory.wf s = true → t.field 0x2844 0 3 = state) ∧ kept t
    let adds (t : State) (x : List KslSymbol) : Prop := ∀ k < kslLanes s,
      t.panel.ksl.getD k [] = p.ksl.getD k [] ++ (encodeKsl (p.kslRd.getD k false) x).1 ∧
        t.panel.kslRd.getD k false = (encodeKsl (p.kslRd.getD k false) x).2
    let trains (t : State) : Prop :=
      t.panel.lanes = .training ∧ t.panel.tries = 0 ∧ t.panel.trainAt = none ∧ t.panel.fill = [] ∧ tells t 1 ∧ t.faults = s.faults ∧
        (p.n.isSome → t.panel.gates = {})
    (kslReady s = true →
      ((p.lanes = .electrical ∨ p.lanes = .training) → p.trainAt = none →
        ∃ t, exec .kslTrainStart s = .next t ∧ t.panel.lanes = .training ∧ t.panel.trainAt = some s.clock ∧ t.panel.tries = p.tries ∧
          t.panel.fill = kslTp1 ∧ t.panel.ksl = [] ∧ tells t 1 ∧ t.faults = s.faults ∧ (p.n.isSome → t.panel.gates = {})) ∧
      (p.lanes = .training → p.trainAt = some t0 → t0 + 30000 ≤ s.clock →
        (∃ t, exec (.kslLockCheck true) s = .next t ∧ t.panel.lanes = .idle ∧ t.panel.tries = 0 ∧ t.panel.trainAt = none ∧
          adds t (kslPacket 0x01 (configPayload s) ++ kslIdle) ∧ t.panel.fill = kslIdle ∧ kept t ∧ t.faults = s.faults ∧
          (∀ b, b < 0x2870 ∨ 0x2873 ≤ b → t.word b = s.word b)) ∧
        (p.tries < 2 → ∃ t, exec (.kslLockCheck false) s = .next t ∧ t.panel.lanes = .training ∧ t.panel.tries = p.tries + 1 ∧
          t.panel.trainAt = none ∧ t.panel.ksl = p.ksl ∧ t.words = s.words ∧ kept t ∧ t.faults = s.faults) ∧
        (2 ≤ p.tries → ∃ t, exec (.kslLockCheck false) s = .next t ∧ t.panel.lanes = .failed ∧ t.panel.tries = p.tries + 1 ∧
          t.panel.trainAt = none ∧ adds t kslEidle ∧ t.panel.fill = [] ∧ tells t 0 ∧ (p.n.isSome → t.panel.gates = {}) ∧
          t.faults.ring.head? = some ⟨0x500C, 0xFFFF, 0, s.deviceTime⟩)) ∧
      (p.lanes = .idle → ∃ t, exec .kslLockLost s = .next t ∧ t.panel.lanes = .unlocked ∧ t.panel.ksl = p.ksl ∧ t.words = s.words ∧ kept t ∧
        (p.n.isSome → t.panel.gates.goe = false) ∧ t.faults.ring.head? = some ⟨0x500D, 0xFFFF, 0, s.deviceTime⟩) ∧
      (p.lanes = .sleeping → wakeDue s = some t0 → ∀ b, ∃ t, exec (.kslQuietWake b) s = .next t ∧ t.panel.lanes = .waking t0 ∧
        t.panel.ksl = [] ∧ t.panel.fill = (if t0 + 2000 ≤ now then kslTp2 else kslTp1) ∧ t.words = s.words ∧ kept t ∧ t.faults = s.faults) ∧
      (p.lanes = .waking t0 → wakeCheck t0 s ≤ now →
        (∃ t, exec (.kslQuietWake true) s = .next t ∧ t.panel.lanes = .idle ∧ adds t kslIdle ∧ t.panel.fill = kslIdle ∧
          t.words = s.words ∧ kept t ∧ t.faults = s.faults) ∧
        (∃ t, exec (.kslQuietWake false) s = .next t ∧ trains t)) ∧
      (Writes c 0x2866 s → ∃ t, exec (.kslRetrain c) s = .next t ∧ trains t)) ∧
    ((kslReady s = false ∨ (p.lanes ≠ .electrical ∧ p.lanes ≠ .training) ∨ p.trainAt ≠ none) → exec .kslTrainStart s = .next s) ∧
    ((kslReady s = false ∨ p.lanes ≠ .training ∨ p.trainAt = none ∨ (p.trainAt = some t0 ∧ s.clock < t0 + 30000)) →
      ∀ b, exec (.kslLockCheck b) s = .next s) ∧
    ((kslReady s = false ∨ p.lanes ≠ .idle) → exec .kslLockLost s = .next s) ∧
    ((kslReady s = false ∨ rests = false ∨ (p.lanes = .sleeping ∧ wakeDue s = none) ∨
        (p.lanes = .waking t0 ∧ now < wakeCheck t0 s)) → ∀ b, exec (.kslQuietWake b) s = .next s) ∧
    (Writes c 0x2866 s → kslReady s = false → exec (.kslRetrain c) s = .next s) ∧
    (Writes c 0x2853 s →
      exec (.scanESendCurrent c) s = .next (s.updPanel fun q => { q with sendCur := true }) ∧
      exec (.scanESendConfig c) s = .next (s.updPanel fun q => { q with sendCfg := true })) ∧
    ((a < 0x2840 ∨ 0x2880 ≤ a) → exec (.scanWordWrite c addr val) s = .next s) ∧
    (0x2840 ≤ a → a < 0x2880 →
      let m := maskNow (· == .rw) a s
      let v := (val &&& m) ||| (s.word a &&& ~~~m)
      let stored : State := (s.setWord a v).updPanel fun q => { q with changed := true }
      exec (.scanWordWrite c addr val) s = exec (.controlWrite c addr val) s ∧
      (Writes c a s → maskNow (· != .ro) a s = 0 →
        exec (.scanWordWrite c addr val) s = .next ((record 0x1016 c.val a s).refused c a)) ∧
      (Writes c a s → m ≠ 0 →
        (panelBudget (s.setWord a v) = false →
          exec (.scanWordWrite c addr val) s = .next ((record 0x5007 0xFFFF a s).refused c a)) ∧
        (panelBudget (s.setWord a v) = true → (a ≠ 0x2840 ∨ classL stored = true) → exec (.scanWordWrite c addr val) s = .next stored) ∧
        (panelBudget (s.setWord a v) = true → a = 0x2840 → classL stored = false →
          ∃ t, exec (.scanWordWrite c addr val) s = .next t ∧ t.words = stored.words ∧ t.panel.changed = true ∧ t.panel.lanes = .electrical ∧
            t.panel.ksl = [] ∧ t.panel.fill = [] ∧ kept t ∧ t.faults = s.faults)) ∧
      (Writes c a s → a = 0x2853 → exec (.scanWordWrite c addr val) s = .next (s.updPanel fun q => { q with
        sendCur := q.sendCur || val.getLsbD 1, sendCfg := q.sendCfg || val.getLsbD 0 })) ∧
      (Writes c a s → a = 0x2866 → exec (.scanWordWrite c addr val) s = if val.getLsbD 0 then exec (.kslRetrain c) s else .next s))

/-- R196, R198 to R200, R203, R214: a node without a master claims once in 125 µs unless a better claim withdraws its own; its claim come round the
ring on both ports makes it master, a better claim is passed on and ends a master's role, and two strapped masters are a conflict; in a chain 8 quiet
intervals make it master; a follower that hears no cycle sync for 3 cycles starts an election. A cycle sync gives a follower its number; the sixteenth
is refused. The master judges budgets in node order and sends its masks and slots, which the nodes take. -/
def Obligations.HolrosElection : Prop :=
  ∀ (p : Fin 2) (f : SyncFrame) (slots : List NodeSlot) (x0 x : NodeSlot) (n : Nat) (b : Nat × Nat × Nat) (id : DWord) (s : State),
    let h := s.hol
    let role := s.field 0x2400 0 2
    let now := s.deviceTime.toNat / 125000
    let claim : Nat × DWord := (f.flags.toNat / 8 % 4, f.masterId)
    let up : List (Fin 2) := ([0, 1] : List (Fin 2)).filter fun q => holUp q s
    let noEntries : Prop := ∀ e ∈ f.emerg, e.valid = false
    let master (t : State) : Prop := t.field 0x2400 0 2 = 1 ∧ t.field 0x2400 8 4 = 0 ∧ t.word 0x2408 ++ t.word 0x2407 = s.fuses.devid ∧
      t.field 0x2400 16 5 = 1 ∧ t.hol.numbered = true ∧ t.hol.claiming = false ∧ t.hol.admitMask = 1 ∧ t.hol.refuseMask = 0 ∧
      t.cells = s.cells
    s.blockOut 12 = false →
      (role = 0 → (holUp 0 s || holUp 1 s) = true → h.heardAt + 375000 ≤ s.clock → h.claimAt ≠ some now →
        (((h.best.all fun y => !ranksAbove y (ownClaim s)) = true ∨ 8 ≤ h.quiet) →
          exec .holClaimSend s = .next (s.updHol fun h => { h with
            claimAt := some now, claiming := true, quiet := h.quiet + 1
            sent := some (⟨3, BitVec.ofNat 8 (strapPrio s * 8), s.word 0x2406, 0, s.fuses.devid, 0, 0, 0, 0, true, false, [], []⟩, up) })) ∧
        (∀ y, h.best = some y → ranksAbove y (ownClaim s) = true → h.quiet < 8 →
          exec .holClaimSend s = .next (s.updHol fun h => { h with claimAt := some now, claiming := false, quiet := h.quiet + 1 }))) ∧
      ((role ≠ 0 ∨ s.clock < h.heardAt + 375000 ∨ h.claimAt = some now) → exec .holClaimSend s = .next s) ∧
      (holUp p s = true → f.crcOk = true → f.type = 3 →
        let broken := (h.ports[otherPort p]).broken
        let out := if broken then p else otherPort p
        (claim = ownClaim s → (claim.1 = 1 ∨ claim.1 = 2 ∧ s.fuses.devid ∈ h.mstrSeen) → role = 0 → f.folded = false →
          h.returned[otherPort p] = true → Memory.wf s = true →
          ∃ t, exec (.holClaimRx p f) s = .next t ∧ master t ∧ t.flag 0x2400 2 = false ∧ t.faults = s.faults) ∧
        (ranksAbove claim (ownClaim s) = true → claim.1 ≠ 2 → role = 0 → h.best = none → holUp out s = true →
          exec (.holClaimRx p f) s = .next (s.updHol fun h => { h with
            claiming := false, quiet := 0, best := some claim, returned := Vector.replicate 2 false
            sent := some ({ f with folded := f.folded || broken }, [out]) })) ∧
        (ranksAbove claim (ownClaim s) = true → claim.1 ≠ 2 → role = 1 → Memory.wf s = true →
          ∃ t, exec (.holClaimRx p f) s = .next t ∧ t.field 0x2400 0 2 = 0 ∧ t.hol.numbered = false ∧ t.hol.best = some claim ∧
            t.hol.admitMask = 0 ∧ t.cells = s.cells ∧ t.faults = s.faults) ∧
        ((1 < role ∨ ranksAbove claim (ownClaim s) = false ∧ claim ≠ ownClaim s) → claim.1 ≠ 2 →
          exec (.holClaimRx p f) s = .next s) ∧
        (claim.1 = 2 → h.mstrSeen = [id] → id ≠ f.masterId →
          ∃ t, exec (.holClaimRx p f) s = .next t ∧ t.hol.mstrSeen = [f.masterId, id] ∧
            t.faults.ring.head? = some ⟨0x4006, 0xFFFF, 0, s.deviceTime⟩)) ∧
      (role = 0 → (holUp 0 s || holUp 1 s) = true → (h.returned[(0 : Fin 2)] && h.returned[(1 : Fin 2)]) = false → 8 ≤ h.quiet →
        strapPrio s ≠ 0 → Memory.wf s = true → s.flag 0x2400 2 = false →
        ∃ t, exec .holClaimTimeout s = .next t ∧ master t ∧ t.flag 0x2400 2 = true ∧
          t.faults.ring.head? = some ⟨0x4004, 0xFFFF, 0, s.deviceTime⟩) ∧
      ((h.quiet < 8 ∨ role ≠ 0 ∨ strapPrio s = 0 ∨ (h.returned[(0 : Fin 2)] && h.returned[(1 : Fin 2)]) = true) →
        exec .holClaimTimeout s = .next s) ∧
      (2 ≤ role →
        (s.clock < h.heardAt + 375000 → exec .holMasterLost s = .next s) ∧
        (h.heardAt + 375000 ≤ s.clock → Memory.wf s = true →
          ∃ t, exec .holMasterLost s = .next t ∧ t.field 0x2400 0 2 = 0 ∧ t.hol.numbered = false ∧ t.hol.admitMask = 0 ∧ t.cells = s.cells ∧
            (s.flag 0x2404 0 = false → t.faults.ring.head? = some ⟨0x4005, 0xFFFF, 0, s.deviceTime⟩ ∧ t.time = s.time) ∧
            (s.flag 0x2404 0 = true → (s.field 0x2002 0 2 = 1 ∨ s.field 0x2002 0 2 = 2) → t.field 0x2002 0 2 = 3))) ∧
      (holUp 0 s = true → f.crcOk = true → f.type = 1 → noEntries → role = 0 → h.numbered = false → h.passive = false → Memory.wf s = true →
        let chains := f.flags.getLsbD 0 && !s.flag 0x2400 2
        let took (t : State) : Prop := t.field 0x2400 0 2 = 2 ∧ t.field 0x2400 8 4 = f.hops.toNat + 1 ∧ t.flag 0x2400 2 = f.flags.getLsbD 0 ∧
          t.field 0x2400 16 5 = f.nodes.toNat % 32 ∧ t.word 0x2408 ++ t.word 0x2407 = f.masterId ∧ t.word 0x2406 = f.cycle ∧
          t.hol.numbered = true ∧ t.hol.heardAt = s.clock ∧ t.hol.budgetLeft = 8 ∧ t.cells = s.cells ∧
          (chains = false → t.faults = s.faults) ∧
          (chains = true → t.faults.ring.head? = some ⟨0x4004, 0xFFFF, 0, s.deviceTime⟩)
        (f.hops.toNat < 15 →
          (s.flag 0x2404 0 = false → ∃ t, exec (.holCycleSyncRx 0 f) s = .next t ∧ took t ∧ t.time = s.time) ∧
          (s.flag 0x2404 0 = true → ∃ t, exec (.holCycleSyncRx 0 f) s = .next
            (measured ((f.masterTime.toNat + f.accum.toNat + s.field 0x2409 0 16 : Nat) - (s.deviceTime.toNat : Int)) t) ∧ took t)) ∧
        (15 ≤ f.hops.toNat → ∃ t, exec (.holCycleSyncRx 0 f) s = .next t ∧ t.field 0x2400 0 2 = 3 ∧ t.hol.passive = true ∧
          ⟨0x4007, 0xFFFF, BitVec.ofNat 32 (f.hops.toNat + 1), s.deviceTime⟩ ∈ t.faults.ring)) ∧
      (role = 1 → h.cycleAt = some n → h.tableSent = false →
        (s.deviceTime.toNat < n * 125000 + 62500 → exec .holSlotTableSend s = .next s) ∧
        (n * 125000 + 62500 ≤ s.deviceTime.toNat → up ≠ [] → h.table = [x0, x] → x0.present = true → x.present = true → x.budget = some b →
          s.field 0x2400 16 5 ≤ 2 → h.admitMask.getLsbD 1 = false → h.refuseMask.getLsbD 1 = false →
          let fits := budgetFits h.budgets b
          let allowed : BitVec 16 := if fits then h.admitMask ||| 2 else h.admitMask
          let refuse : BitVec 16 := if fits then h.refuseMask else h.refuseMask ||| 2
          let table := x0 :: x :: List.replicate 14 absentSlot
          ∃ t, exec .holSlotTableSend s = .next t ∧ t.hol.admitMask = allowed ∧ t.hol.refuseMask = refuse ∧ t.hol.tableSent = true ∧
            t.hol.budgets = (if fits then h.budgets ++ [(1, b)] else h.budgets) ∧ t.words = s.words ∧ t.cells = s.cells ∧
            t.hol.slots = table ∧ t.hol.slotsNew = true ∧ ∃ g, t.hol.sent = some (g, up) ∧ g.type = 2 ∧
            g.flags = BitVec.ofNat 8 (b2n (s.flag 0x2400 2)) ∧ g.cycle = s.word 0x2406 ∧ g.masterTime = BitVec.ofNat 64 (n * 125000) ∧
            g.masterId = s.fuses.devid ∧ g.resetMask = allowed ∧ g.accum = refuse ∧ g.hops = 0 ∧
            g.nodes = BitVec.ofNat 8 (s.field 0x2400 16 5) ∧ g.slots = table ∧
            (h.ownLeft = 0 → ∀ i < 16, fieldAt noEmergency g.emerg i =
              if (fieldAt noEmergency h.field i).valid then fieldAt noEmergency h.field i else noEmergency))) ∧
      (holUp p s = true → f.crcOk = true → f.type = 2 → noEntries →
        let taken (l : List NodeSlot) (h : Holros) : Holros := { h with
          slots := l, slotsNew := true, ports := h.ports.map fun x => { x with bulk := 0 }, budgetLeft := h.budgetLeft - 1
          tableOf := some f.cycle }
        let whole : Prop := ∀ i < 16, i < f.nodes.toNat → (fieldAt absentSlot slots i).present = true
        let first : Prop := role ≠ 1 ∧ h.tableOf ≠ some f.cycle
        let noneWait : Prop := ∀ q : Fin 2, (h.ports[q]).passing = []
        ((role = 1 ∨ h.tableOf = some f.cycle) → exec (.holSlotTableRx p f slots) s = .next s) ∧
        (whole → first → noneWait → role ≠ 2 → exec (.holSlotTableRx p f slots) s = .next (s.updHol (taken (slots.take 16)))) ∧
        (whole → first → role = 2 → h.numbered = true → Memory.wf s = true →
          ∃ t, exec (.holSlotTableRx p f slots) s = .next t ∧ t.hol.admitMask = f.resetMask ∧ t.hol.refuseMask = f.accum ∧
            t.hol.slots = slots.take 16 ∧ t.hol.slotsNew = true ∧ t.cells = s.cells ∧
            (f.accum.getLsbD (s.field 0x2400 8 4) = false → t.words = s.words ∧ t.faults = s.faults) ∧
            (f.accum.getLsbD (s.field 0x2400 8 4) = true → t.field 0x2400 0 2 = 3 ∧ t.hol.passive = true ∧
              t.faults.ring.head? = some ⟨0x4008, BitVec.ofNat 16 (s.field 0x2400 8 4), 0, s.deviceTime⟩)) ∧
        (slots = [x0, x] → x0.present = true → x.present = false → f.nodes = 2 → first → noneWait → role ≠ 2 →
          exec (.holSlotTableRx p f slots) s =
            .next ((record 0x4009 1 (f.cycle.toNat % 65536) (s.countUp 0x240B 0 32)).updHol (taken [x0, x])))) ∧
      (holUp p s = false → exec (.holSlotTableRx p f slots) s = .next s ∧ exec (.holClaimRx p f) s = .next s ∧
        exec (.holCycleSyncRx p f) s = .next s)

/-- R194, R195, R197, R201, R202, R204 to R207, R212: the master launches a cycle at each 125 µs; a node sends a frame on with its own entry and slot
and counts a hop; a port that loses lock, misses cycles, rejoins at a boundary or comes up; the error counters fray and cut it, and RECOVER brings it
back; bulk packets are taken, sent on and sent where they fit what remains of a half, or wait for the next one. -/
def Obligations.HolrosRing : Prop :=
  ∀ (c : CoreId) (mask : Fin 4) (p : Fin 2) (f : SyncFrame) (rxBad txBad : Bool) (delay : Option (BitVec 16)) (k : BulkPacket) (e : EmergEntry)
    (s : State),
    let h := s.hol
    let role := s.field 0x2400 0 2
    let a := 0x2401 + p.val
    let state := s.field a 16 2
    let data : Nat := s.field a 8 8 + 256 * s.field a 0 8
    let n := s.deviceTime.toNat / 125000
    let me := s.field 0x2400 8 4
    let up : List (Fin 2) := ([0, 1] : List (Fin 2)).filter fun q => holUp q s
    let writes := h.numbered && !h.passive
    let entry (cycle : Word) (type : Byte) : EmergEntry :=
      let left := if h.counted = some (cycle, type) then h.ownLeft else h.ownLeft - 1
      if 0 < left ∧ left ≤ 8 then h.own.getD noEmergency else noEmergency
    let broken := (h.ports[otherPort p]).broken
    let out := if broken then p else otherPort p
    let bytes := k.payload.length + 20
    let spend (out : Fin 2) (s : State) : State :=
      (s.updHolPort out fun x => { x with bulk := x.bulk + bytes }).updHol fun h => { h with bulkSent := some (k, out) }
    s.blockOut 12 = false →
      (role = 1 → h.cycleAt ≠ some n → Memory.wf s = true → up ≠ [] →
        ∃ t, exec .holCycleStart s = .next t ∧ t.word 0x2406 = s.word 0x2406 + 1 ∧ t.hol.cycleAt = some n ∧ t.hol.tableSent = false ∧
          t.hol.resetLeft = h.resetLeft - 1 ∧ t.cells = s.cells ∧ t.faults = s.faults ∧
          (∀ q : Fin 2, (t.hol.ports[q]).broken = ((h.ports[q]).broken && !(h.ports[q]).rejoin) ∧ (t.hol.ports[q]).rejoin = false) ∧
          ((∀ q : Fin 2, (h.ports[q]).passing = []) → ∀ q : Fin 2, (t.hol.ports[q]).bulk = 0 ∧ (t.hol.ports[q]).passing = []) ∧
          ((h.ports[p]).passing = [k] → (h.ports[otherPort p]).passing = [] → bytes ≤ 74848 → holUp p s = true → (h.ports[p]).broken = false →
            t.hol.bulkSent = some (k, p) ∧ (t.hol.ports[p]).bulk = bytes ∧ (t.hol.ports[p]).passing = []) ∧
          ((∀ q : Fin 2, (h.ports[q]).rejoin = false) → t.flag 0x2400 2 = s.flag 0x2400 2) ∧
          ((h.ports[p]).rejoin = true → (h.ports[otherPort p]).broken = false → t.flag 0x2400 2 = false) ∧
          (writes = true → h.counted ≠ some (s.word 0x2406 + 1, 1) → t.hol.ownLeft = h.ownLeft - 1) ∧
          ∃ g, t.hol.sent = some (g, up) ∧ g.type = 1 ∧ g.flags.getLsbD 0 = t.flag 0x2400 2 ∧ g.flags.getLsbD 1 = decide (0 < h.resetLeft) ∧
          g.cycle = s.word 0x2406 + 1 ∧ g.masterTime = BitVec.ofNat 64 (n * 125000) ∧ g.masterId = s.fuses.devid ∧
          g.resetMask = (if 0 < h.resetLeft then h.resetMask else 0) ∧ g.hops = 0 ∧ g.accum = 0 ∧ g.folded = false ∧
          (writes = true → (fieldAt absentSlot g.slots me).present = true ∧ fieldAt noEmergency g.emerg me = entry g.cycle 1) ∧
          (∀ i < 16, i ≠ me → (fieldAt absentSlot g.slots i).present = false ∧ (fieldAt noEmergency g.emerg i).valid = false)) ∧
      ((role ≠ 1 ∨ h.cycleAt = some n) → exec .holCycleStart s = .next s) ∧
      (holUp p s = true → holUp out s = true → ¬(role = 1 ∧ f.masterId = s.fuses.devid) → ¬(f.type = 3 ∧ role < 2) →
        (writes = false →
          exec (.holFrameForward p f) s = .next (s.updHol fun h => { h with sent := some ({ f with folded := f.folded || broken }, [out]) })) ∧
        (writes = true →
          ∃ t, exec (.holFrameForward p f) s = .next t ∧ t.words = s.words ∧ t.cells = s.cells ∧ t.faults = s.faults ∧
            ∃ y, t.hol.sent = some (y, [out]) ∧ (∃ stay, stay ≤ 1500 ∧ { y with emerg := f.emerg, slots := f.slots } = { f with
              hops := if f.crcOk then f.hops + 1 else f.hops, folded := f.folded || broken
              accum := if f.type = 1 ∧ f.crcOk = true then f.accum + BitVec.ofNat 16 (s.field (0x2409 + p.val) 0 16 + stay) else f.accum }) ∧
            (f.type ≠ 1 → y.slots = f.slots) ∧
            (f.type = 1 → (fieldAt absentSlot y.slots me).present = true ∧
              ∀ i < 16, i ≠ me → fieldAt absentSlot y.slots i = fieldAt absentSlot f.slots i) ∧
            ((f.type = 3 ∨ f.type = 2 ∧ (entry f.cycle f.type).valid = false) → y.emerg = f.emerg) ∧
            ((f.type ≠ 3 ∧ (f.type ≠ 2 ∨ (entry f.cycle f.type).valid = true)) → fieldAt noEmergency y.emerg me = entry f.cycle f.type ∧
              ∀ i < 16, i ≠ me → fieldAt noEmergency y.emerg i = fieldAt noEmergency f.emerg i))) ∧
      ((holUp p s = false ∨ role = 1 ∧ f.masterId = s.fuses.devid ∨ f.type = 3 ∧ role < 2) → exec (.holFrameForward p f) s = .next s) ∧
      (state < 2 →
        (Memory.wf s = true →
          ∃ t, exec (.holLinkDown p) s = .next t ∧ t.field a 16 2 = 3 ∧ (t.hol.ports[p]).broken = true ∧ (t.hol.ports[p]).locked = false ∧
            t.field a 0 16 = s.field a 0 16 ∧ t.cells = s.cells ∧ (role = 1 → t.flag 0x2400 2 = true) ∧
            t.faults.ring.head? = some ⟨0x4001, BitVec.ofNat 16 p.val, BitVec.ofNat 32 data, s.deviceTime⟩) ∧
        (2 ≤ role → exec (.holCycleStartMissing p) s =
          .next (s.updHolPort p fun x => { x with broken := true, tautRun := 0, rejoin := false })) ∧
        (role = 1 → Memory.wf s = true → s.flag 0x2400 2 = false →
          ∃ t, exec (.holCycleStartMissing p) s = .next t ∧ t.flag 0x2400 2 = true ∧ (t.hol.ports[p]).broken = true ∧ t.cells = s.cells ∧
            t.faults.ring.head? = some ⟨0x4004, 0xFFFF, 0, s.deviceTime⟩) ∧
        (role = 0 → exec (.holCycleStartMissing p) s = .next s)) ∧
      (2 ≤ state → exec (.holLinkDown p) s = .next s ∧ exec (.holCycleStartMissing p) s = .next s) ∧
      ((h.ports[p]).broken = true → state = 0 → 1024 ≤ (h.ports[p]).tautRun →
        exec (.holRingRejoin p) s = .next (s.updHolPort p fun x => { x with rejoin := true })) ∧
      (((h.ports[p]).tautRun < 1024 ∨ (h.ports[p]).broken = false ∨ state ≠ 0) → exec (.holRingRejoin p) s = .next s) ∧
      (state = 3 → Memory.wf s = true →
        ∃ t, exec (.holPortUp p) s = .next t ∧ t.word a = 0 ∧ (t.hol.ports[p]).locked = true ∧ (t.hol.ports[p]).goodRun = 0 ∧
          (t.hol.ports[p]).broken = ((h.ports[p]).broken && decide (role ≠ 0)) ∧ t.cells = s.cells ∧ t.faults = s.faults ∧
          t.hol.ports[otherPort p] = h.ports[otherPort p] ∧ (holUp (otherPort p) s = false → t.hol.heardAt = s.clock) ∧
          (holUp (otherPort p) s = true → t.hol.heardAt = h.heardAt)) ∧
      (state < 3 → exec (.holPortUp p) s = .next s) ∧
      (let rec' := if rxBad then s.field a 8 8 + 1 else s.field a 8 8 - 1
       let tec' := if txBad then s.field a 0 8 + 8 else s.field a 0 8 - 1
       state < 3 → Memory.wf s = true →
        ∃ t, exec (.holErrorScore p ⟨rxBad, txBad⟩ delay) s = .next t ∧ t.cells = s.cells ∧
          t.word (0x2409 + p.val) = (match delay with | some d => d.setWidth 32 | none => s.word (0x2409 + p.val)) ∧
          (state = 2 → t.word a = s.word a ∧ t.faults = s.faults ∧
            (t.hol.ports[p]).goodRun = (if rxBad then 0 else (h.ports[p]).goodRun + 1)) ∧
          (state < 2 → rec' ≤ 255 → tec' ≤ 255 → t.field a 8 8 = rec' ∧ t.field a 0 8 = tec' ∧
            t.field a 16 2 = (if 128 ≤ rec' ∨ 128 ≤ tec' then 1 else 0) ∧
            ((state = 1 ∨ (rec' < 128 ∧ tec' < 128)) → t.faults = s.faults) ∧
            (state = 0 → (128 ≤ rec' ∨ 128 ≤ tec') → t.faults.ring.head? =
              some ⟨0x4002, BitVec.ofNat 16 p.val, BitVec.ofNat 32 (rec' + 256 * tec'), s.deviceTime⟩)) ∧
          (state < 2 → (255 < rec' ∨ 255 < tec') → t.field a 8 8 = 255 ∧ t.field a 0 8 = 255 ∧ t.field a 16 2 = 2 ∧
            (t.hol.ports[p]).broken = true ∧ t.faults.ring.head? = some ⟨0x4003, BitVec.ofNat 16 p.val, 0xFFFF, s.deviceTime⟩)) ∧
      (Writes c 0x2403 s → mask.val = 2 ^ p.val →
        (state = 2 → 1024 ≤ (h.ports[p]).goodRun →
          exec (.holRecover c mask) s = .next ((s.setWord a 0).updHolPort p fun x => { x with tautRun := 0, goodRun := 0 })) ∧
        ((state ≠ 2 ∨ (h.ports[p]).goodRun < 1024) → exec (.holRecover c mask) s = .next (record 0x400C p data s))) ∧
      (let mine := h.numbered && decide (k.dest.toNat = me)
       let own := h.numbered && decide (k.src.toNat = me)
       let stored (s : State) : State := s.updHol fun h => { h with inbox := h.inbox ++ [k] }
       let goes : Prop := (h.ports[otherPort p]).passing = [] ∧ holUp out s = true ∧ (h.ports[out]).bulk + bytes ≤ 74848
       (holUp p s = false → exec (.holBulkRx ⟨p, k⟩) s = .next s) ∧
       (holUp p s = true → k.type = 1 → k.dest ≠ 0xFF →
        (mine = true → k.crcOk = true →
          (k.src ≠ 0 → exec (.holBulkRx ⟨p, k⟩) s = .next (stored s)) ∧
          (k.src = 0 → role = 2 → ∀ o, payloadOrder 16 0 0 k.payload s = (o, true) →
            exec (.holBulkRx ⟨p, k⟩) s = .next (admitOrder o true s))) ∧
        (mine = true → k.crcOk = false → exec (.holBulkRx ⟨p, k⟩) s = .next s) ∧
        (mine = false → own = true → exec (.holBulkRx ⟨p, k⟩) s = .next s) ∧
        (mine = false → own = false →
          (goes → exec (.holBulkRx ⟨p, k⟩) s = .next (spend out s)) ∧
          (¬goes → exec (.holBulkRx ⟨p, k⟩) s = .next (s.updHolPort (otherPort p) fun x => { x with passing := x.passing ++ [k] })))) ∧
       (holUp p s = true → k.type = 1 → k.dest = 0xFF → k.crcOk = true → k.src ≠ 0 → own = false → goes →
        exec (.holBulkRx ⟨p, k⟩) s = .next (stored (spend out s)))) ∧
      (h.outbox = [] → exec (.holBulkSend ⟨p, []⟩) s = .next s) ∧
      (h.outbox = [] → k.payload.length ≤ 8192 →
        (holAdmitted s = true → state = 0 → (h.ports[p]).bulk + bytes ≤ 74848 →
          exec (.holBulkSend ⟨p, [(k, none)]⟩) s = .next (spend p s)) ∧
        ((holAdmitted s = false ∨ state ≠ 0 ∨ 74848 < (h.ports[p]).bulk + bytes) →
          exec (.holBulkSend ⟨p, [(k, none)]⟩) s = .next (s.updHol fun h => { h with outbox := [k] }) ∧
          (k.prio = 7 → exec (.holBulkSend ⟨p, [(k, some e)]⟩) s = .next (s.updHol fun h => { h with
            outbox := [k], own := some ⟨true, e.cat, h.ownSeq + 1, e.object, e.reason, true⟩, ownSeq := h.ownSeq + 1, ownLeft := 9 }))))

/-- R61, R62, R204, R207 to R210, R215, R439: HEST_N low stops the machinery by the category that HEST_CAT selects; its two commands and its release;
an emergency entry is shown, and recorded and acted on where it concerns this node; the master's reset command is sent in 3 cycle syncs and resets the
nodes it names; an image of the ring is collected and judged. -/
def Obligations.HolrosStops : Prop :=
  ∀ (c : CoreId) (mask : BitVec 16) (port : Fin 2) (node : NodeId) (e : EmergEntry) (f : SyncFrame) (p : BulkPacket) (s : State),
    let h := s.hol
    let role := s.field 0x2400 0 2
    let stops (cat : Nat) (t : State) : Prop := t.modes.mode = .stop ∧ ∃ q : StopSeq, t.mach.stop = some q ∧ q.cat = cat ∧ q.origin = .run
    let trips (t : State) : Prop := t.modes.mode = .trip ∧ machinerySafe t = true
    (s.modes.mode = .run → s.modes.held = false → Memory.wf s = true →
      (h.hestSeen = false →
        ∃ t, exec .hestAsserted s = .next t ∧ t.flag 0x2405 3 = true ∧ t.hol.hestSeen = true ∧ t.cells = s.cells ∧
          ⟨0x400A, 0xFFFF, 0, s.deviceTime⟩ ∈ t.faults.ring ∧
          (s.field 0x2404 1 2 = 1 → stops 1 t) ∧ (s.field 0x2404 1 2 ≠ 1 → trips t)) ∧
      (h.hestSeen = true → exec .hestAsserted s = .next s)) ∧
    (coresPowered s = false → exec .hestAsserted s =
      .next ((s.setFlag 0x2405 3 true).updHol fun h => { h with hestOthers := h.hestOthers || !s.flag 0x2405 2 })) ∧
    (Writes c 0x2405 s →
      exec (.hestAssertCmd c) s = .next ((s.setFlag 0x2405 2 true).setFlag 0x2405 3 true) ∧
      (ownCause s = true → exec (.hestReleaseCmd c) s = .next (s.refused c 0x2405)) ∧
      (ownCause s = false → exec (.hestReleaseCmd c) s = .next (((s.setFlag 0x2405 2 false).setFlag 0x2405 3 h.hestOthers).updHol fun h =>
        { h with hestSeen := h.hestSeen && h.hestOthers }))) ∧
    (exec .hestNReleased s = .next ((s.setFlag 0x2405 3 (s.flag 0x2405 2)).updHol fun h =>
      { h with hestOthers := false, hestSeen := h.hestSeen && s.flag 0x2405 2 })) ∧
    (s.blockOut 12 = false →
      ((holUp port s = false ∨ e.valid = false ∨ e.crcOk = false ∨ h.seen[node] = some e.seq) →
        exec (.holEmergencyRx ⟨port, node⟩ e) s = .next s) ∧
      (holUp port s = true → e.valid = true → e.crcOk = true → h.seen[node] ≠ some e.seq → Memory.wf s = true →
        ∃ t, exec (.holEmergencyRx ⟨port, node⟩ e) s = .next t ∧ t.hol.seen[node] = some e.seq ∧ t.cells = s.cells ∧
          t.word (0x2410 + 2 * node.val) =
            BitVec.ofNat 32 ((128 + e.cat.toNat * 32) * 2 ^ 24 + e.seq.toNat * 2 ^ 16 + e.object.toNat) ∧
          t.field (0x2411 + 2 * node.val) 16 16 = e.reason.toNat ∧
          (concerns node e s = false → t.modes = s.modes ∧ t.mach = s.mach ∧ t.faults = s.faults) ∧
          (concerns node e s = true → ⟨e.reason, BitVec.ofNat 16 node.val, e.object.setWidth 32, s.deviceTime⟩ ∈ t.faults.ring) ∧
          (concerns node e s = true → s.modes.mode = .run →
            (e.cat = 0 → trips t ∧ t.flag 0x5080 8 = true) ∧ (e.cat = 1 → stops 1 t) ∧ (e.cat = 2 → stops 2 t))) ∧
      (s.modes.held = false → s.modes.mode ≠ .dormant → f.crcOk = true → f.type = 1 → (∀ x ∈ f.emerg, x.valid = false) →
        (holUp port s = true → role = 2 → h.numbered = true → s.field 0x2400 8 4 ≠ 0 → f.flags.getLsbD 1 = true → f.resetMask.getLsbD (s.field 0x2400 8 4) = true →
          exec (.holCascadeResetRx ⟨port, f⟩) s = .next (holdDevice 2 s)) ∧
        ((holUp port s = false ∨ role ≠ 2 ∨ f.flags.getLsbD 1 = false ∨ f.resetMask.getLsbD (s.field 0x2400 8 4) = false) →
          exec (.holCascadeResetRx ⟨port, f⟩) s = .next s)) ∧
      (s.modes.mode = .boot → holUp port s = true → s.modes.held = false → s.field 0x0014 0 2 = 3 → p.crcOk = true → p.type = 2 → p.dest = 0xFF →
        5 ≤ p.payload.length →
        let chunks := (beNat (p.payload.take 4), (p.payload.drop 4).take (2097280 - beNat (p.payload.take 4))) :: s.sec.push
        let got : State := s.updSec fun x => { x with push := chunks, pushed := 0 }
        (covered chunks 64 = false → exec (.holBootPacket ⟨port, p⟩) s = .next got) ∧
        (covered chunks 64 = true → imageNeeds chunks ≤ 2097280 → covered chunks (imageNeeds chunks) = true →
          exec (.holBootPacket ⟨port, p⟩) s = .next (endPush got)) ∧
        (covered chunks 64 = true → imageNeeds chunks ≤ 2097280 → covered chunks (imageNeeds chunks) = false →
          exec (.holBootPacket ⟨port, p⟩) s = .next got))) ∧
    (Writes c 0x240C s →
      (role = 1 → exec (.holResetCmd c mask) s = .next (s.updHol fun h => { h with resetMask := mask, resetLeft := 3 })) ∧
      (role ≠ 1 → exec (.holResetCmd c mask) s = .next (s.refused c 0x240C)))

/-- R26, R35, R36, R222, R225, R226, R233, R242: a core's oldest far access, an engine's request through its port and the oldest piece behind a port
join their channel's queue while a transaction and an entry are free, and wait otherwise; they are answered POISON above the map top and RESET_ABORT
by a closed sluice; a late request is counted once. -/
def Obligations.DramRequests : Prop :=
  ∀ (c : CoreId) (ch : Fin 2) (q : FarReq) (rest : List FarReq) (idx a : Nat) (port : Fin 12) (A : DWord) (len : Nat) (data : Bytes)
    (w : PortReq) (more : List PortReq) (r : DramReq) (s : State),
    let n := if q.wide then 8 else 4
    let wait (t : State) : State := t.updCore c fun k => { k with farWait := rest }
    let join (r : DramReq) (t : State) : State := notePeak (t.updChan ch fun x => { x with
      queue := x.queue ++ [r], sr := if x.sr = .entering then .none else x.sr })
    let behind (l : List PortReq) : State := { s with dram := { s.dram with ports := modAt s.dram.ports port fun _ => l } }
    let room (write : Bool) : Prop := inflight s < 1472 ∧ chanRoom ch write s = true
    ((s.core c).farWait = [] → exec (.dramRequest (.farOf c)) s = .next s) ∧
    ((s.core c).farWait = q :: rest →
      (s.dram.ports[(6 : Fin 12)] ≠ [] → exec (.dramRequest (.farOf c)) s = .next s) ∧
      (s.dram.ports[(6 : Fin 12)] = [] → routeDram q.addr.toNat s = none → inflight s < 1472 → exec (.dramRequest (.farOf c)) s = .next
        ((record 0x200A 6 0 (wait s)).updCore c fun k => { k with farReplies := k.farReplies ++ [⟨q, .poison, []⟩] })) ∧
      (s.dram.ports[(6 : Fin 12)] = [] → routeDram q.addr.toNat s = some (ch, a) →
        (room q.store → s.blockOut (chanBlock ch) = false → exec (.dramRequest (.farOf c)) s = .next
          (join ⟨.core c q, 6, q.store, a, n, q.data, s.clock, false, 0⟩ (wait s))) ∧
        (room q.store → s.blockOut (chanBlock ch) = true → ∃ t, exec (.dramRequest (.farOf c)) s = .next t ∧
          (t.core c).farWait = rest ∧ (t.core c).farReplies = (s.core c).farReplies ++ [⟨q, .resetAbort, []⟩] ∧
          (t.chan ch).queue = (s.chan ch).queue ∧ t.cells = s.cells ∧ (q.store = false → (t.chan ch).cells = (s.chan ch).cells) ∧
          t.faults.ring.head? = some ⟨0x1001, BitVec.ofNat 16 c.val, BitVec.ofNat 32 (chanBlock ch).val, s.deviceTime⟩) ∧
        (¬room q.store → exec (.dramRequest (.farOf c)) s = .next s))) ∧
    (0 < len → A.toNat % 64 + len ≤ 64 →
      (s.dram.ports[port] = [] → routeDram A.toNat s = none → inflight s < 1472 →
        exec (.dramRequest (.engineRead port A len)) s = .next (poisonReply (record 0x200A port.val 0 s))) ∧
      (s.dram.ports[port] = [] → routeDram A.toNat s = some (ch, a) → s.blockOut (chanBlock ch) = false →
        (room false → exec (.dramRequest (.engineRead port A len)) s = .next
          (join ⟨.engine, port.val, false, a, len, [], s.clock, false, 0⟩ s)) ∧
        (data.length = len → room true → exec (.dramRequest (.engineWrite port A data)) s = .next
          (join ⟨.engine, port.val, true, a, len, data, s.clock, false, 0⟩ s))) ∧
      ((s.dram.ports[port] ≠ [] ∨ (routeDram A.toNat s = some (ch, a) ∧ ¬room false)) →
        exec (.dramRequest (.engineRead port A len)) s = .next (behind (s.dram.ports[port] ++ [⟨.engine, false, A.toNat, len, []⟩]))) ∧
      (data.length = len → (s.dram.ports[port] ≠ [] ∨ (routeDram A.toNat s = some (ch, a) ∧ ¬room true)) →
        exec (.dramRequest (.engineWrite port A data)) s = .next
          (behind (s.dram.ports[port] ++ [⟨.engine, true, A.toNat, len, data⟩])))) ∧
    ((s.blockOut 13 = true ∨ nextRows s = []) →
      (s.dram.ports[port] = [] → exec (.dramRequest (.waiting port)) s = .next s) ∧
      (s.dram.ports[port] = w :: more → routeDram w.addr s = some (ch, a) → s.blockOut (chanBlock ch) = false →
        (room w.write → exec (.dramRequest (.waiting port)) s = .next
          (join ⟨w.from_, port.val, w.write, a, w.len, w.data, s.clock, false, 0⟩ (behind more))) ∧
        (¬room w.write → exec (.dramRequest (.waiting port)) s = .next s))) ∧
    ((s.chan ch).queue[idx]? = some r →
      (r.overdue = true → exec (.dramOverdue ch idx) s = .next s) ∧
      (s.clock - r.at_ < portTarget ch r.port s → exec (.dramOverdue ch idx) s = .next s) ∧
      (r.overdue = false → portTarget ch r.port s ≤ s.clock - r.at_ →
        ∃ t, exec (.dramOverdue ch idx) s = .next t ∧ (t.chan ch).queue[idx]? = some { r with overdue := true } ∧
          (∀ j, j ≠ idx → (t.chan ch).queue[j]? = (s.chan ch).queue[j]?) ∧ t.cells = s.cells ∧ (t.chan ch).cells = (s.chan ch).cells ∧
          (Memory.wf s = true → t.word (chanAddr ch (0x30 + r.port % 12)) =
            BitVec.ofNat 32 (satInc 32 (s.word (chanAddr ch (0x30 + r.port % 12))).toNat)) ∧
          (Memory.wf s = true → chanState ch s = 2 → t.faults.ring.head? =
            some ⟨0x2008, BitVec.ofNat 16 ch.val, BitVec.ofNat 32 (r.port % 12), s.deviceTime⟩))) ∧
    ((s.chan ch).queue[idx]? = none → exec (.dramOverdue ch idx) s = .next s)

/-- R228 to R231, R233, R240, R241, R270: what the channel's pick gives: the line's bytes, also after a corrected error, which is written back where
WRITEBACK says so; zeros above the initialisation front; POISON for a poisoned line and for an uncorrectable one, whose rank fails; stored bytes for a
write. A whole line written is good again, a partial write on an uncorrectable word poisons it. -/
def Obligations.DramService : Prop :=
  ∀ (ch : Fin 2) (idx : Nat) (ecc : Ecc) (r : DramReq) (cs key : Nat) (syn : Byte) (s : State),
    let x := s.chan ch
    let run : Instr := .dramServe ch idx ecc
    ((chanServes ch s = false ∨ pickDram ch s ≠ some idx) → exec (.dramServe ch idx ecc) s = .next s) ∧
    (chanServes ch s = true → pickDram ch s = some idx → x.queue[idx]? = some r → physical ch r.addr s = some (cs, key) →
        Memory.wf s = true →
      let rank := r.addr / rankSize ch s
      let found := if ecc = .clean then lineError ch key s else ecc
      let migrates := x.mig.any (·.1 == rank)
      let framed : Prop := ∀ k b n, r.from_ ≠ .buffer k b n
      let served (t : State) : Prop := exec run s = .next t ∧ (t.chan ch).queue.length + 1 = x.queue.length ∧ t.cells = s.cells ∧
        t.fuses = s.fuses ∧ t.chan (otherPort ch) = s.chan (otherPort ch)
      let errors (a : Nat) (t : State) : Prop := t.word a = BitVec.ofNat 32 (satInc 32 (s.word a).toNat)
      let answered (st : Status) (data : Bytes) (t : State) : Prop :=
        (∀ (c : CoreId) (q : FarReq), r.from_ = .core c q → (t.core c).farReplies = (s.core c).farReplies ++ [⟨q, st, data⟩]) ∧
        (∀ A n, r.from_ = .fetch A n → ∀ e ∈ t.panel.fetched, e.addr = A → e.len = n → e.answer = some (st, data)) ∧
        (∀ k b n, r.from_ = .buffer k b n → ((s.panel.slots[k]).bufs[b]).frame = n → ((s.panel.slots[k]).bufs[b]).state = .written →
          (st = .ok → ((t.panel.slots[k]).bufs[b]).state = .written ∧
            ((t.panel.slots[k]).bufs[b]).asked = ((s.panel.slots[k]).bufs[b]).asked - 1) ∧
          (st = .poison → ((t.panel.slots[k]).bufs[b]).state = .free ∧
            ⟨0x5001, BitVec.ofNat 16 k.val, 0, s.deviceTime⟩ ∈ t.faults.ring)) ∧
        (st = .poison → (∀ c q, r.from_ ≠ .core c q) → errors 0x0408 t)
      let fails (t : State) : Prop := errors (chanAddr ch 0x19) t ∧ lineError ch key t = .double syn ∧
        ⟨0x2002, BitVec.ofNat 16 ch.val, BitVec.ofNat 32 cs, s.deviceTime⟩ ∈ t.faults.ring ∧
        (migrates = true → t.modes = s.modes ∧ (t.chan ch).mig = x.mig) ∧
        (migrates = false → spareFree ch s = true → x.mig = none → (t.chan ch).mig = some (rank, 0) ∧ t.modes = s.modes ∧
          t.field (chanAddr ch 0x11) 3 3 = 3) ∧
        (migrates = false → (spareFree ch s = false ∨ x.mig ≠ none) → t.modes.degraded = true ∧
          ⟨0x2006, BitVec.ofNat 16 ch.val, BitVec.ofNat 32 (csOf ch rank s), s.deviceTime⟩ ∈ t.faults.ring)
      (r.write = false →
        (lineReady ch key s = false → ∃ t, served t ∧ answered .ok (List.replicate r.len 0) t ∧ (t.chan ch).cells = x.cells ∧
          t.faults = s.faults ∧ t.modes = s.modes) ∧
        (lineReady ch key s = true → linePoisoned ch key s = true → ∃ t, served t ∧ answered .poison [] t ∧
          (t.chan ch).cells = x.cells ∧ t.modes = s.modes ∧ (framed → t.faults = s.faults)) ∧
        (lineReady ch key s = true → linePoisoned ch key s = false →
          (found = .clean → ∃ t, served t ∧ answered .ok (readCells ch key r.len s) t ∧ (t.chan ch).cells = x.cells ∧
            t.faults = s.faults ∧ t.modes = s.modes) ∧
          (found = .single syn → ∃ t, served t ∧ answered .ok (readCells ch key r.len s) t ∧ (t.chan ch).cells = x.cells ∧
            errors (chanAddr ch 0x18) t ∧ t.modes = s.modes ∧
            lineError ch key t = (if s.flag (chanAddr ch 0x17) 0 then .clean else .single syn)) ∧
          (found = .double syn → ∃ t, served t ∧ answered .poison [] t ∧ (t.chan ch).cells = x.cells ∧ fails t))) ∧
      (r.write = true →
        (r.addr % 64 = 0 → r.data.length = 64 →
          ∃ t, served t ∧ answered .ok [] t ∧ readCells ch key 64 t = r.data ∧ linePoisoned ch key t = false ∧
            lineError ch key t = .clean ∧ t.faults = s.faults ∧ t.modes = s.modes ∧
            ∀ b, (b < key ∨ key + 64 ≤ b) → readCells ch b 1 t = readCells ch b 1 s) ∧
        (r.addr % 8 = 0 → r.data.length % 8 = 0 → r.data.length < 64 →
          ∃ t, served t ∧ answered .ok [] t ∧ readCells ch key r.data.length t = r.data ∧ t.faults = s.faults ∧ t.modes = s.modes ∧
            (lineReady ch key s = true → ∀ b, (b < key ∨ key + r.data.length ≤ b) → readCells ch b 1 t = readCells ch b 1 s)) ∧
        (lineReady ch key s = false →
          ∃ t, served t ∧ answered .ok [] t ∧ readCells ch key r.data.length t = r.data ∧ lineReady ch key t = true ∧ t.faults = s.faults ∧
            ∀ b, (b < key ∨ key + r.data.length ≤ b) → readCells ch b 1 t = if b / 64 = key / 64 then [0] else readCells ch b 1 s) ∧
        ((r.addr % 8 ≠ 0 ∨ r.data.length % 8 ≠ 0) → lineReady ch key s = true →
          (linePoisoned ch key s = true → ∃ t, served t ∧ answered .poison [] t ∧ (t.chan ch).cells = x.cells ∧
            linePoisoned ch key t = true ∧ t.modes = s.modes) ∧
          (linePoisoned ch key s = false →
            (found = .clean → ∃ t, served t ∧ answered .ok [] t ∧ readCells ch key r.data.length t = r.data ∧ t.faults = s.faults) ∧
            (found = .single syn → ∃ t, served t ∧ answered .ok [] t ∧ readCells ch key r.data.length t = r.data ∧
              errors (chanAddr ch 0x18) t) ∧
            (found = .double syn → ∃ t, served t ∧ answered .poison [] t ∧ (t.chan ch).cells = x.cells ∧ fails t ∧
              linePoisoned ch key t = true)))))

/-- R234 to R236: a due refresh of a rank is issued, or postponed while an urgent request waits; temperature readings set the interval and retrain,
and their absence is told; an idle channel enters self-refresh, commits, and exits for a request. -/
def Obligations.DramUpkeep : Prop :=
  ∀ (c : CoreId) (ch : Fin 2) (rank : Fin 4) (range : Fin 3) (val : Word) (s : State),
    let x := s.chan ch
    let w (off : Nat) := chanAddr ch off
    let kept (t : State) : Prop := t.cells = s.cells ∧ (t.chan ch).cells = x.cells ∧ t.modes = s.modes ∧ t.sec = s.sec
    let urgent := x.queue.any fun q => decide (s.field (w 0x13) 1 3 ≤ urgency ch q s)
    let ranks := x.ranks + if x.spare && x.spareOk && !x.spareUsed then 1 else 0
    let retrains (t : State) : Prop := (t.chan ch).retrain = List.range ranks
    let idles : Prop := s.flag (w 0x15) 0 = true ∧ x.idleAt + s.field (w 0x15) 4 16 * 1000 ≤ s.clock ∧ x.mig = none ∧
      (x.zeroed = true ∨ x.fitted * rankSize ch s / 64 ≤ x.front)
    (chanServes ch s = true →
      (rank.val < ranks →
        let issued : State := s.updChan ch fun x => { x with rows := x.rows.filter fun e => decide (e.1 / 16 ≠ rank.val) }
        let n := s.field (w 0x13) 4 4
        ((s.flag (w 0x13) 0 && s.feature 4 && urgent) = false → exec (.dramRefreshDue ch rank) s = .next (issued.setField (w 0x13) 4 4 0)) ∧
        ((s.flag (w 0x13) 0 && s.feature 4 && urgent) = true →
          (n < 8 → exec (.dramRefreshDue ch rank) s = .next (s.setField (w 0x13) 4 4 (n + 1))) ∧
          (8 ≤ n → exec (.dramRefreshDue ch rank) s = .next (issued.setField (w 0x13) 4 4 7)))) ∧
      (ranks ≤ rank.val → exec (.dramRefreshDue ch rank) s = .next s) ∧
      (s.flag (w 0x14) 0 = true → exec (.dramMprPoll ch range) s = .next s) ∧
      (s.flag (w 0x14) 0 = false → Memory.wf s = true →
        ∃ t, exec (.dramMprPoll ch range) s = .next t ∧ t.field (w 0x14) 16 2 = range.val ∧ kept t ∧ t.faults = s.faults ∧
          t.flag (w 0x13) 8 = (if range = 2 then true else if 1 ≤ x.cool then false else s.flag (w 0x13) 8) ∧
          (s.field (w 0x14) 16 2 = range.val → (t.chan ch).retrain = x.retrain) ∧ (s.field (w 0x14) 16 2 ≠ range.val → retrains t)) ∧
      (x.queue = [] → x.sr = .none → (idles ∨ s.modes.entering.isSome = true) →
        exec (.dramSrIdle ch) s = .next (s.updChan ch fun x => { x with sr := .entering })) ∧
      ((x.queue ≠ [] ∨ x.sr ≠ .none ∨ ¬idles ∧ s.modes.entering = none) → exec (.dramSrIdle ch) s = .next s) ∧
      (x.sr = .entering → Memory.wf s = true →
        ∃ t, exec (.dramSrCommit ch) s = .next t ∧ t.field (w 0x11) 3 3 = 2 ∧ t.flag (w 0x15) 20 = true ∧ (t.chan ch).sr = .committed ∧
          (t.chan ch).rows = [] ∧ kept t ∧ t.faults = s.faults) ∧
      (x.sr ≠ .entering → exec (.dramSrCommit ch) s = .next s)) ∧
    (chanServes ch s = false → exec (.dramRefreshDue ch rank) s = .next s ∧ exec (.dramMprPoll ch range) s = .next s ∧
      exec (.dramSrIdle ch) s = .next s ∧ exec (.dramSrCommit ch) s = .next s) ∧
    (s.field (w 0x11) 3 3 = 2 → s.blockOut (chanBlock ch) = false →
      (x.queue = [] → exec (.dramSrExit ch) s = .next s) ∧
      (x.queue ≠ [] → Memory.wf s = true →
        ∃ t, exec (.dramSrExit ch) s = .next t ∧ t.field (w 0x11) 3 3 = (if x.mig.isSome then 3 else 1) ∧ t.flag (w 0x15) 20 = false ∧
          (t.chan ch).sr = .none ∧ (t.chan ch).queue = x.queue ∧ kept t ∧ t.faults = s.faults)) ∧
    ((s.field (w 0x11) 3 3 ≠ 2 ∨ s.blockOut (chanBlock ch) = true) → exec (.dramSrExit ch) s = .next s) ∧
    (s.blockOut (chanBlock ch) = false → s.flag (w 0x14) 0 = true → x.stale = false → x.tempAt + 100000000 ≤ s.clock → Memory.wf s = true →
      ∃ t, exec (.dramTempStale ch) s = .next t ∧ (t.chan ch).stale = true ∧ (t.chan ch).cool = 0 ∧ t.flag (w 0x13) 8 = true ∧ kept t ∧
        ∃ e, t.faults.ring.head? = some e ∧ e.code = 0x200C ∧ e.unit = BitVec.ofNat 16 ch.val) ∧
    ((s.flag (w 0x14) 0 = false ∨ x.stale = true ∨ s.clock < x.tempAt + 100000000 ∨ s.blockOut (chanBlock ch) = true) →
      exec (.dramTempStale ch) s = .next s) ∧
    (Writes c (w 0x14) s →
      let en : Bool := if sealedNow s then s.flag (w 0x14) 0 else bit val 0
      let T := sbits val 8 8
      let told (t : State) : Prop := sbits (t.word (w 0x14)) 8 8 = T ∧ (t.chan ch).tempAt = s.clock ∧ (t.chan ch).stale = false ∧ kept t
      (en = true →
        ∃ t, exec (.dramTempWrite c ch val) s = .next t ∧ told t ∧
          t.flag (w 0x13) 8 = (if 85 < T then true else if 1 ≤ x.cool then false else s.flag (w 0x13) 8) ∧
          (T ≤ 95 → t.faults = s.faults) ∧
          (95 < T → t.faults.ring.head? = some ⟨0x200B, BitVec.ofNat 16 ch.val, BitVec.ofInt 32 T, s.deviceTime⟩) ∧
          ((T - x.trainC).natAbs < 20 → (t.chan ch).retrain = x.retrain) ∧
          (20 ≤ (T - x.trainC).natAbs → (chanState ch s = 1 ∨ chanState ch s = 3) → retrains t)) ∧
      (en = false →
        ∃ t, exec (.dramTempWrite c ch val) s = .next t ∧ told t ∧ t.faults = s.faults ∧ (t.chan ch).retrain = x.retrain ∧
          t.flag (w 0x13) 8 = s.flag (w 0x13) 8))

/-- R222, R223, R230 to R232, R237 to R241, R244, R250: training and retraining of the ranks and the held spare, a step down in speed, the loss of a
channel; initialisation, the patrol scrub and the migration of a failing rank ask through port P8 for one line each, which is served, or waits for a
channel in self-refresh; command parity reports and the failing of a rank. -/
def Obligations.DramRepair : Prop :=
  ∀ (c : CoreId) (ch : Fin 2) (rank cs : Fin 4) (val : Word) (dev : Fin 2) (dens : Fin 3) (ok : Bool) (ecc : Ecc) (syn : Byte)
    (r line t0 : Nat) (s : State),
    let x := s.chan ch
    let w (off : Nat) := chanAddr ch off
    let kept (t : State) : Prop := t.cells = s.cells ∧ (t.chan ch).cells = x.cells ∧ t.modes = s.modes ∧ t.sec = s.sec
    let told (code data : Nat) (t : State) : Prop := ⟨BitVec.ofNat 16 code, BitVec.ofNat 16 ch.val, BitVec.ofNat 32 data, s.deviceTime⟩ ∈ t.faults.ring
    let errors (off : Nat) (t : State) : Prop := t.word (w off) = BitVec.ofNat 32 (satInc 32 (s.word (w off)).toNat)
    let lost (t : State) : Prop := t.field (w 0x11) 3 3 = 4 ∧ t.field (w 0x11) 16 4 = 0 ∧ (t.chan ch).ranks = 0 ∧ (t.chan ch).queue = [] ∧
      (t.chan ch).mig = none ∧ t.modes.degraded = true ∧ t.flag 0x1400 8 = true ∧ (x.queue = [] → told 0x2005 0 t)
    let alone : Prop := x.queue = [] ∧ s.modes.entering = none ∧ inflight s < 1472
    let refreshing : Prop := chanState ch s = 2 ∧ s.blockOut (chanBlock ch) = false
    let asks (u : Upkeep) (write : Bool) (a : Nat) : State := notePeak (s.updChan ch fun x => { x with
      queue := [⟨.upkeep u, 8, write, a, 64, if write then List.replicate 64 0 else [], s.clock, false, 0⟩]
      sr := if x.sr = .entering then .none else x.sr })
    let only (t : State) : Prop := (t.chan ch).queue = [] ∧ (t.chan ch).idleAt = s.clock ∧ t.cells = s.cells ∧
      ∀ a, a < 0x0400 → t.word a = s.word a
    let running : Prop := s.modes.mode ≠ .dormant ∧ s.modes.mode ≠ .standby ∧ s.modes.mode ≠ .boot ∧ s.modes.mode ≠ .admission
    (chanServes ch s = true →
      (rank.val ∈ x.retrain →
        exec (.dramRetrainSlice ch rank true) s = .next (s.updChan ch fun x => { x with
          retrain := x.retrain.filter (· ≠ rank.val), trainC := sbits (s.word (w 0x14)) 8 8 }) ∧
        (rank.val < x.ranks → s.field (w 0x11) 0 3 < 4 → Memory.wf s = true →
          ∃ t, exec (.dramRetrainSlice ch rank false) s = .next t ∧ t.field (w 0x11) 0 3 = s.field (w 0x11) 0 3 + 1 ∧
            t.field (w 0x11) 3 3 = 0 ∧ (t.chan ch).retrain = [] ∧ (t.chan ch).queue = x.queue ∧ kept t ∧ t.faults.ring.head? =
              some ⟨0x2004, BitVec.ofNat 16 ch.val, BitVec.ofNat 32 (s.field (w 0x11) 0 3 + 1), s.deviceTime⟩) ∧
        (rank.val < x.ranks → 4 ≤ s.field (w 0x11) 0 3 → running → Memory.wf s = true →
          ∃ t, exec (.dramRetrainSlice ch rank false) s = .next t ∧ lost t) ∧
        (x.ranks ≤ rank.val → Memory.wf s = true →
          ∃ t, exec (.dramRetrainSlice ch rank false) s = .next t ∧ (t.chan ch).spareOk = false ∧ (t.chan ch).mig = none ∧
            (t.chan ch).retrain = x.retrain.filter (· ≠ rank.val) ∧ told 0x200D (spareCs ch s) t ∧ t.cells = s.cells ∧
            (x.mig = none → kept t) ∧
            (x.mig = some (r, line) → t.modes.degraded = true ∧ t.field (w 0x11) 3 3 = 1 ∧ told 0x2006 (csOf ch r s) t))) ∧
      (rank.val ∉ x.retrain → exec (.dramRetrainSlice ch rank ok) s = .next s) ∧
      (((x.alerts.lookup cs.val).all fun t1 => decide (1000000 ≤ s.clock - t1)) = true →
        exec (.dramAlert ch cs) s = .next (s.updChan ch fun x => { x with
          alerts := (cs.val, s.clock) :: x.alerts.filter fun e => decide (e.1 ≠ cs.val) })) ∧
      (x.alerts.lookup cs.val = some t0 → s.clock - t0 < 1000000 → Memory.wf s = true →
        ∃ t, exec (.dramAlert ch cs) s = .next t ∧ told 0x2003 cs.val t ∧ t.word (w 0x1C) = BitVec.ofNat 32 (12 + cs.val) ∧
          t.cells = s.cells ∧ (t.chan ch).cells = x.cells ∧ (t.chan ch).alerts.lookup cs.val = some s.clock ∧
          (rankOn ch cs.val s = none → kept t ∧ (t.chan ch).mig = x.mig) ∧
          (rankOn ch cs.val s = some r → x.mig = none →
            (spareFree ch s = true → (t.chan ch).mig = some (r, 0) ∧ t.field (w 0x11) 3 3 = 3) ∧
            (spareFree ch s = false → t.modes.degraded = true ∧ told 0x2006 (csOf ch r s) t))) ∧
      (let i := x.front
       let key := lineKey ch i s
       (x.zeroed = false → i < x.fitted * rankSize ch s / 64 → alone → Memory.wf s = true →
        ∃ t, exec (.dramZeroInit ch) s = .next t ∧ (t.chan ch).front = i + 1 ∧ (t.chan ch).ahead = x.ahead.filter (· ≠ i) ∧
          (x.ahead.contains i = true → (t.chan ch).cells = x.cells) ∧
          (x.ahead.contains i = false → readCells ch key 64 t = List.replicate 64 0 ∧
            ∀ b, (b < key ∨ key + 64 ≤ b) → readCells ch b 1 t = readCells ch b 1 s) ∧
          only t ∧ t.modes = s.modes ∧ t.faults = s.faults) ∧
       (x.queue = [] → (x.zeroed = true ∨ x.fitted * rankSize ch s / 64 ≤ i) → exec (.dramZeroInit ch) s = .next s)) ∧
      (let a := x.scrub * 64 % capacity ch s
       let lines := capacity ch s / 64
       let gap := max 1 (s.field (w 0x16) 0 16) * 3600000000000 / lines
       let moved (t : State) : Prop := exec (.dramScrubLine ch ecc) s = .next t ∧ (t.chan ch).scrub = (a / 64 + 1) % lines ∧
         (t.chan ch).scrubAt = s.clock + gap ∧ only t ∧ (t.chan ch).cells = x.cells
       (x.queue = [] → (s.flag (w 0x16) 16 = false ∨ capacity ch s = 0 ∨ s.clock < x.scrubAt) → exec (.dramScrubLine ch ecc) s = .next s) ∧
       (s.flag (w 0x16) 16 = true → capacity ch s ≠ 0 → x.scrubAt ≤ s.clock → alone →
        ∀ chip key, physical ch a s = some (chip, key) →
          let found := if ecc = .clean then lineError ch key s else ecc
          ((lineReady ch key s = false ∨ linePoisoned ch key s = true ∨ found = .clean) →
            ∃ t, moved t ∧ t.modes = s.modes ∧ t.faults = s.faults ∧ (t.chan ch).errs = x.errs ∧ (t.chan ch).mig = x.mig) ∧
          (lineReady ch key s = true → linePoisoned ch key s = false → Memory.wf s = true →
            (found = .single syn → ∃ t, moved t ∧ lineError ch key t = .clean ∧ errors 0x18 t ∧ t.modes = s.modes) ∧
            (found = .double syn → ∃ t, moved t ∧ lineError ch key t = .double syn ∧ errors 0x19 t ∧ told 0x2002 chip t ∧
              (x.mig = none → spareFree ch s = true → (t.chan ch).mig = some (a / rankSize ch s, 0)) ∧
              (x.mig = none → spareFree ch s = false → t.modes.degraded = true))))) ∧
      (x.mig = some (r, line) → x.migAt ≤ s.clock → alone → Memory.wf s = true → r < 4 →
        let source := csOf ch r s * 2 ^ 34 + line * 64
        let dest := spareCs ch s * 2 ^ 34 + line * 64
        let found := if ecc = .clean then lineError ch source s else ecc
        let on (t : State) : Prop := exec (.dramMigrateLine ch ecc) s = .next t ∧ only t ∧ t.modes = s.modes ∧
          (line + 1 < rankSize ch s / 64 → (t.chan ch).mig = some (r, line + 1) ∧ (t.chan ch).migAt = s.clock + copyGap ch s) ∧
          (rankSize ch s / 64 ≤ line + 1 → (t.chan ch).mig = none ∧ (t.chan ch).spareUsed = true ∧ csOf ch r t = spareCs ch s ∧
            t.field (w 0x11) 3 3 = 1 ∧ t.flag (w 0x11) (16 + spareCs ch s) = true ∧
            t.faults.ring.head? = some ⟨0x2007, BitVec.ofNat 16 ch.val, BitVec.ofNat 32 (spareCs ch s), s.deviceTime⟩)
        (lineReady ch source s = false → ∃ t, on t ∧ (t.chan ch).cells = x.cells) ∧
        (lineReady ch source s = true → linePoisoned ch source s = false → (found = .clean ∨ found = .single syn) →
          ∃ t, on t ∧ readCells ch dest 64 t = readCells ch source 64 s ∧ linePoisoned ch dest t = false ∧ lineError ch dest t = .clean ∧
            (found = .clean → line + 1 < rankSize ch s / 64 → t.faults = s.faults)) ∧
        (lineReady ch source s = true → (linePoisoned ch source s = true ∨ found = .double syn) →
          ∃ t, on t ∧ linePoisoned ch dest t = true))) ∧
    (x.queue = [] → (x.mig = none ∨ s.clock < x.migAt) → exec (.dramMigrateLine ch ecc) s = .next s) ∧
    (refreshing → alone →
      (x.zeroed = false → x.front < x.fitted * rankSize ch s / 64 →
        exec (.dramZeroInit ch) s = .next (asks .init true (x.front * 64))) ∧
      (s.flag (w 0x16) 16 = true → capacity ch s ≠ 0 → x.scrubAt ≤ s.clock →
        exec (.dramScrubLine ch ecc) s = .next (asks .scrub false (x.scrub * 64 % capacity ch s))) ∧
      (x.mig = some (r, line) → x.migAt ≤ s.clock →
        exec (.dramMigrateLine ch ecc) s = .next (asks .copy false (r * rankSize ch s + line * 64)))) ∧
    (chanServes ch s = false → exec (.dramRetrainSlice ch rank ok) s = .next s ∧ exec (.dramAlert ch cs) s = .next s) ∧
    ((s.blockOut (chanBlock ch) = true ∨ chanState ch s = 0 ∨ chanState ch s = 4) → exec (.dramZeroInit ch) s = .next s ∧
      exec (.dramScrubLine ch ecc) s = .next s ∧ exec (.dramMigrateLine ch ecc) s = .next s) ∧
    (Writes c (w 0x1F) s →
      exec (.dramRetrain c ch) s = .next (if chanState ch s = 1 ∨ chanState ch s = 3 then
        s.updChan ch fun x => { x with retrain := List.range (x.ranks + if x.spare && x.spareOk && !x.spareUsed then 1 else 0) } else s)) ∧
    (Writes c (w 0x1D) s →
      let k := bits val 0 2
      ((bit val 2 = false ∨ x.ranks ≤ k) → exec (.dramSpareCmd c ch val) s = .next s) ∧
      (bit val 2 = true → k < x.ranks →
        (x.mig = some (k, line) → exec (.dramSpareCmd c ch val) s = .next s) ∧
        (x.mig = none → spareFree ch s = true → ∃ t, exec (.dramSpareCmd c ch val) s = .next t ∧ (t.chan ch).mig = some (k, 0) ∧
          (t.chan ch).migAt = s.clock ∧ t.field (w 0x1E) 8 24 = 0 ∧ kept t ∧ t.faults = s.faults ∧
          (chanServes ch s = true → t.field (w 0x11) 3 3 = 3) ∧
          (chanState ch s = 2 → (t.chan ch).sr = .none ∧ t.field (w 0x11) 3 3 = 3 ∧ t.flag (w 0x15) 20 = false) ∧
          (chanState ch s = 0 → t.field (w 0x11) 3 3 = 0)) ∧
        ((spareFree ch s = false ∧ x.mig = none ∨ x.mig = some (r, line) ∧ r ≠ k) → exec (.dramSpareCmd c ch val) s = .next
          (degrade (record 0x2006 ch (csOf ch k s) s))))) ∧
    (running → chanState ch s = 0 → s.blockOut (chanBlock ch) = false → Memory.wf s = true →
      (∃ t, exec (.dramTraining ch [] []) s = .next t ∧ lost t ∧ (t.chan ch).fitted = 0 ∧ t.field (w 0x10) 0 2 = 3) ∧
      (s.flag (w 0x10) 10 = false → x.spare = false → csOf ch 0 s = 0 → x.mig = none →
        (∃ t, exec (.dramTraining ch [(dev, dens)] [true]) s = .next t ∧ t.field (w 0x11) 3 3 = 1 ∧ t.field (w 0x11) 16 4 = 1 ∧
          (t.chan ch).ranks = 1 ∧ (t.chan ch).fitted = 1 ∧ rankSize ch t = 2 ^ (15 + (if dev = 1 then 1 else 2) + 15 + dens.val) ∧
          t.field (w 0x10) 0 2 = dev.val ∧ kept t ∧ t.faults = s.faults) ∧
        (x.started = true → s.field (w 0x11) 0 3 < 4 →
          ∃ t, exec (.dramTraining ch [(dev, dens)] [false]) s = .next t ∧ t.field (w 0x11) 3 3 = 0 ∧
            t.field (w 0x11) 0 3 = s.field (w 0x11) 0 3 + 1 ∧ kept t))) ∧
    (s.modes.mode = .admission → chanState ch s = 0 → s.blockOut (chanBlock ch) = false → Memory.wf s = true →
      ∃ t, exec (.dramTraining ch [] []) s = .next t ∧ t.field (w 0x11) 3 3 = 4 ∧ (t.chan ch).ranks = 0 ∧ t.field (w 0x10) 0 2 = 3)

/-- R324, R326 to R330, R332 to R337: at its window a channel takes its level through the curve, the derating factor and the depth; a stretched window
measures its sink, and the second failing measurement latches OPEN. The level, fade, swap, pixel, derating and group-dark commands; an NTC measurement
sets its group's factor; the diagnostic interval and its stretch. -/
def Obligations.LedDrive : Prop :=
  ∀ (c : CoreId) (ch : Fin 64) (die : Die) (val : Word) (mask : BitVec 16) (ix : Fin 256) (pt : Fin 4) (input : Fin 8) (mv ohms k i : Nat) (T : Int)
    (s : State),
    let x := s.ledCh ch
    let a := ledChAddr ch 0
    let d := dieIx die
    (ledDriven (ledDie ch) s = true → ledRuns s = true → ledWindow ch s = some k → x.window ≠ some k → x.window ≠ some (k + 1) → matrixAsked (ledDie ch) s = false →
        unitFailed .ledString ch s = false → x.wrote = false → x.go = false → x.fade = none →
        bit (s.word (ledChAddr ch 1)) 16 = false → bits (s.word (ledChAddr ch 1)) 0 2 = 0 → Memory.wf s = true →
      let l := s.field a 0 16
      let f := s.led.dies[ledDie ch].factor[(Fin.ofNat 4 (bits (s.word (ledChAddr ch 1)) 20 2) : Fin 4)]
      ∃ t, exec (.ledReload ch mv) s = .next t ∧ (t.ledCh ch).window = some k ∧ t.cells = s.cells ∧ t.modes = s.modes ∧ t.field a 0 16 = l ∧
        (t.ledCh ch).g = (((l * 256 + l / 256) * f + 2 ^ 14) / 2 ^ 15 * 2 ^ ledDepth (ledDie ch) s + 2 ^ 23) / 2 ^ 24 ∧
        (∀ e, e ≠ ch → (t.ledCh e).g = (s.ledCh e).g) ∧
        (ledSum (ledDie ch) t ≤ 4096 → (t.ledCh ch).g ≠ 0 → (t.ledCh ch).eff = some (s.field a 24 8)) ∧
        (x.stretch = true → ledDiag ch s ≠ 0 → s.feature 10 = false → ledLatched ch s = false → x.openRun = 1 → mv < 400 →
          t.flag (ledChAddr ch 3) 16 = true ∧ ∃ e ∈ t.faults.ring, e.code = 0x6001 ∧ e.unit = BitVec.ofNat 16 ch.val)) ∧
    ((ledDriven (ledDie ch) s = false ∨ ledRuns s = false ∨ ledWindow ch s = x.window ∨ ledWindow ch s = some k ∧ x.window = some (k + 1)) → exec (.ledReload ch mv) s = .next s) ∧
    (Writes c a s → ∃ w : Word, bits w 0 16 = bits val 0 16 ∧ bits w 24 8 = bits val 24 8 ∧
      exec (.ledLevelWrite c ch val) s = .next ((s.setWord a w).updLed ch fun x => { x with wrote := true, go := false })) ∧
    (Writes c (ledAddr d 7) s → ∃ t, exec (.ledFadeGo c die val) s = .next t ∧ t.words = s.words ∧ t.cells = s.cells ∧ t.faults = s.faults ∧
      ∀ e, t.ledCh e = if ledDie e = d ∧ bit val (e.val % 32) = true ∧ s.flag (ledChAddr e 1) 16 = false
        then { s.ledCh e with go := true } else s.ledCh e) ∧
    (Writes c (ledAddr d 0x15) s →
      (s.field (ledAddr d 0x14) 8 2 ≠ 1 → exec (.ledMatrixSwap c die) s = .next (s.updLedDie d fun x => { x with swap := true })) ∧
      (s.field (ledAddr d 0x14) 8 2 = 1 → exec (.ledMatrixSwap c die) s = .next s)) ∧
    (Writes c (ledAddr d (0x100 + ix.val)) s →
      let base := (ledBank d s).val * 0x20000
      (matrixOwned d s = true → exec (.ledMatrixData c die ix val) s = .next
        (s.storeBytes (base + (if s.flag (ledAddr d 0x14) 31 then 0 else 0x400) + 4 * ix.val) (leBytes 4 val.toNat))) ∧
      (matrixOwned d s = false → exec (.ledMatrixData c die ix val) s = .next
        ((record 0x6009 (d.val + 1) (ledAddr d (0x100 + ix.val)) (bankRefused (9 + d.val) base s)).refused c (ledAddr d (0x100 + ix.val))))) ∧
    (Writes c (ledAddr d (0x10 + pt.val)) s →
      let at_ := ledAddr d (0x10 + pt.val)
      (derateFits d (s.setWord at_ val) = true → exec (.ledDerateWrite c die pt val) s = .next (s.setWord at_ val)) ∧
      (derateFits d (s.setWord at_ val) = false →
        exec (.ledDerateWrite c die pt val) s = .next ((record 0x600A (d.val + 1) at_ s).refused c at_))) ∧
    (let e : Fin 2 := if input.val < 4 then 0 else 1
     let g : Fin 4 := Fin.ofNat 4 input.val
     let r26 := s.field (ledAddr e (8 + g.val)) 0 16 * 10
     let at_ := ledAddr e (0xC + g.val)
     s.blockOut (ledBlock e) = false → unitFailed .sensor input s = false → ntcTenths ohms r26 (s.field (ledAddr e (8 + g.val)) 16 16) = some T →
        -32768 ≤ T → T < 32768 → s.led.dies[e].shut[g] = false → Memory.wf s = true →
      ∃ t, exec (.ledNtcMeasure input ohms) s = .next t ∧ t.cells = s.cells ∧ t.modes = s.modes ∧ sbits (t.word at_) 0 16 = T ∧
        (r26 * 50 < ohms → t.field at_ 16 2 = 1 ∧ t.led.dies[e].factor[g] = 0x2000 ∧
          (s.field at_ 16 2 ≠ 1 → ∃ q ∈ t.faults.ring, q.code = 0x6003 ∧ q.unit = BitVec.ofNat 16 input.val ∧ q.data = 1)) ∧
        (ohms * 50 < r26 → t.field at_ 16 2 = 2 ∧ t.led.dies[e].factor[g] = 0x2000) ∧
        (ohms ≤ r26 * 50 → r26 ≤ ohms * 50 → t.field at_ 16 2 = 0 ∧
          (T ≤ (deratePoint e 3 s).1 → t.led.dies[e].factor[g] = derateAt e T s ∧ t.led.dies[e].shut[g] = false) ∧
          ((deratePoint e 3 s).1 < T → t.led.dies[e].factor[g] = 0 ∧ t.led.dies[e].shut[g] = true ∧
            ∃ q ∈ t.faults.ring, q.code = 0x6005 ∧ q.unit = BitVec.ofNat 16 input.val ∧ q.data = BitVec.ofInt 32 T))) ∧
    (let n := s.deviceTime.toNat / 250000000
     s.blockOut (ledBlock d) = false →
      (s.led.dies[d].interval = some n → exec (.ledDiagInterval die) s = .next s) ∧
      (s.led.dies[d].interval ≠ some n → ∃ t, exec (.ledDiagInterval die) s = .next t ∧ t.led.dies[d].interval = some n ∧ t.words = s.words ∧
        t.cells = s.cells ∧ ∀ e, t.ledCh e = if ledDie e = d then { s.ledCh e with lit := false, measured := false, stretch := false }
          else s.ledCh e)) ∧
    (ledDriven (ledDie ch) s = true →
      (200000000 ≤ s.deviceTime.toNat % 250000000 → x.measured = false → (ledDiag ch s = 2 ∨ ledDiag ch s = 1 ∧ x.lit = true) →
        exec (.ledDiagStretch ch) s = .next (s.updLed ch fun x => { x with stretch := true })) ∧
      ((s.deviceTime.toNat % 250000000 < 200000000 ∨ x.measured = true ∨ ledDiag ch s = 0) → exec (.ledDiagStretch ch) s = .next s)) ∧
    (Writes c (ledAddr d 6) s → i < 16 → mask.toNat = 2 ^ i →
      let held := s.feature 10 && (ledChans d).any fun e => decide (s.field (ledChAddr e 3) 8 5 = i + 1) && ledLatched e s
      (held = false → exec (.ledGdarkClear c die mask) s = .next (s.setFlag (ledAddr d 5) i false)) ∧
      (held = true → exec (.ledGdarkClear c die mask) s = .next (record 0x6008 (d.val + 1) (i + 1) s)))

/-- R347 to R349, R352, R353, R357, R359 to R361, R371, R442: a ready general slot computes R348 with its gains and holds its accumulator while it
clamps; saturation beyond its limit trips; the grid readies the slots that are due, and an overrun hem stops the machinery; the copy of gains, the
enable of a slot, which acts at its next evaluation, the clearing of SAT_TRIPPED, which a set in the same update outlasts; arming, firing and sampling
of a trace channel. -/
def Obligations.LoopEngine : Prop :=
  ∀ (c : CoreId) (n : Fin 24) (a : AxisId) (ch : Fin 8) (val : Word) (mask : Byte) (k : Fin 24) (t0 period e0 : Nat) (s : State),
    let x := s.loop.slots[n]
    let w (off : Nat) := slotAddr n.val off
    let grid := s.deviceTime.toNat / 125000
    ((s.blockOut 17 = true ∨ x.ready = false) → exec (.loopEval n) s = .next s) ∧
    (16 ≤ n.val → s.blockOut 17 = false → x.ready = true →
      ((s.flag (w 0) 31 = false → x.spFixed = none →
        exec (.loopEval n) s = .next (s.updSlot n fun x => { x with ready := false })) ∧
      (s.flag (w 0) 31 = true → s.modes.mode ≠ .update → s.field (w 0) 20 3 = 2 → s.field (w 0) 24 3 = 0 → s.flag (w 0) 30 = false →
          x.fbStale < 4 → x.stopped = false → x.fresh = false → (x.apply ≠ none → limitsOrdered n s = true) → x.satSaid = false → x.evalAt = some e0 → s.flag (w 0xD) 1 = false → s.feature 20 = false →
          Memory.wf s = true →
        let g := if x.apply = none then x.gains else shadowGains n.val s
        let acc := if x.apply = some true then 0 else x.acc
        let e := saturated 32 ((s.word (w 7)).toInt - (s.word (w 0xB)).toInt)
        let value (A : Int) := saturated 32 (roundShift (saturated 64 (g.kp.toInt * e + A)) (bits g.cfg 16 5))
        let A := saturated 64 (acc + g.ki.toInt * e)
        let sat := x.satNs + (s.deviceTime.toNat - e0)
        ∃ t, exec (.loopEval n) s = .next t ∧ (t.loop.slots[n]).ready = false ∧ (t.loop.slots[n]).err = e ∧ t.cells = s.cells ∧ t.modes = s.modes ∧
          (g.omin.toInt ≤ value A → value A ≤ g.omax.toInt →
            (t.loop.slots[n]).acc = A ∧ (t.loop.slots[n]).out = value A ∧ t.word (w 0xC) = BitVec.ofInt 32 (value A) ∧
            (t.loop.slots[n]).satNs = 0 ∧ t.flag (w 0xD) 0 = false ∧ t.faults = s.faults) ∧
          (¬(g.omin.toInt ≤ value A ∧ value A ≤ g.omax.toInt) →
            (t.loop.slots[n]).acc = acc ∧ (t.loop.slots[n]).satNs = sat ∧ t.flag (w 0xD) 0 = true ∧
            (sat < satLimit n s → t.faults = s.faults ∧ t.flag (w 0xD) 1 = false ∧
              (t.loop.slots[n]).out = max g.omin.toInt (min g.omax.toInt (value acc))) ∧
            (satLimit n s ≤ sat → t.flag (w 0xD) 1 = true ∧
              t.faults.ring.head? = some ⟨0x8001, BitVec.ofNat 16 n.val, 0, s.deviceTime⟩))))) ∧
    (s.loop.grid = some grid → exec .loopGridTick s = .next s) ∧
    (s.loop.grid ≠ some grid → (∀ b : Fin 4, s.flag (machAddr b 7) 0 = false) → Memory.wf s = true → s.blockOut 17 = false → s.blockOut 20 = false →
      ∃ t, exec .loopGridTick s = .next t ∧ t.loop.grid = some grid ∧ t.cells = s.cells ∧
        ((∀ b : Fin 4, s.flag (machAddr b 0xD) 31 = false) → t.faults = s.faults ∧ t.modes = s.modes ∧ t.words = s.words ∧
          (16 ≤ n.val → (t.loop.slots[n]).ready =
            (x.ready || (s.flag (w 0) 31 && (!x.stopped || x.fresh) && decide (grid % 2 ^ s.field (w 0) 16 2 = 0))))) ∧
        (s.modes.mode = .run → s.flag (machAddr a 0xD) 31 = true → (s.mach.axes[a]).overrun = false →
          (s.word (machAddr a 0xC)).toInt + (s.field (machAddr a 0xD) 0 16 * 1000 : Nat) < posUm a s →
          t.modes.mode = .stop ∧ ∃ q ∈ t.faults.ring, q.code = 0xA00B ∧ q.unit = BitVec.ofNat 16 a.val)) ∧
    (Writes c 0x4190 s → bits val 0 24 = 2 ^ n.val →
      (limitsOrdered n s = true → exec (.loopApply c val) s = .next (s.updSlot n fun x => { x with apply := some (bit val 31 || decide (x.apply = some true)) })) ∧
      (limitsOrdered n s = false → exec (.loopApply c val) s = .next ((record 0x8005 n.val 0 s).refused c 0x4190))) ∧
    (Writes c (w 0) s → 16 ≤ n.val →
      (bit val 31 = true → s.flag (w 0) 31 = false → bits val 24 3 = 0 →
        (limitsOrdered n s = true → ∃ t, exec (.loopCtrlWrite c n val) s = .next t ∧ t.flag (w 0) 31 = true ∧ t.field (w 0) 20 3 = bits val 20 3 ∧
          t.loop.slots[n] = { x with apply := some true, fresh := true } ∧ (∀ b, b ≠ w 0 → t.word b = s.word b) ∧ t.cells = s.cells ∧
          t.faults = s.faults) ∧
        (limitsOrdered n s = false → exec (.loopCtrlWrite c n val) s = .next ((record 0x8005 n.val 0 s).refused c (w 0)))) ∧
      (s.flag (w 0) 31 = true → bits val 24 3 ≠ s.field (w 0) 24 3 →
        exec (.loopCtrlWrite c n val) s = .next ((record 0x8005 n.val 0 s).refused c (w 0)))) ∧
    (Writes c (w 0xD) s →
      (s.flag (w 0xD) 0 = false → s.justSet (w 0xD) 1 = false → exec (.loopSatClear c n) s = .next (s.setFlag (w 0xD) 1 false)) ∧
      ((s.flag (w 0xD) 0 = true ∨ s.justSet (w 0xD) 1 = true) → exec (.loopSatClear c n) s = .next s)) ∧
    (let y := s.trace[ch]
     let tw (off : Nat) := traceAddr ch off
     (Writes c (tw 0) s →
      (bit val 31 = true → canArm ch val s = true → ∃ t, exec (.traceArm c ch val) s = .next t ∧ t.word (tw 7) = 1 ∧
        t.trace[ch] = { mark := s.faults.count, sampled := (t.trace[ch]).sampled } ∧ (∀ k, tapSlot ch s = some k → sampleDue ch k t = none) ∧ bits (t.word (tw 0)) 16 5 = bits val 16 5 ∧ t.cells = s.cells ∧ t.faults = s.faults) ∧
      (bit val 31 = true → canArm ch val s = false → exec (.traceArm c ch val) s = .next ((record 0x8007 ch.val 0 s).refused c (tw 0))) ∧
      (bit val 31 = false → (s.field (tw 7) 0 3 = 1 ∨ s.field (tw 7) 0 3 = 2) → ∃ t, exec (.traceArm c ch val) s = .next t ∧
        t.field (tw 7) 0 3 = 0 ∧ t.trace[ch] = {} ∧ t.cells = s.cells ∧ t.faults = s.faults)) ∧
     (Writes c 0x6840 s → mask.toNat = 2 ^ ch.val →
      (s.field (tw 7) 0 3 = 1 → exec (.traceFire c mask) s = .next (s.updTrace ch fun y => { y with fired := true })) ∧
      (s.field (tw 7) 0 3 ≠ 1 → exec (.traceFire c mask) s = .next s)) ∧
     (s.blockOut 24 = true → exec (.traceSample ch) s = .next s) ∧
     ((tapSlot ch s = none ∨ tapSlot ch s = some k ∧ sampleDue ch k s = none ∧ s.field (tw 7) 0 3 ≠ 2) →
      (s.field (tw 7) 0 3 ≠ 4 ∨ y.due = none) → exec (.traceSample ch) s = .next s) ∧
     (s.blockOut 24 = false → tapSlot ch s = some k → sampleDue ch k s = some (t0, period) → s.field (tw 7) 0 3 = 1 → Memory.wf s = true →
      let v := tapValue k (s.field (tw 1) 0 4) s
      (traceTriggers ch v s = true → y.staged = [] → y.samples.length < 15 → 1 < s.field (tw 4) 0 16 →
          (traceToDram ch s = true ∨ (s.banks[traceBank ch s]).owner = 11) →
        ∃ t, exec (.traceSample ch) s = .next t ∧ t.field (tw 7) 0 3 = 2 ∧ t.field (tw 7) 8 24 = y.samples.length + 1 ∧
          (t.trace[ch]).samples = y.samples ++ [v] ∧ (t.trace[ch]).trigAt = t0 ∧ (t.trace[ch]).pre = y.samples.length ∧ t.cells = s.cells ∧
          t.faults = s.faults) ∧
      (traceTriggers ch v s = false → y.samples.length < s.field (tw 4) 16 16 → (y.samples.length < 15 ∨ (y.ringPos + 1) % 16 ≠ 0) →
        ∃ t, exec (.traceSample ch) s = .next t ∧ t.field (tw 7) 0 3 = 1 ∧ t.field (tw 7) 8 24 = y.samples.length + 1 ∧
          (t.trace[ch]).samples = y.samples ++ [v] ∧ t.cells = s.cells ∧ t.faults = s.faults)))

/-- R377 to R381, R384 to R387, R389 to R391, R394, R398 and Tables 15.2 and 15.3: a sample point, taken once, an SSI frame and an edge of the
encoder; the current path from a pair of codes, of the modulators or of the held conversions in their turn, to d and q; ALIGN and rows of it; the
sensorless start in the sense of the motion asked for, and its timers; the short, whose group is written at once. -/
def Obligations.MotorAxes : Prop :=
  ∀ (c : CoreId) (a : AxisId) (ca cb : BitVec 24) (i : Fin 16) (code : BitVec 16) (word : Word) (crc : BitVec 6) (la lb : Bool) (val : Word)
    (m : AlignMeasure) (old : Nat) (s : State),
    let x := s.axes[a]
    let w (off : Nat) := axisAddr a off
    let past (ns : Nat) : Prop := x.alignAt + ns ≤ s.clock
    let iRamp : Int := (s.field (w 0x12) 16 16 : Int) * 65536
    let fed : State := ({ s with loop := { s.loop with ain := modAt s.loop.ain i fun _ => code } }).updDie (ainDie i) fun x => { x with sarAt := s.clock }
    let cSar : Int := ((code.toNat : Int) - 32768) * 256
    let sampled (b : AxisId) (ia ib : Int) (t : State) : Prop := t.cells = s.cells ∧
      (t.axes[b]).iA = saturated 32 (((ia - sbits (s.word (axisAddr b 9)) 0 24) * (s.word (axisAddr b 0xB)).toInt + 2 ^ 15) / 2 ^ 16) ∧
      (t.axes[b]).iB = saturated 32 (((ib - sbits (s.word (axisAddr b 0xA)) 0 24) * (s.word (axisAddr b 0xB)).toInt + 2 ^ 15) / 2 ^ 16) ∧
      (∃ th : Nat, ((t.axes[b]).iD, (t.axes[b]).iQ) = park (t.axes[b]).iA (clarkeBeta (t.axes[b]).iA (t.axes[b]).iB) th) ∧
      (t.loop.slots[axisSlot b 2]).fb = (t.axes[b]).iD ∧ (t.loop.slots[axisSlot b 3]).fb = (t.axes[b]).iQ ∧
      ((s.axes[b]).alignRow = 0 → (s.axes[b]).start = .idle → (s.axes[b]).byObs = false → s.field (axisAddr b 0) 24 2 < 2 →
        (t.axes[b]).byObs = false → t.word (axisAddr b 0x1D) = BitVec.ofNat 32 (sourceAngle b (s.axes[b]).pos s))
    let point (x : Axis) : Axis := { x with
      point := samplePoint a s, holdAt := s.clock, sarLeft := if s.flag (w 0) 17 then 2 else 0, abzIll := 0 }
    let lost (t : State) : Prop := t.modes.mode = .stop ∧ (t.axes[a]).lost = true ∧
      t.faults.ring.head? = some ⟨0x8002, BitVec.ofNat 16 a.val, 0, s.deviceTime⟩
    s.blockOut 16 = false →
      ((s.flag (w 0) 31 = false ∨ x.point = samplePoint a s) → exec (.axisSample a) s = .next s) ∧
      ((s.flag (w 0) 31 = false ∨ s.flag (w 0) 17 = true ∨ x.wordPoint = samplePoint a s) → exec (.sdmWord a ca cb) s = .next s) ∧
      (s.flag (w 0) 31 = true → x.point ≠ samplePoint a s → s.field (w 0) 24 2 ≠ 0 →
        exec (.axisSample a) s = .next (s.updAxis a fun x => { point x with
          lost := x.lost && !(decide (s.field (w 0) 24 2 = 1) && decide (x.abzIll < lossN a s) && decide (x.disagree < 16)) })) ∧
      (s.flag (w 0) 31 = true → x.point ≠ samplePoint a s → s.field (w 0) 24 2 = 0 → x.ssiOpen = false →
          x.ssiEdge + s.field (w 0xE) 0 8 * 1000 ≤ s.clock →
        (x.ssiSeen = true → exec (.axisSample a) s = .next (s.updAxis a fun x => { point x with
          ssiOpen := true, ssiAt := s.clock, ssiSeen := false, ssiMiss := 0 })) ∧
        (x.ssiSeen = false → x.ssiMiss = 3 → x.lost = false → s.modes.mode = .run →
          ∃ t, exec (.axisSample a) s = .next t ∧ lost t ∧ (t.axes[a]).ssiMiss = 4 ∧ t.cells = s.cells)) ∧
      (x.ssiOpen = false → exec (.ssiFrame a word crc) s = .next s) ∧
      (x.ssiOpen = true → Memory.wf s = true →
        let n := clampN 8 32 (s.field (w 0xE) 24 6) - (if s.flag (w 0xE) 20 then 6 else 0)
        let v := ssiValue a word crc s
        (v.2 = true → x.ssiLast = some old → s.flag (w 0) 12 = false →
          ∃ t, exec (.ssiFrame a word crc) s = .next t ∧ (t.axes[a]).pos = x.pos + signed n (v.1 + 2 ^ n - old) ∧
            (t.axes[a]).ssiLast = some v.1 ∧ (t.axes[a]).ssiOpen = false ∧ (t.axes[a]).ssiEdge = s.clock ∧ (t.axes[a]).posAt = x.ssiAt ∧
            (t.axes[a]).lost = (x.lost && decide (16 ≤ x.disagree)) ∧ t.word (w 0x1B) ++ t.word (w 0x1A) = BitVec.ofInt 64 (t.axes[a]).pos ∧ t.cells = s.cells ∧ t.faults = s.faults) ∧
        (v.2 = false → x.ssiBadRun + 1 < lossN a s →
          ∃ t, exec (.ssiFrame a word crc) s = .next t ∧ (t.axes[a]).pos = x.pos ∧ (t.axes[a]).ssiBadRun = x.ssiBadRun + 1 ∧
            t.field (w 0x1F) 16 16 = satInc 16 (s.field (w 0x1F) 16 16) ∧ t.faults = s.faults ∧ t.modes = s.modes) ∧
        (v.2 = false → lossN a s ≤ x.ssiBadRun + 1 → x.lost = false → s.modes.mode = .run →
          ∃ t, exec (.ssiFrame a word crc) s = .next t ∧ lost t)) ∧
      (s.field (w 0) 24 2 ≠ 1 → exec (.abzEdge a la lb false) s = .next s) ∧
      (s.field (w 0) 24 2 = 1 → s.flag (w 0) 12 = false →
        let d := (quadPhase la lb + 4 - quadPhase x.abzA x.abzB) % 4
        let levels (t : State) : Prop := (t.axes[a]).abzA = la ∧ (t.axes[a]).abzB = lb ∧ t.cells = s.cells
        let early : Prop := ∃ t, x.abzAt = some t ∧ s.clock < t + abzGap a s
        (d ≠ 2 → (d = 0 ∨ ¬early) → ∃ t, exec (.abzEdge a la lb false) s = .next t ∧ levels t ∧ t.faults = s.faults ∧
          (t.axes[a]).pos = x.pos + (if d = 1 then 1 else if d = 3 then -1 else 0)) ∧
        ((d = 2 ∨ d ≠ 0 ∧ early) → ∃ t, exec (.abzEdge a la lb false) s = .next t ∧ levels t ∧ (t.axes[a]).pos = x.pos ∧ (t.axes[a]).abzIll = x.abzIll + 1)) ∧
      (s.flag (w 0) 31 = true → s.flag (w 0) 17 = false → x.wordPoint ≠ samplePoint a s → s.flag (w 0) 12 = false → Memory.wf s = true →
        ∃ t, exec (.sdmWord a ca cb) s = .next t ∧ sampled a ca.toInt cb.toInt t ∧ (t.axes[a]).wordPoint = samplePoint a s) ∧
      (sarEnds i s = false → exec (.sarConversion i code) s = .next s) ∧
      (sarEnds i s = true → (∀ b, sarFront (ainDie i) s = some b → sarAwaits b i s = false) → exec (.sarConversion i code) s = .next fed) ∧
      (sarEnds i s = true → sarFront (ainDie i) s = some a → sarAwaits a i s = true →
        (x.sarLeft = 2 → exec (.sarConversion i code) s = .next (fed.updAxis a fun x => { x with cA := cSar, sarLeft := 1 })) ∧
        (x.sarLeft = 1 → s.flag (w 0) 12 = false → Memory.wf s = true →
          ∃ t, exec (.sarConversion i code) s = .next t ∧ sampled a x.cA cSar t ∧ (t.axes[a]).sarLeft = 0)) ∧
      (Writes c (w 0) s → s.flag (w 0) 31 = true → s.field (w 0) 24 2 < 2 → s.flag (w 0) 29 = false →
          (∀ j, j < 32 → j ≠ 30 → val.getLsbD j = (s.word (w 0)).getLsbD j) → bit val 30 = true →
        (canAlign a (bit val 11) s = true → ∃ t, exec (.align c a val) s = .next t ∧ (t.axes[a]).alignRow = 1 ∧ (t.axes[a]).alignAt = s.clock ∧
          t.flag (w 1) 20 = false ∧ (t.axes[a]).lost = false ∧ (t.loop.slots[axisSlot a 2]).spFixed = some 0 ∧ t.cells = s.cells ∧
          t.faults = s.faults ∧ t.modes = s.modes) ∧
        (canAlign a (bit val 11) s = false → exec (.align c a val) s = .next ((record 0x7007 a.val (w 0) s).refused c (w 0)))) ∧
      (x.alignRow = 0 → exec (.alignPhaseTimer a m) s = .next s) ∧
      (x.alignRow = 1 → iAlign a s ≤ 2 * (max m.ia.natAbs (max m.ib.natAbs m.ic.natAbs) : Nat) →
        (0 < m.ia → m.ib < 0 →
          ∃ t, exec (.alignPhaseTimer a m) s = .next t ∧ (t.axes[a]).alignRow = 2 ∧ (t.axes[a]).alignAt = x.alignAt + 5000000 ∧ (t.axes[a]).vD = 0 ∧
            (t.axes[a]).vQ = 0 ∧ (t.gate.axes[a]).fresh = true ∧ t.mach = s.mach ∧ t.modes = s.modes ∧ t.cells = s.cells ∧ t.faults = s.faults) ∧
        (m.ia ≤ 0 → Memory.wf s = true → ∃ t, exec (.alignPhaseTimer a m) s = .next t ∧ (t.axes[a]).alignRow = 8 ∧ (t.axes[a]).alignCode = 1 ∧
          t.field (w 1) 24 4 = 1 ∧ (t.mach.brakes[a]).phase = .set ∧
          t.faults.ring.head? = some ⟨0x7001, BitVec.ofNat 16 a.val, 1, s.deviceTime⟩)) ∧
      (x.alignRow = 3 → past 20000000 → ∃ t, exec (.alignPhaseTimer a m) s = .next t ∧ (t.axes[a]).alignRow = 4 ∧
        (t.mach.brakes[a]).phase = .energised ∧ t.words = s.words ∧ t.faults = s.faults) ∧
      (x.alignRow = 8 → x.alignCode = 0 → past 20000000 → Memory.wf s = true → ∃ t, exec (.alignPhaseTimer a m) s = .next t ∧
        (t.axes[a]).alignRow = 0 ∧ t.flag (w 1) 20 = true ∧ (t.loop.slots[axisSlot a 3]).spFixed = none ∧ t.faults = s.faults) ∧
      (x.alignRow = 8 → x.alignCode = 0 → ¬past 20000000 → exec (.alignPhaseTimer a m) s = .next s) ∧
      (canStart a s = true → x.start = .blind → x.rampDone = true → Memory.wf s = true → ∃ t, exec (.sensorlessStart a) s = .next t ∧
        (t.axes[a]).start = .ramp ∧ (t.axes[a]).startAt = s.clock ∧ (t.axes[a]).rampSpeed = 0 ∧ (t.loop.slots[axisSlot a 2]).spFixed = some 0 ∧
        (t.loop.slots[axisSlot a 3]).spFixed = some (motionAsked a s * iRamp) ∧ (t.axes[a]).startDir = motionAsked a s ∧ (t.axes[a]).tries = 0 ∧
        t.cells = s.cells ∧ t.faults = s.faults) ∧
      (canStart a s = true → x.start = .idle → x.rampDone = false → Memory.wf s = true → ∃ t, exec (.sensorlessStart a) s = .next t ∧ (t.axes[a]).start = .align ∧ (t.axes[a]).startAt = s.clock ∧ (t.axes[a]).startDir = motionAsked a s ∧ (t.axes[a]).tries = 0 ∧
        (t.loop.slots[axisSlot a 2]).spFixed = some (iAlign a s) ∧ (t.loop.slots[axisSlot a 3]).spFixed = some 0 ∧ t.cells = s.cells ∧
        t.faults = s.faults) ∧
      ((canStart a s = false ∨ x.start = .align ∨ x.start = .ramp ∨ x.start = .handover ∨ x.start = .retry ∨ x.start = .blind ∧ x.rampDone = false) → exec (.sensorlessStart a) s = .next s) ∧
      (x.start = .idle → exec (.startStateTimer a) s = .next s) ∧
      (x.start = .align →
        (s.clock < x.startAt + s.field (w 0x11) 0 16 * 1000000 → exec (.startStateTimer a) s = .next s) ∧
        (x.startAt + s.field (w 0x11) 0 16 * 1000000 ≤ s.clock → ∃ t, exec (.startStateTimer a) s = .next t ∧ (t.axes[a]).start = .ramp ∧
          (t.axes[a]).rampSpeed = 0 ∧ (t.loop.slots[axisSlot a 2]).spFixed = some 0 ∧
          (t.loop.slots[axisSlot a 3]).spFixed = some (x.startDir * iRamp) ∧ t.cells = s.cells ∧ t.faults = s.faults)) ∧
      (x.start = .handover → obsLocked a s = true → ∃ t, exec (.startStateTimer a) s = .next t ∧ (t.axes[a]).start = .run ∧
        (t.axes[a]).byObs = true ∧ (t.loop.slots[axisSlot a 2]).spFixed = none ∧ (t.loop.slots[axisSlot a 3]).spFixed = none ∧
        t.words = s.words ∧ t.faults = s.faults) ∧
      (x.start = .handover → obsLocked a s = false → x.startAt + s.field (w 0x14) 16 16 * 1000000 ≤ s.clock →
        ∃ t, exec (.startStateTimer a) s = .next t ∧ (t.axes[a]).start = .retry ∧ (t.axes[a]).startAt = s.clock ∧ (t.axes[a]).tries = x.tries + 1 ∧
          (t.gate.axes[a]).shadow = uniformGroup 1 ∧ (t.gate.axes[a]).fresh = true ∧ t.faults = s.faults) ∧
      (x.start = .retry → s.clock < x.startAt + s.field (w 0x14) 0 16 * 1000000 → exec (.startStateTimer a) s = .next s) ∧
      (x.start = .retry → x.startAt + s.field (w 0x14) 0 16 * 1000000 ≤ s.clock → x.tries ≤ s.field (w 0x13) 8 4 →
        ∃ t, exec (.startStateTimer a) s = .next t ∧ (t.axes[a]).start = .align ∧ (t.axes[a]).startAt = s.clock ∧
          (t.loop.slots[axisSlot a 2]).spFixed = some (iAlign a s) ∧ t.faults = s.faults) ∧
      (x.start = .retry → x.startAt + s.field (w 0x14) 0 16 * 1000000 ≤ s.clock → s.field (w 0x13) 8 4 < x.tries →
        ∃ t, exec (.startStateTimer a) s = .next t ∧ (t.axes[a]).start = .fault ∧ axisGatesAreOff a t = true ∧
          t.faults.ring.head? = some ⟨0x7002, BitVec.ofNat 16 a.val, BitVec.ofNat 32 (s.field (w 1) 0 4), s.deviceTime⟩) ∧
      (Writes c (w 0) s → s.field (w 0) 24 2 < 2 → (∀ j, j < 32 → j ≠ 29 → j ≠ 30 → val.getLsbD j = (s.word (w 0)).getLsbD j) → bit val 30 = false →
        (bit val 29 = true → gatesEnabled a s = true → s.flag (w 1) 17 = false → s.flag (w 0) 31 = true →
          ∃ t, exec (.axisShort c a val) s = .next t ∧ (t.axes[a]).shorting = true ∧ t.flag (w 0) 29 = true ∧ t.cells = s.cells ∧
            ((t.word (w 8) = 0xFFFFFFFF ∨ (axisSpeed a s).natAbs * 10 < (t.word (w 8)).toNat * 9) → t.flag (w 1) 17 = true ∧
              (t.gate.axes[a]).shadow = uniformGroup (if val.getLsbD 28 then 3 else 2) ∧ (t.gate.axes[a]).fresh = true ∧ t.faults = s.faults) ∧
            (¬(t.word (w 8) = 0xFFFFFFFF ∨ (axisSpeed a s).natAbs * 10 < (t.word (w 8)).toNat * 9) →
              t.flag (w 1) 17 = false ∧ (t.axes[a]).braking = true)) ∧
        (bit val 29 = false → s.flag (w 0) 31 = true →
          ∃ t, exec (.axisShort c a val) s = .next t ∧ (t.axes[a]).shorting = false ∧ (t.axes[a]).braking = false ∧ t.flag (w 1) 17 = false ∧
            t.flag (w 0) 29 = false ∧ t.cells = s.cells ∧ t.faults = s.faults))

/-- R409 to R421: a compare group reaches the shadow and the reload applies it, once a period, with no pulse that turns both switches on; a reading
that qualifies an armed source trips: its latch, its fault, every gate and brake off, Trip; the STO inputs; the bootstrap hold; clearing a latch,
enabling the gates, and the comparator self-test. -/
def Obligations.GateDrive : Prop :=
  ∀ (c : CoreId) (a : AxisId) (g : CompareGroup) (r : TripReading) (phase : BridgePhase) (ch : Fin 24) (die : Die) (val : Word) (b t0 n : Nat)
    (s : State),
    let x := s.gate.axes[a]
    let src := r.src
    let k := periodIndex a s
    let copied (t : State) : Prop := (t.gate.axes[a]).applied = (if x.fresh then x.shadow else x.applied) ∧ (t.gate.axes[a]).fresh = false ∧
      (t.gate.axes[a]).period = some k ∧ t.cells = s.cells ∧
      (x.fresh = true → t.word (gateAxisAddr a 2) = BitVec.ofNat 32 k ∧ (t.gate.axes[a]).waiting = false ∧ (t.gate.axes[a]).reply = some k)
    let d := dieIx die
    let ctrl := gateAxisAddr a 0
    let tripped (t : State) : Prop := t.modes.mode = .trip ∧ machinerySafe t = true
    let die_ := axisDie a
    let on := gatesEnabled a s && !anyLatched s && !s.dies[die_].safe && !s.dies[die_].lost && decide (s.sec.jtagIr ≠ 3) && !s.blockOut 16 &&
      !s.blockOut 17 && !s.blockOut (if die_ = 0 then 18 else 19)
    (s.blockOut 16 = false → s.blockOut (gateBlock a) = false →
      exec (.gateCompareGroup a g) s = .next (s.updGate a fun x => { x with shadow := g, fresh := true })) ∧
    ((s.blockOut 16 = true ∨ s.blockOut (gateBlock a) = true) → exec (.gateCompareGroup a g) s = .next s) ∧
    ((s.blockOut (gateBlock a) = true ∨ x.period = some k) → exec (.gateReload a) s = .next s) ∧
    (s.blockOut (gateBlock a) = false → x.period ≠ some k → Memory.wf s = true →
      ∃ t, exec (.gateReload a) s = .next t ∧ copied t ∧ (∀ i : Fin 3, ((t.gate.axes[a]).pulses[i]).overlaps = false) ∧
        (on = false → t.faults = s.faults ∧ ∀ i : Fin 3, (t.gate.axes[a]).pulses[i] = {})) ∧
    (qualifies r s = false → exec (.gateTrip r phase) s = .next s) ∧
    (s.modes.mode = .run → s.modes.held = false → Memory.wf s = true → qualifies r s = true → tripArmed src s = true →
      ∃ t, exec (.gateTrip r phase) s = .next t ∧ tripped t ∧ t.cells = s.cells ∧ t.fuses = s.fuses ∧
        (∀ e ∈ tripDies src, t.flag (gateAddr e 0) (tripBit src) = true ∧ t.flag (gateAddr e 9) (tripBit src) = true) ∧
        ⟨BitVec.ofNat 16 (tripFault src).1, BitVec.ofNat 16 (tripFault src).2, BitVec.ofNat 32 (tripBit src), s.deviceTime⟩ ∈ t.faults.ring) ∧
    (Memory.wf s = true → qualifies r s = true → (tripArmed src s = false ∨ coresPowered s = false) →
      ∃ t, exec (.gateTrip r phase) s = .next t ∧ t.modes = s.modes ∧ t.mach = s.mach ∧ t.faults = s.faults ∧
        (∀ e : Fin 2, t.word (gateAddr e 0) = s.word (gateAddr e 0)) ∧
        ∀ e ∈ tripDies src, t.flag (gateAddr e 9) (tripBit src) = true) ∧
    (Memory.wf s = true →
      ∃ t, exec (.tripSourceInactive src) s = .next t ∧ t.modes = s.modes ∧ t.mach = s.mach ∧ t.faults = s.faults ∧
        (∀ e : Fin 2, t.word (gateAddr e 0) = s.word (gateAddr e 0)) ∧
        ∀ e ∈ tripDies src, t.flag (gateAddr e 9) (tripBit src) = false) ∧
    (s.gate.stoSince = none → exec .stoDiscrepancy s = .next s) ∧
    (s.gate.stoSince = some t0 →
      ((s.clock < t0 + 20000000 ∨ coresPowered s = false) → exec .stoDiscrepancy s = .next s) ∧
      (t0 + 20000000 ≤ s.clock → s.modes.mode = .run → s.modes.held = false → Memory.wf s = true →
        let missing := if s.flag 0x4809 24 then 25 else 24
        ∃ t, exec .stoDiscrepancy s = .next t ∧ tripped t ∧ (∀ e : Fin 2, t.flag (gateAddr e 0) missing = true) ∧
          ⟨0x9007, 0xFFFF, BitVec.ofNat 32 missing, s.deviceTime⟩ ∈ t.faults.ring)) ∧
    (((ch.val % 2 = 1 ∨ s.blockOut (gateBlock (channelAxis ch)) = true ∨ s.flag (channelCfg ch) 31 = true ∨ s.gate.bootHold.getLsbD ch = true) → exec (.bootUvHold ch) s = .next s) ∧
      (ch.val % 2 = 0 → s.blockOut (gateBlock (channelAxis ch)) = false → s.flag (channelCfg ch) 31 = false → s.gate.bootHold.getLsbD ch = false →
        ∃ t, exec (.bootUvHold ch) s = .next t ∧ t.gate.bootHold.getLsbD ch = true ∧ (t.gate.outs[ch]).off = true ∧ t.modes = s.modes ∧ t.cells = s.cells ∧
          t.words = (s.countUp (gateAxisAddr (channelAxis ch) 4) 0 32).words ∧
          t.faults.ring.head? = some ⟨0x900B, BitVec.ofNat 16 ch.val, 0, s.deviceTime⟩) ∧
      ∃ t, exec (.bootUvRelease ch) s = .next t ∧ t.words = s.words ∧ t.faults = s.faults ∧ t.modes = s.modes ∧
        ∀ e : Fin 24, t.gate.bootHold.getLsbD e = (decide (e ≠ ch) && s.gate.bootHold.getLsbD e)) ∧
    (Writes c (gateAddr d 1) s → b < 28 → val.toNat = 2 ^ b →
      (s.flag (gateAddr d 0) b = false → exec (.gateTripClear c die val) s = .next s) ∧
      (s.flag (gateAddr d 0) b = true → quietLong d b s = false →
        exec (.gateTripClear c die val) s = .next (record 0x900A (latchUnit d b) b s)) ∧
      (s.flag (gateAddr d 0) b = true → quietLong d b s = true →
        ((b < 20 ∨ 26 ≤ b) → exec (.gateTripClear c die val) s = .next (s.setFlag (gateAddr d 0) b false)) ∧
        (20 ≤ b → b < 26 →
          exec (.gateTripClear c die val) s = .next ((s.setFlag (gateAddr 0 0) b false).setFlag (gateAddr 1 0) b false)))) ∧
    (Writes c ctrl s → bit val 31 = true → gatesEnabled a s = false →
      ((s.modes.mode = .run ∨ s.modes.mode = .degraded ∨ s.modes.mode = .stop) → anyLatched s = false → hestLow s = false →
        (∀ i, i < 6 → unitFailed .gatePin (6 * a.val + i) s = false) → s.flag (gateAddr die_ 9) 19 = false →
        ∃ w : Word, exec (.gateEnable c a val) s = .next (softEnds a ((s.setWord ctrl w).updGate a fun x => { x with waiting := true, fresh := false })) ∧
          bit w 31 = true ∧ bits w 0 9 = bits val 0 9) ∧
      ((anyLatched s = true ∨ hestLow s = true ∨ (s.modes.mode ≠ .run ∧ s.modes.mode ≠ .degraded ∧ s.modes.mode ≠ .stop)) →
        exec (.gateEnable c a val) s = .next ((record 0x900D (die_.val + 1) ctrl s).refused c ctrl))) ∧
    (Writes c ctrl s → bit val 31 = false → gatesEnabled a s = true →
      ∃ t, exec (.gateEnable c a val) s = .next t ∧ gatesEnabled a t = false ∧ axisGatesAreOff a t = true ∧ t.modes = s.modes ∧
        t.cells = s.cells ∧ (starting s.axes[a] = false → t.faults = s.faults)) ∧
    (Writes c (gateAddr d 6) s →
      (bit val 31 = false → exec (.gateTest c die val) s = .next s) ∧
      (bit val 31 = true → (s.modes.mode = .hold ∨ s.modes.mode = .maintenance) → dieEnabled 0 s = false → dieEnabled 1 s = false →
        bits val 0 5 < 20 → s.flag (gateAddr d 9) (bits val 0 5) = false → s.gate.tests[d] = none →
        exec (.gateTest c die val) s = .next
          { s with gate := { s.gate with tests := modAt s.gate.tests d fun _ => some ⟨bits val 0 5, s.clock⟩ } }) ∧
      (bit val 31 = true → s.modes.mode ≠ .hold → s.modes.mode ≠ .maintenance →
        exec (.gateTest c die val) s = .next (s.setField (gateAddr d 7) 29 3 3))) ∧
    (s.gate.tests[d] = none → exec (.gateTestEnd die none) s = .next s) ∧
    (s.gate.tests[d] = some ⟨b, t0⟩ →
      let ended : State := { s with gate := { s.gate with tests := modAt s.gate.tests d fun _ => none } }
      (s.clock < t0 + 10000 → exec (.gateTestEnd die none) s = .next s) ∧
      (t0 + 10000 ≤ s.clock →
        (n ≤ 200 → exec (.gateTestEnd die (some n)) s = .next (ended.setWord (gateAddr d 7) (BitVec.ofNat 32 (2 ^ 29 + n)))) ∧
        (200 < n → exec (.gateTestEnd die (some n)) s = .next
          (record 0x900C (d.val + 1) b (ended.setWord (gateAddr d 7) (BitVec.ofNat 32 (2 ^ 30 + min n 1023))))) ∧
        ∃ delay, delay < 1024 ∧ exec (.gateTestEnd die none) s = .next
          (record 0x900C (d.val + 1) b (ended.setWord (gateAddr d 7) (BitVec.ofNat 32 (2 ^ 30 + delay)))).bump))

/-- R434 to R441, R445: the set-points of a group and the loss of a member; a category 1 or 2 demand stops, a category 0 demand turns every gate and
brake off; standstill, T_SET and a missed standstill; the stop commands; releasing, proving, confirming and setting a brake. -/
def Obligations.Machinery : Prop :=
  ∀ (c : CoreId) (a : AxisId) (g : Nat) (l me : Member) (cat : Fin 2) (why : StopCause) (axes : BitVec 4) (coil t0 : Nat) (st : StopSeq) (s : State),
    let b := s.mach.brakes[a]
    let ctrl := machAddr a 9
    let iMinimum := s.field (machAddr a 8) 8 8
    let slots := if s.hol.slotsNew then s.hol.slots else List.replicate 16 absentSlot
    let members := noteSlots 0 slots s.mach.members
    let quiet (t : State) : Prop := t.cells = s.cells ∧ (noStart s = true → t.faults = s.faults) ∧ t.fuses = s.fuses
    let stops (cat fault : Nat) (t : State) : Prop := t.modes.mode = .stop ∧ t.field 0x5080 0 2 = cat ∧ t.field 0x5080 16 16 = fault ∧ (s.blockOut 12 = false → t.hol.ownLeft = 9) ∧ t.gate = s.gate ∧
      (∀ x : AxisId, s.flag (slotAddr (axisSlot x 1) 0) 31 = false → (t.loop.slots[axisSlot x 1]).apply = some true) ∧
      ∃ q : StopSeq, t.mach.stop = some q ∧ q.cat = cat ∧ q.origin = s.modes.mode ∧ q.since = s.clock ∧ ∀ x : AxisId, q.done[x] = false
    let trips (fault : Nat) (t : State) : Prop := t.modes.mode = .trip ∧ machinerySafe t = true ∧ t.flag 0x5080 8 = true ∧
      t.field 0x5080 16 16 = fault ∧ (s.blockOut 12 = false → t.hol.ownLeft = 9) ∧ t.mach.stop = none
    let measured : State := (s.updBrake a fun b => { b with coil := coil }).setField (machAddr a 14) 0 8 (min coil 255)
    (s.blockOut 20 = true → exec .machGroupCycle s = .next s) ∧
    (s.blockOut 20 = false → ownGroups s = [] → exec .machGroupCycle s = .next { s with
      mach := { s.mach with members := members }, hol := { s.hol with slotsNew := false } }) ∧
    (s.blockOut 20 = false → ownGroups s = [g] → groupAxes g s = [a] →
      (members = [l, me] → l.entry.group.val = g → me.entry.group.val = g → l.lost = false → me.lost = false → l.absent ≤ absentN g s →
        me.absent ≤ absentN g s → entryLeads l.entry = true → entryLeads me.entry = false → entryLocks l.entry = false → entryLocks me.entry = false →
        me.entry.member.val = memberOf a s → l.entry.member ≠ me.entry.member → l.entry.pos = me.entry.pos →
        ∃ t, exec .machGroupCycle s = .next t ∧ (t.mach.axes[a]).spQ = some (saturated 32 ((ratioOf a s * memberTau l s) / 2 ^ 14)) ∧
          (t.mach.axes[a]).spSpeed = none ∧ t.words = s.words ∧ t.modes = s.modes ∧ quiet t) ∧
      (members = [l] → l.entry.group.val = g → l.lost = false → absentN g s < l.absent → s.modes.mode = .run → s.mach.stop = none → Memory.wf s = true →
        ∃ t, exec .machGroupCycle s = .next t ∧ stops 1 0xA001 t ∧ t.cells = s.cells ∧
          t.faults.ring.head? = some ⟨0xA001, BitVec.ofNat 16 g, BitVec.ofNat 32 l.entry.member.val, s.deviceTime⟩)) ∧
    ((s.modes.mode = .run ∨ s.modes.mode = .degraded) → Memory.wf s = true →
      (s.blockOut 20 = true → exec (.stopDemand cat why) s = .next s ∧ exec (.cat0Demand why) s = .next s) ∧
      (s.blockOut 20 = false → (∃ t, exec (.stopDemand cat why) s = .next t ∧ stops (cat.val + 1) why.fault.toNat t ∧ quiet t ∧ t.faults = s.faults) ∧
        ∃ t, exec (.cat0Demand why) s = .next t ∧ trips why.fault.toNat t ∧ quiet t) ∧
      (Writes c 0x5081 s →
        (∃ t, exec (.machStopCat0 c axes) s = .next t ∧ trips 0 t ∧ quiet t) ∧ (∃ t, exec (.machStopCat1 c axes) s = .next t ∧ stops 1 0 t ∧ quiet t) ∧
        ∃ t, exec (.machStopCat2 c axes) s = .next t ∧ stops 2 0 t ∧ quiet t)) ∧
    (Writes c 0x5082 s → exec (.machStopClear c) s = .next (s.setFlag 0x5080 8 false)) ∧
    (s.mach.stop = none → exec (.stopStandstill a) s = .next s ∧ exec .stopSetTimer s = .next s ∧ exec (.machStopEscalated a) s = .next s) ∧
    (s.mach.stop = some st →
      ((st.done[a] = true ∨ standstill a st.since s = false) → exec (.stopStandstill a) s = .next s) ∧
      (st.done[a] = false → standstill a st.since s = true →
        (st.cat = 1 → ∃ t, exec (.stopStandstill a) s = .next t ∧ (t.mach.brakes[a]).phase = .set ∧ t.modes = s.modes ∧ t.words = s.words ∧ quiet t ∧
          (∀ x : AxisId, x ≠ a → t.mach.brakes[x] = s.mach.brakes[x]) ∧ t.gate = s.gate ∧
          ∃ q, t.mach.stop = some q ∧ q.done[a] = true ∧ q.cat = 1 ∧ ((∀ x : AxisId, x ≠ a → st.done[x] = true) → q.setAt = some s.clock)) ∧
        (st.cat = 2 → (∀ x : AxisId, x ≠ a → st.done[x] = true) → st.origin = .run → s.modes.degraded = false → Memory.wf s = true →
          ∃ t, exec (.stopStandstill a) s = .next t ∧ t.modes.mode = .run ∧ t.mach.stop = none ∧ t.field 0x5080 0 2 = 3 ∧ t.gate = s.gate ∧
            t.word (slotAddr (4 * a.val) 7) = BitVec.ofInt 32 (s.loop.slots[axisSlot a 0]).fb ∧ quiet t)) ∧
      (st.cat = 1 → st.setAt = some t0 →
        ((∀ x : AxisId, t0 + s.field (machAddr x 8) 16 8 * 1000000 ≤ s.clock) →
          ∃ t, exec .stopSetTimer s = .next t ∧ t.modes.mode = .hold ∧ machinerySafe t = true ∧ t.mach.stop = none ∧ quiet t) ∧
        ((∃ x : AxisId, s.clock < t0 + s.field (machAddr x 8) 16 8 * 1000000) → exec .stopSetTimer s = .next s)) ∧
      ((st.done[a] = true ∨ s.field (machAddr a 4) 16 16 = 0) → exec (.machStopEscalated a) s = .next s) ∧
      (st.done[a] = false → stopLimit a st.speed[a] s = some t0 →
        (s.clock < st.since + t0 → exec (.machStopEscalated a) s = .next s) ∧
        (st.since + t0 ≤ s.clock → s.modes.mode = .stop → Memory.wf s = true →
          ∃ t, exec (.machStopEscalated a) s = .next t ∧ trips 0xA006 t ∧
            (noStart s = true → t.faults.ring.head? = some ⟨0xA006, BitVec.ofNat 16 a.val, 0, s.deviceTime⟩)))) ∧
    (Writes c ctrl s →
      (canRelease a s = true → b.phase = .set → exec (.brakeRelease c a) s = .next (((s.setFlag ctrl 0 true).updBrake a fun b =>
        { b with phase := .proving, since := s.clock }).updSlot (axisSlot a 3) fun x => { x with spFixed := some (s.word (machAddr a 10)).toInt })) ∧
      (canRelease a s = false → exec (.brakeRelease c a) s = .next ((record 0xA00C a.val 0 s).refused c ctrl)) ∧
      ∃ t, exec (.brakeSet c a) s = .next t ∧ (t.mach.brakes[a]).phase = .set ∧ t.flag ctrl 0 = false ∧
        (drivesSlots a s = false → (t.loop.slots[axisSlot a 3]).spFixed = none) ∧ t.modes = s.modes ∧ quiet t) ∧
    (b.phase ≠ .proving → exec (.brakeProveDone a) s = .next s) ∧
    (b.phase = .proving →
      (b.since + s.field (machAddr a 8) 0 8 * 1000000 ≤ s.clock →
        exec (.brakeProveDone a) s = .next (s.updBrake a fun b => { b with phase := .energised, since := s.clock })) ∧
      (s.clock < b.since + s.field (machAddr a 8) 0 8 * 1000000 → exec (.brakeProveDone a) s = .next s)) ∧
    (b.phase ≠ .energised → exec (.brakeReleaseConfirm a coil) s = .next measured) ∧
    (b.phase = .energised → Memory.wf s = true →
      (iMinimum ≤ coil → ∃ t, exec (.brakeReleaseConfirm a coil) s = .next t ∧ (t.mach.brakes[a]).phase = .released ∧
        (drivesSlots a s = false → (t.loop.slots[axisSlot a 3]).spFixed = none) ∧ t.field (machAddr a 14) 0 8 = min coil 255 ∧ t.modes = s.modes ∧ quiet t) ∧
      (coil < iMinimum → b.since + s.field (machAddr a 8) 24 8 * 1000000 ≤ s.clock → ∃ t, exec (.brakeReleaseConfirm a coil) s = .next t ∧
        (t.mach.brakes[a]).phase = .set ∧ t.faults.ring.head? = some ⟨0xA007, BitVec.ofNat 16 a.val, 0, s.deviceTime⟩) ∧
      (coil < iMinimum → s.clock < b.since + s.field (machAddr a 8) 24 8 * 1000000 → exec (.brakeReleaseConfirm a coil) s = .next measured)) ∧
    ((coil ≤ 120 ∨ b.phase = .set ∨ b.phase = .proving) → exec (.brakeShort a coil) s = .next measured) ∧
    (120 < coil → (b.phase = .energised ∨ b.phase = .released) → ∃ t, exec (.brakeShort a coil) s = .next t ∧ (t.mach.brakes[a]).phase = .set ∧
      (t.mach.brakes[a]).falling = true ∧ t.faults.ring.head? = some ⟨0xA008, BitVec.ofNat 16 a.val, 0, s.deviceTime⟩) ∧
    ((b.falling = false ∨ s.clock < b.since + s.field (machAddr a 8) 16 8 * 1000000) → Memory.wf s = true →
      exec (.brakeSetTimeout a coil) s = .next measured) ∧
    (b.falling = true → b.since + s.field (machAddr a 8) 16 8 * 1000000 ≤ s.clock → Memory.wf s = true →
      (coil < iMinimum → exec (.brakeSetTimeout a coil) s = .next (measured.updBrake a fun b => { b with falling := false })) ∧
      (iMinimum ≤ coil → ∃ t, exec (.brakeSetTimeout a coil) s = .next t ∧ (t.mach.brakes[a]).falling = false ∧ t.modes = s.modes ∧
        t.faults.ring.head? = some ⟨0xA009, BitVec.ofNat 16 a.val, 0, s.deviceTime⟩))

/-- R453 to R459, R466 to R468, R471, R476 and R21: a block's energy goes, with its remainder, into the register of its sign, and into none under
creep or in fail; pulses, demand periods, saving; a result frame is sent and taken into the window, or discarded and asked for again; the command
codes; a silent channel; the read of an energy register latches its high half. -/
def Obligations.PolderMeasurement : Prop :=
  ∀ (c : CoreId) (rd : Reg) (ch : Fin 4) (xs : Fin 4 → PolderSamples) (reg saved : Bool) (f : List (Nat × Word)) (s : State),
    let p := s.polder
    let x := p.chans[ch]
    let keeps (t : State) : Prop := t.words = s.words ∧ t.cells = s.cells ∧ t.faults = s.faults ∧ t.modes = s.modes ∧ t.fuses = s.fuses
    (polderOn s = false → exec (.polderBlock (xs 0) (xs 1) (xs 2) (xs 3)) s = .next s ∧ exec (.polderPulse ch) s = .next s ∧
      exec .polderDemandEnd s = .next s ∧ exec .polderFrameSend s = .next s ∧ exec .polderSave s = .next s ∧ exec .polderCmdFullFrame s = .next s) ∧
    (polderOn s = true →
      (p.blockAt = none → ∃ t, exec (.polderBlock (xs 0) (xs 1) (xs 2) (xs 3)) s = .next t ∧ keeps t ∧ t.polder.blockAt = some s.clock ∧
        t.polder.seals = p.seals ∧ t.polder.phase = p.phase ∧ ∀ k : Fin 4,
          let y := p.chans[k]
          let z := t.polder.chans[k]
          let e := blockEnergy y.cal (blockSums y.cal (xs k)).1
          z.cal = y.cal ∧ z.saved = y.saved ∧ z.creeping = belowCreep y.cal e ∧
          ((belowCreep y.cal e = true ∨ p.phase = .fail) → z.energy = y.energy ∧ z.owed = y.owed) ∧
          (belowCreep y.cal e = false → p.phase ≠ .fail →
            (0 ≤ e → z.energy.reg = y.energy.reg ∧ z.energy.rRem = y.energy.rRem ∧ z.energy.fRem < 2 ^ 64 ∧ z.energy.fwd < 10 ^ 15 ∧
              (y.energy.fwd * 2 ^ 64 + y.energy.fRem + e.toNat) % (10 ^ 15 * 2 ^ 64) = z.energy.fwd * 2 ^ 64 + z.energy.fRem) ∧
            (e < 0 → z.energy.fwd = y.energy.fwd ∧ z.energy.fRem = y.energy.fRem ∧ z.energy.rRem < 2 ^ 64 ∧ z.energy.reg < 10 ^ 15 ∧
              (y.energy.reg * 2 ^ 64 + y.energy.rRem + e.natAbs) % (10 ^ 15 * 2 ^ 64) = z.energy.reg * 2 ^ 64 + z.energy.rRem))) ∧
      (x.pulseAt = none →
        (p.phase ≠ .fail → pulseUnit x.cal ≤ x.owed → ∃ t, exec (.polderPulse ch) s = .next t ∧ keeps t ∧
          (t.polder.chans[ch]).owed + pulseUnit x.cal = x.owed ∧ (t.polder.chans[ch]).pulses = x.pulses + 1 ∧
          (t.polder.chans[ch]).pulseAt = some s.clock ∧ (t.polder.chans[ch]).energy = x.energy) ∧
        ((p.phase = .fail ∨ x.owed < pulseUnit x.cal) → exec (.polderPulse ch) s = .next s)) ∧
      (p.quarter = polderTime s / 900 → exec .polderDemandEnd s = .next s) ∧
      (p.quarter ≠ polderTime s / 900 → ∃ t, exec .polderDemandEnd s = .next t ∧ keeps t ∧ t.polder.quarter = polderTime s / 900 ∧ ∀ k : Fin 4,
        t.polder.chans[k] = { p.chans[k] with
          lastFwd := (p.chans[k]).demFwd * 4 / 2 ^ 64, lastReg := (p.chans[k]).demReg * 4 / 2 ^ 64, demFwd := 0, demReg := 0 }) ∧
      (p.sentAt = none → exec .polderFrameSend s = .next (s.updPolder fun p => { p with
        frame := some (resultFrame s), seq := p.seq + 1, sentAt := some s.clock })) ∧
      (p.sentAt = some s.clock → exec .polderFrameSend s = .next s) ∧
      (p.saveAt + 60000000000 ≤ s.clock → ∃ t, exec .polderSave s = .next t ∧ keeps t ∧ t.polder.saveAt = s.clock ∧
        ∀ k : Fin 4, t.polder.chans[k] = { p.chans[k] with saved := (p.chans[k]).energy }) ∧
      (s.clock < p.saveAt + 60000000000 → exec .polderSave s = .next s) ∧
      (p.cmds = [] → exec .polderCmdFullFrame s = .next s ∧ exec .polderCmdSlow s = .next s ∧ exec .polderCmdResend s = .next s) ∧
      (p.cmds = [1] → ∃ t, exec .polderCmdFullFrame s = .next t ∧ keeps t ∧ t.polder.cmds = [] ∧ t.polder.slow = false ∧ t.polder.seq = p.seq + 1 ∧
        t.polder.frame.isSome) ∧
      (p.cmds = [2] → exec .polderCmdSlow s = .next (s.updPolder fun p => { p with cmds := [], slow := true })) ∧
      (p.cmds = [3] → ∃ t, exec .polderCmdResend s = .next t ∧ keeps t ∧ t.polder.cmds = [] ∧ t.polder.slow = p.slow ∧ t.polder.seq = p.seq + 1 ∧
        t.polder.frame.isSome) ∧
      (∃ t, exec (.polderVpolDown saved) s = .next t ∧ keeps t ∧ t.polder.vpol = false ∧ t.polder.prog = false ∧ t.polder.frame = none ∧
        (saved = true → ∀ k : Fin 4, (t.polder.chans[k]).saved = (p.chans[k]).energy) ∧
        (saved = false → t.polder.incomplete = true ∧ ∀ k : Fin 4, (t.polder.chans[k]).saved = (p.chans[k]).saved))) ∧
    (s.fuses.polder = true → p.vpol = false → ∃ t, exec (.polderVpolUp true) s = .next t ∧ keeps t ∧ t.polder.vpol = true ∧
      ∀ k : Fin 4, (t.polder.chans[k]).energy = (p.chans[k]).saved ∧ (t.polder.chans[k]).cal = (p.chans[k]).cal) ∧
    (p.vpol = true → exec (.polderVpolUp true) s = .next s) ∧
    (p.frame = none → exec (.polderFrameRx true) s = .next s) ∧
    (p.frame = some f → windowRuns s = true → Memory.wf s = true →
      ((f.map (·.1)).Nodup → (∀ w ∈ f, 0x5800 ≤ w.1 ∧ w.1 < 0x5840) →
        ∃ t, exec (.polderFrameRx true) s = .next t ∧ (∀ w ∈ f, t.word w.1 = w.2) ∧ t.flag 0x0008 2 = true ∧ t.polder.frame = none ∧ t.polder.silent = false ∧
          t.polder.rxAt = s.clock ∧ t.cells = s.cells ∧ t.modes = s.modes) ∧
      ∃ t, exec (.polderFrameRx false) s = .next t ∧ t.polder.frame = none ∧ t.polder.cmds = p.cmds ++ [3] ∧ t.polder.rxAt = p.rxAt ∧ t.polder.silent = p.silent ∧
        (∀ a, a ≠ 0x5807 → t.word a = s.word a) ∧ t.cells = s.cells ∧
        t.faults.ring.head? = some ⟨0xB003, 0xFFFF, 0, s.deviceTime⟩) ∧
    (windowRuns s = true → p.silent = false → p.rxAt + 100000000 ≤ s.clock → exec .polderChannelSilent s = .next
      (record 0xB010 0xFFFF 0 (((s.setFlag 0x0008 2 false).updPolder fun p => { p with silent := true }).setFlag 0x5800 2 true))) ∧
    ((windowRuns s = false ∨ p.silent = true ∨ s.clock < p.rxAt + 100000000) → exec .polderChannelSilent s = .next s) ∧
    (let a := 0x5810 + 12 * ch.val + (if reg then 2 else 0)
     (coreMay s = false → exec (.polEnergyRead c rd ch reg) s = .next s) ∧
     (coreMay s = true → (s.core c).locked rd = false → blockAborts 21 s = false →
      ∃ t, exec (.polEnergyRead c rd ch reg) s = .next t ∧ (t.core c).g = ((s.core c).setReg rd (windowWord a s)).g ∧
        (reg = false → t.polder.high[ch] = (s.word (a + 1), (p.high[ch]).2)) ∧ (reg = true → t.polder.high[ch] = ((p.high[ch]).1, s.word (a + 1))) ∧
        t.words = s.words ∧ t.cells = s.cells ∧ t.faults = s.faults))

/-- R460 to R465: the legal port. A readout changes nothing of the polder; password P1 enters programming mode and three wrong ones lock it for an
hour; a calibration write is logged, counted and takes effect only unsealed with CALEN high; sealing stores the identification; polder time is set;
CALEN's edges; a sealed part whose identification differs enters fail. -/
def Obligations.PolderLegal : Prop :=
  ∀ (ch : Fin 4) (param : Fin 16) (val : Int) (cal : PolderCal) (password : Nat) (time : Word) (intact : Bool) (s : State),
    let p := s.polder
    let logged (code data : Nat) (t : State) : Prop := ∃ e, t.polder.log = e :: p.log ∧ e.code = code ∧ e.data = data % 65536
    let keeps (t : State) : Prop := t.words = s.words ∧ t.cells = s.cells ∧ t.faults = s.faults ∧ t.modes = s.modes ∧ t.fuses = s.fuses
    let energies (t : State) : Prop := ∀ k : Fin 4, (t.polder.chans[k]).energy = (p.chans[k]).energy
    let crc := (if intact then Config.polderCrc (calParams s) else Config.polderBadCrc (calParams s)) % 65536
    (polderOn s = true → exec .polderReadout s = .next (s.updPolder fun p => { p with readout := dataSet s })) ∧
    (polderOn s = true → progLocked s = true → exec (.polderProgEnter password) s = .next s ∧ exec .polderLockoutExpiry s = .next s) ∧
    (polderOn s = true → progLocked s = false →
      (password = p.p1 → exec (.polderProgEnter password) s = .next (s.updPolder fun p => { p with prog := true, wrong := 0 })) ∧
      (password ≠ p.p1 → p.wrong < 2 → exec (.polderProgEnter password) s = .next (s.updPolder fun p => { p with wrong := p.wrong + 1 })) ∧
      (password ≠ p.p1 → 2 ≤ p.wrong → p.log.length < 1024 → ∃ t, exec (.polderProgEnter password) s = .next t ∧ keeps t ∧ energies t ∧
        t.polder.prog = false ∧ t.polder.wrong = 0 ∧ t.polder.lockAt = some (polderTime s) ∧ logged 0x14 0 t) ∧
      (p.lockAt.isSome → exec .polderLockoutExpiry s = .next (s.updPolder fun p => { p with lockAt := none }))) ∧
    (calOpen s = false → exec (.polderCalWrite ch param val) s = .next s ∧ exec .polderSeal s = .next s) ∧
    (calOpen s = true → p.log.length < 1024 →
      let written (t : State) : Prop := keeps t ∧ t.polder.seals = p.seals + 1 ∧ logged 0x11 param.val t ∧
        ∀ k : Fin 4, k ≠ ch → t.polder.chans[k] = p.chans[k]
      (param.val < 9 → calValue param.val val (p.chans[ch]).cal = some cal →
        ∃ t, exec (.polderCalWrite ch param val) s = .next t ∧ written t ∧ t.polder.chans[ch] = { p.chans[ch] with cal := cal } ∧ t.polder.p1 = p.p1) ∧
      (param.val < 9 → calValue param.val val (p.chans[ch]).cal = none → exec (.polderCalWrite ch param val) s = .next s) ∧
      (param.val = 9 → 0 ≤ val → val < 100000000 → ∃ t, exec (.polderCalWrite ch param val) s = .next t ∧ written t ∧ t.polder.p1 = val.toNat ∧
        t.polder.chans[ch] = p.chans[ch]) ∧
      (param.val = 15 → ∃ t, exec (.polderCalWrite ch param val) s = .next t ∧ written t ∧
        t.polder.chans[ch] = { p.chans[ch] with energy := {} }) ∧
      ∃ t, exec .polderSeal s = .next t ∧ keeps t ∧ energies t ∧ t.polder.phase = .sealed ∧ t.polder.stored = t.polder.ident ∧
        t.polder.ident = Config.polderCrc (calParams s) % 65536 ∧ logged 0x12 p.seals t) ∧
    (polderOn s = true → p.prog = true → p.phase ≠ .fail → p.log.length < 1024 → ∃ t, exec (.polderTimeSet time) s = .next t ∧ keeps t ∧ energies t ∧
      polderTime t = time.toNat ∧ logged 0x13 (time - BitVec.ofNat 32 (polderTime s)).toNat t) ∧
    ((p.prog = false ∨ p.phase = .fail) → exec (.polderTimeSet time) s = .next s) ∧
    (polderOn s = true → p.calen = false → p.log.length < 1024 → ∃ t, exec .polderCalenRise s = .next t ∧ keeps t ∧ energies t ∧ t.polder.calen = true ∧
      t.polder.seals = p.seals + 1 ∧ logged 0x10 (match p.phase with | .unsealed => 0 | .sealed => 1 | .fail => 2) t) ∧
    (p.calen = true → exec .polderCalenRise s = .next s) ∧
    (s.fuses.polder = true → exec .polderCalenFall s = .next (s.updPolder fun p => { p with calen := false })) ∧
    (s.clock < p.identAt + 86400000000000 → exec (.polderIntegrityCheck intact) s = .next s) ∧
    (polderOn s = true → p.identAt + 86400000000000 ≤ s.clock →
      ((p.phase ≠ .sealed ∨ crc = p.stored) →
        exec (.polderIntegrityCheck intact) s = .next (s.updPolder fun p => { p with ident := crc, identAt := s.clock })) ∧
      (p.phase = .sealed → crc ≠ p.stored → p.log.length < 1024 → ∃ t, exec (.polderIntegrityCheck intact) s = .next t ∧ keeps t ∧ energies t ∧
        t.polder.phase = .fail ∧ t.polder.ident = crc ∧ t.polder.identAt = s.clock ∧ logged 0x30 0 t))

/-- R479 to R490, R497: a controller transfer starts on a free bus and its outcome is posted; the target window stores below RO_FROM and answers at
its pointer; write reports; notices and their retries; the stretch timeout, the recovery of a bus and a bus found free. -/
def Obligations.TwoWireBus : Prop :=
  ∀ (c : CoreId) (i : Fin 3) (val : Word) (o : TwOutcome) (b ptr : Byte) (pulses : Fin 10) (x : TwTransfer) (n : TwNotice) (first stop : Nat)
    (wide : Bool) (s : State),
    let u := s.tw[i]
    let w (off : Nat) := twAddr i off
    let kept (t : State) : Prop := t.cells = s.cells ∧ t.modes = s.modes ∧ t.fuses = s.fuses ∧ ∀ j : Fin 3, j ≠ i → t.tw[j] = s.tw[j]
    let unheard := anyHolds (224 + i.val) false s = false
    let asked : TwTransfer := ⟨bits val 16 7, bits val 8 6, bits val 0 6, bit val 30, true⟩
    (Writes c (w 4) s →
      (bit val 31 = false → exec (.twXfer c i val) s = .next s) ∧
      (bit val 31 = true → (u.xfer.isSome ∨ 32 < bits val 8 6 ∨ 32 < bits val 0 6) →
        exec (.twXfer c i val) s = .next ((record 0xC005 i.val 0 s).refused c (w 4))) ∧
      (bit val 31 = true → u.xfer = none → bits val 8 6 ≤ 32 → bits val 0 6 ≤ 32 → twController i s = true → twBusy i s = false →
        ∃ t, exec (.twXfer c i val) s = .next t ∧ t.tw[i].xfer = some asked ∧ t.flag (w 5) 28 = true ∧ t.field (w 5) 29 3 = 1 ∧
          ((bit val 30 = false ∨ bits val 8 6 ≠ 0) → t.tw[i].wrote = (List.range (bits val 0 6)).map fun k => twByte (w 8) k s) ∧ kept t ∧ t.faults = s.faults)) ∧
    (u.xfer = none → u.notice = none → exec (.twXferDone i o) s = .next s) ∧
    (u.xfer = some x → x.started = true → u.notice = none → unheard → Memory.wf s = true →
      let posted (result count : Nat) (t : State) : Prop := t.tw[i].xfer = none ∧ t.field (w 5) 29 3 = result ∧ t.field (w 5) 16 6 = count ∧ kept t ∧
        t.faults = s.faults
      (x.rlen ≤ 1 → x.wlen ≤ 32 →
        (∃ t, exec (.twXferDone i (.ok [b] true)) s = .next t ∧ posted 2 (x.wlen + x.rlen) t ∧ t.flag (w 5) 28 = false ∧
          (x.rlen = 1 → twByte (w 8) 0 t = b)) ∧
        (x.pec = true → x.rlen = 1 → ∃ t, exec (.twXferDone i (.ok [b] false)) s = .next t ∧ posted 7 (x.wlen + 1) t ∧ t.flag (w 5) 25 = true)) ∧
      (∃ t, exec (.twXferDone i (.nackAddr false)) s = .next t ∧ posted 3 0 t ∧ t.flag (w 5) 28 = false) ∧
      (∃ t, exec (.twXferDone i (.nackData 0)) s = .next t ∧ posted 4 0 t ∧ t.flag (w 5) 28 = false) ∧
      (∃ t, exec (.twXferDone i (.arbLost false 0)) s = .next t ∧ posted 5 0 t ∧ t.field (w 7) 16 16 = satInc 16 (s.field (w 7) 16 16)) ∧
      ∃ t, exec (.twXferDone i (.arbLostStop 0)) s = .next t ∧ t.tw[i].xfer = none ∧ t.field (w 5) 29 3 = 6 ∧ t.flag (w 5) 28 = true ∧
        t.faults.ring.head? = some ⟨0xC001, BitVec.ofNat 16 i.val, 0, s.deviceTime⟩) ∧
    (twBoots i s = false →
      (twTarget i s = false → exec (.twTargetWrite i [ptr, b] false) s = .next s ∧ exec (.twTargetRead i 1) s = .next s) ∧
      (twTarget i s = true → u.xfer = none → u.notice = none → Memory.wf s = true → anyHolds (227 + i.val) false s = false →
        (ptr.toNat < twWindow i s →
          ∃ t, exec (.twTargetWrite i [ptr, b] false) s = .next t ∧ kept t ∧ t.faults = s.faults ∧
            t.field (w 1) 16 8 = (ptr.toNat + 1) % twWindow i s ∧
            (ptr.toNat < s.field (w 1) 0 9 → twByte (w 0x40) ptr.toNat t = b) ∧
            (s.field (w 1) 0 9 ≤ ptr.toNat → ∀ k, twByte (w 0x40) k t = twByte (w 0x40) k s)) ∧
        ∃ t, exec (.twTargetRead i 1) s = .next t ∧ t.tw[i].sent = [twByte (w 0x40) (s.field (w 1) 16 8) s] ∧ kept t ∧
          t.field (w 1) 16 8 = (s.field (w 1) 16 8 + 1) % twWindow i s)) ∧
    (u.report = none → exec (.twReportSend i) s = .next s) ∧
    (s.blockOut 22 = false → u.report = some (first, stop, wide) → s.field 0x0409 0 8 ≠ 227 + i.val →
      (0 < s.credits (227 + i.val) 22 → exec (.twReportSend i) s = .next ((s.updTw i fun u => { u with report := none }).setQueue (227 + i.val)
        (s.queue (227 + i.val) ++ [⟨22, BitVec.ofNat 32 (2 ^ 31 + (if wide then 2 ^ 30 else 0) + first % 256 * 2 ^ 16 + (stop - first) % 512)⟩]))) ∧
      (s.credits (227 + i.val) 22 = 0 → exec (.twReportSend i) s = .next s)) ∧
    (Writes c (w 3) s →
      (bit val 16 = false → exec (.twNotice c i val) s = .next s) ∧
      (bit val 16 = true → (s.agreed.getLsbD 18 = false ∨ u.notice.isSome) →
        exec (.twNotice c i val) s = .next ((record 0xC005 i.val 0 s).refused c (w 3))) ∧
      (bit val 16 = true → s.agreed.getLsbD 18 = true → u.notice = none → u.xfer = none → twController i s = true → twBusy i s = false →
        ∃ t, exec (.twNotice c i val) s = .next t ∧ t.tw[i].notice = some ⟨bits val 0 16, 0, true, false⟩ ∧ t.flag (w 5) 26 = true ∧
          t.flag (w 5) 28 = true ∧ t.tw[i].wrote = [BitVec.ofNat 8 (2 * s.field (w 0) 8 7), BitVec.ofNat 8 (bits val 0 16),
            BitVec.ofNat 8 (bits val 0 16 / 256)] ∧ kept t ∧ t.faults = s.faults)) ∧
    (u.notice = none → exec (.twNoticeRetry i) s = .next s) ∧
    (u.notice = some n → n.retry = true → twBusy i s = false → twController i s = true → u.xfer = none → Memory.wf s = true →
      (s.clock < u.freeAt + 1000000 → exec (.twNoticeRetry i) s = .next s) ∧
      (u.freeAt + 1000000 ≤ s.clock →
        (3 ≤ n.tries → ∃ t, exec (.twNoticeRetry i) s = .next t ∧ t.tw[i].notice = none ∧ t.flag (w 5) 26 = false ∧ kept t ∧
          t.faults.ring.head? = some ⟨0xC003, BitVec.ofNat 16 i.val, 0, s.deviceTime⟩) ∧
        (n.tries < 3 → n.onBus = false → ∃ t, exec (.twNoticeRetry i) s = .next t ∧ kept t ∧ t.faults = s.faults ∧
          t.tw[i].notice = some { n with tries := n.tries + 1, retry := false, onBus := true }))) ∧
    ((twRuns i s = false ∨ s.flag (w 0) 28 = true) → exec (.stretchTimeout i) s = .next s) ∧
    (twRuns i s = true → s.flag (w 0) 28 = false →
      (u.xfer = none → u.notice = none → exec (.stretchTimeout i) s = .next (record 0xC002 i.val 0 s)) ∧
      (u.xfer = some x → x.started = true → u.notice = none → unheard → Memory.wf s = true → ∃ t, exec (.stretchTimeout i) s = .next t ∧
        t.tw[i].xfer = none ∧ t.field (w 5) 29 3 = 7 ∧ kept t ∧ (∀ k, twByte (w 0x40) k t = twByte (w 0x40) k s) ∧
        t.field (w 1) 16 8 = s.field (w 1) 16 8 ∧ t.faults.ring.head? = some ⟨0xC002, BitVec.ofNat 16 i.val, 0, s.deviceTime⟩)) ∧
    (Writes c (w 6) s → u.xfer = none → u.notice = none →
      (twController i s = false → exec (.twRecover c i none) s = .next s) ∧
      (twController i s = true → exec (.twRecover c i none) s = .next (record 0xC004 i.val 0 s) ∧
        exec (.twRecover c i (some pulses)) s = .next ((s.setFlag (w 5) 28 false).updTw i fun u => { u with freeAt := s.clock }))) ∧
    (twRuns i s = false → exec (.twBusFree i) s = .next s) ∧
    (twRuns i s = true → u.xfer = none → u.notice = none → Memory.wf s = true →
      (twBusy i s = true → exec (.twBusFree i) s = .next ((s.setFlag (w 5) 28 false).updTw i fun u => { u with freeAt := s.clock })) ∧
      (twBusy i s = false → exec (.twBusFree i) s = .next s))

/-- R534, R535 and R537: a write of FAULT_SEL copies the entry it names into FAULT_ENTRY0 to 3, and an entry written afterwards does not change the
copy; FAULT_CLEAR clears the record with its counters. -/
def Obligations.FaultRecordWords : Prop :=
  ∀ (c : CoreId) (index : Byte) (code : Nat) (unit data : Nat) (s : State),
    (Writes c 0x6403 s → ∃ t, exec (.faultSel c index) s = .next t ∧ t.field 0x6403 0 8 = index.toNat ∧ t.faults = s.faults ∧ t.cells = s.cells ∧
      (∀ a, (a < 0x6403 ∨ 0x6407 < a) → t.word a = s.word a) ∧
      (match s.faults.ring[(s.faults.head + 256 - index.toNat) % 256]? with
      | some e => t.word 0x6404 = e.code ++ e.unit ∧ t.word 0x6405 = e.data ∧ t.word 0x6407 ++ t.word 0x6406 = e.time
      | none => t.word 0x6404 = 0 ∧ t.word 0x6405 = 0 ∧ t.word 0x6406 = 0 ∧ t.word 0x6407 = 0) ∧
      ∀ a, (record code unit data t).word a = t.word a) ∧
    (Writes c 0x6408 s → ∃ t, exec (.faultClear c) s = .next t ∧ t.faults.ring = [] ∧ t.faults.count = 0 ∧ t.faults.head = 255 ∧
      t.faults.suppressed = 0 ∧ t.words = s.words ∧ t.cells = s.cells)
end

