-- ==== Sys2Proof/Laws/Store.lean ====
section
/-! SUPPORT. The sparse store in canonical form: what a read gives after a write, and that every operation keeps the form. Control words,
bank bytes and DRAM bytes all live in such stores. -/
namespace Sys2Proof.Machine

variable {α : Type}

/-! ### Reads after writes -/

/-- An entry whose key lies below every key of a canonical store is not in it. -/
theorem sget_below [DecidableEq α] (dflt : Nat → α) (l : List (Nat × α)) (b a : Nat) (h : swfFrom dflt (some b) l = true) (ha : a ≤ b) :
    sget dflt l a = dflt a := by
  induction l generalizing b with
  | nil => rfl
  | cons e r ih =>
    obtain ⟨k, v⟩ := e
    simp only [swfFrom, Bool.and_eq_true, decide_eq_true_eq] at h
    have : k ≠ a := by omega
    simp only [sget, this, if_false]
    exact ih k h.2 (by omega)

/-- A canonical store is canonical from any lower bound. -/
theorem swfFrom_none [DecidableEq α] (dflt : Nat → α) (l : List (Nat × α)) (b : Option Nat) (h : swfFrom dflt b l = true) :
    swfFrom dflt none l = true := by
  cases l with
  | nil => rfl
  | cons e r =>
    obtain ⟨k, v⟩ := e
    simp only [swfFrom, Bool.and_eq_true] at h ⊢
    exact ⟨⟨trivial, h.1.2⟩, h.2⟩

/-- A canonical store above one bound is canonical above a lower one. -/
theorem swfFrom_lower [DecidableEq α] (dflt : Nat → α) (l : List (Nat × α)) (b b' : Nat) (hb : b' ≤ b)
    (h : swfFrom dflt (some b) l = true) : swfFrom dflt (some b') l = true := by
  cases l with
  | nil => rfl
  | cons e r =>
    obtain ⟨k, v⟩ := e
    simp only [swfFrom, Bool.and_eq_true, decide_eq_true_eq] at h ⊢
    exact ⟨⟨by omega, h.1.2⟩, h.2⟩

/-- A write at a key is read back, in any store in canonical form. -/
theorem sget_sput_same [DecidableEq α] (dflt : Nat → α) (l : List (Nat × α)) (a : Nat) (v : α) (h : swf dflt l = true) :
    sget dflt (sput dflt l a v) a = v := by
  have key : ∀ (b : Option Nat), swfFrom dflt b l = true → sget dflt (sput dflt l a v) a = v := by
    induction l with
    | nil =>
      intro b _
      simp only [sput]
      split
      · rename_i e; simp [sget, e]
      · simp [sget]
    | cons e r ih =>
      obtain ⟨k, w⟩ := e
      intro b hb
      simp only [swfFrom, Bool.and_eq_true, decide_eq_true_eq] at hb
      simp only [sput]
      split
      · rename_i hk
        split
        · rename_i e
          have hne : k ≠ a := by omega
          simp only [sget, hne, if_false, e]
          exact sget_below dflt r k a hb.2 (by omega)
        · simp [sget]
      · split
        · rename_i e
          split
          · rename_i e'
            rw [e']; subst e
            exact sget_below dflt r a a hb.2 (Nat.le_refl a)
          · simp [sget]
        · rename_i h1 h2
          have hne : k ≠ a := by omega
          simp only [sget, hne, if_false]
          exact ih (swfFrom_none _ _ _ hb.2) (some k) hb.2
  exact key none h

/-- A write leaves every other key as it reads. -/
theorem sget_sput_ne [DecidableEq α] (dflt : Nat → α) (l : List (Nat × α)) (a b : Nat) (v : α) (hne : a ≠ b) :
    sget dflt (sput dflt l a v) b = sget dflt l b := by
  induction l with
  | nil =>
    simp only [sput]
    split
    · rfl
    · simp [sget, hne]
  | cons e r ih =>
    obtain ⟨k, w⟩ := e
    simp only [sput]
    split
    · split
      · rfl
      · simp [sget, hne]
    · split
      · rename_i e
        split
        · simp only [sget]
          rw [if_neg (by omega)]
        · subst e
          simp [sget, hne]
      · simp only [sget]
        split
        · rfl
        · exact ih

/-! ### The canonical form is kept -/

/-- A write above a bound keeps the form above it. -/
theorem swfFrom_sput [DecidableEq α] (dflt : Nat → α) (l : List (Nat × α)) (b : Option Nat) (a : Nat) (v : α)
    (h : swfFrom dflt b l = true) (ha : ∀ m, b = some m → m < a) : swfFrom dflt b (sput dflt l a v) = true := by
  have above : ∀ {b : Option Nat}, (∀ m, b = some m → m < a) → (match b with | none => true | some m => decide (m < a)) = true := by
    intro b hb
    cases b with
    | none => rfl
    | some m => simpa using hb m rfl
  induction l generalizing b with
  | nil =>
    simp only [sput]
    split
    · rfl
    · rename_i e
      simp only [swfFrom, Bool.and_eq_true, decide_eq_true_eq, and_true]
      exact ⟨above ha, e⟩
  | cons e r ih =>
    obtain ⟨k, w⟩ := e
    have hb := h
    simp only [swfFrom, Bool.and_eq_true, decide_eq_true_eq] at hb
    simp only [sput]
    split
    · rename_i hk
      split
      · exact h
      · rename_i e
        simp only [swfFrom, Bool.and_eq_true, decide_eq_true_eq]
        exact ⟨⟨above ha, e⟩, ⟨hk, hb.1.2⟩, hb.2⟩
    · split
      · rename_i e
        split
        · cases b with
          | none => exact swfFrom_none _ _ _ hb.2
          | some m => exact swfFrom_lower _ _ k m (by have := ha m rfl; omega) hb.2
        · rename_i e'
          simp only [swfFrom, Bool.and_eq_true, decide_eq_true_eq]
          exact ⟨⟨above ha, e'⟩, by rw [e]; exact hb.2⟩
      · rename_i h1 h2
        simp only [swfFrom, Bool.and_eq_true, decide_eq_true_eq]
        refine ⟨hb.1, ih (some k) hb.2 ?_⟩
        intro m hm
        cases hm
        omega

/-- A write keeps the canonical form. -/
theorem swf_sput [DecidableEq α] (dflt : Nat → α) (l : List (Nat × α)) (a : Nat) (v : α) (h : swf dflt l = true) :
    swf dflt (sput dflt l a v) = true := swfFrom_sput dflt l none a v h (by intro m hm; cases hm)

/-- Several writes keep the canonical form. -/
theorem swf_sputs [DecidableEq α] (dflt : Nat → α) (vs : List α) (l : List (Nat × α)) (a : Nat) (h : swf dflt l = true) :
    swf dflt (sputs dflt l a vs) = true := by
  induction vs generalizing l a with
  | nil => exact h
  | cons v vs ih => exact ih _ _ (swf_sput dflt l a v h)

/-- Taking entries out keeps the form above a bound. -/
theorem swfFrom_filter [DecidableEq α] (dflt : Nat → α) (p : Nat × α → Bool) (l : List (Nat × α)) (b : Option Nat)
    (h : swfFrom dflt b l = true) : swfFrom dflt b (l.filter p) = true := by
  induction l generalizing b with
  | nil => exact h
  | cons e r ih =>
    obtain ⟨k, v⟩ := e
    simp only [swfFrom, Bool.and_eq_true] at h
    simp only [List.filter]
    split
    · simp only [swfFrom, Bool.and_eq_true]
      exact ⟨h.1, ih (some k) h.2⟩
    · have := ih (some k) h.2
      cases b with
      | none => exact swfFrom_none _ _ _ this
      | some m => exact swfFrom_lower _ _ k m (by have := h.1.1; simp at this; omega) this

/-- Clearing a range keeps the canonical form. -/
theorem swf_sclear [DecidableEq α] (dflt : Nat → α) (l : List (Nat × α)) (lo hi : Nat) (h : swf dflt l = true) :
    swf dflt (sclear l lo hi) = true := swfFrom_filter dflt _ l none h

/-- A cleared key reads as unlisted. -/
theorem sget_sclear_in (dflt : Nat → α) (l : List (Nat × α)) (lo hi a : Nat) (h1 : lo ≤ a) (h2 : a < hi) :
    sget dflt (sclear l lo hi) a = dflt a := by
  induction l with
  | nil => rfl
  | cons e r ih =>
    obtain ⟨k, v⟩ := e
    simp only [sclear, List.filter]
    split
    · rename_i h
      have : k ≠ a := by simp at h; omega
      simp only [sget, this, if_false]
      exact ih
    · exact ih

/-- A key outside the cleared range reads as before. -/
theorem sget_sclear_out (dflt : Nat → α) (l : List (Nat × α)) (lo hi a : Nat) (h : a < lo ∨ hi ≤ a) :
    sget dflt (sclear l lo hi) a = sget dflt l a := by
  induction l with
  | nil => rfl
  | cons e r ih =>
    obtain ⟨k, v⟩ := e
    simp only [sclear, List.filter]
    split
    · simp only [sget]
      split
      · rfl
      · exact ih
    · rename_i h'
      have : k ≠ a := by simp at h'; omega
      simp only [sget, this, if_false]
      exact ih

/-- A run of writes leaves every key outside it as it reads. -/
theorem sget_sputs_out [DecidableEq α] (dflt : Nat → α) (vs : List α) (l : List (Nat × α)) (a b : Nat) (h : b < a ∨ a + vs.length ≤ b) :
    sget dflt (sputs dflt l a vs) b = sget dflt l b := by
  induction vs generalizing l a with
  | nil => rfl
  | cons v vs ih =>
    simp only [List.length_cons] at h
    simp only [sputs]
    rw [ih _ _ (by omega), sget_sput_ne _ _ _ _ _ (by omega)]

/-- A run of writes is read back. -/
theorem sget_sputs_in [DecidableEq α] (dflt : Nat → α) (vs : List α) (l : List (Nat × α)) (a i : Nat) (h : swf dflt l = true)
    (hi : i < vs.length) : sget dflt (sputs dflt l a vs) (a + i) = vs[i] := by
  induction vs generalizing l a i with
  | nil => simp at hi
  | cons v vs ih =>
    simp only [sputs]
    cases i with
    | zero =>
      rw [sget_sputs_out _ _ _ _ _ (by omega)]
      simpa using sget_sput_same dflt l a v h
    | succ j =>
      have := ih (sput dflt l a v) (a + 1) j (swf_sput dflt l a v h) (by simpa using hi)
      simpa [Nat.add_assoc, Nat.add_comm 1 j] using this

/-! ### One place of a vector -/

/-- The place a change names holds the changed value. -/
@[simp] theorem modAt_same {n : Nat} (v : Vector α n) (i : Fin n) (f : α → α) : (modAt v i f)[(i : Nat)] = f v[(i : Nat)] := by
  simp [modAt]

/-- Every other place is as it was. -/
theorem modAt_ne {n : Nat} (v : Vector α n) (i j : Fin n) (f : α → α) (h : i ≠ j) : (modAt v i f)[(j : Nat)] = v[(j : Nat)] := by
  have : (i : Nat) ≠ j := fun e => h (Fin.ext e)
  simp [modAt, Vector.getElem_set_ne, this]

end Sys2Proof.Machine
end

