-- ==== Sys2Proof/Laws/Cores.lean ====
section
/-! SUPPORT. The frame of an instruction: what a core does that runs its next instruction (R76, R112, R128), said once for every
instruction. -/
namespace Sys2Proof.Machine

/-! ### One core -/

/-- A changed core reads as changed. -/
@[simp] theorem core_updCore (s : State) (c : CoreId) (f : Core → Core) : (s.updCore c f).core c = f (s.core c) := by
  simp [State.updCore, State.core]

/-- A change of one core leaves the others. -/
theorem core_updCore_ne (s : State) (c d : CoreId) (f : Core → Core) (h : c ≠ d) : (s.updCore c f).core d = s.core d := by
  simp only [State.updCore, State.core]
  exact modAt_ne _ _ _ _ h

/-- Two changes of one core are one. -/
@[simp] theorem updCore_updCore (s : State) (c : CoreId) (f g : Core → Core) :
    (s.updCore c f).updCore c g = s.updCore c fun k => g (f k) := by
  simp [State.updCore, modAt, Vector.set_set]

/-- A change of a core is what it makes of the core as it stands. -/
theorem updCore_congr (s : State) (c : CoreId) (f g : Core → Core) (h : f (s.core c) = g (s.core c)) : s.updCore c f = s.updCore c g := by
  unfold State.updCore modAt
  rw [show f s.cores[c] = g s.cores[c] from h]

/-- A register written reads as written, but G0 (Table 4.1). -/
theorem reg_setReg_same (k : Core) (r : Reg) (v : Word) (h : r ≠ 0) : (k.setReg r v).reg r = v := by
  simp [Core.reg, Core.setReg, h]

/-- A write of G0 is ignored. -/
@[simp] theorem setReg_zero (k : Core) (v : Word) : k.setReg 0 v = k := rfl

/-- G0 reads 0. -/
@[simp] theorem reg_zero (k : Core) : k.reg 0 = 0 := rfl

/-- A write leaves the other registers. -/
theorem reg_setReg_ne (k : Core) (r q : Reg) (v : Word) (h : r ≠ q) : (k.setReg r v).reg q = k.reg q := by
  simp only [Core.reg, Core.setReg]
  have hv : (r : Nat) ≠ q := fun e => h (Fin.ext e)
  split
  · rfl
  · split
    · rfl
    · simp [Vector.getElem_set_ne, hv]

/-- What a register write leaves of a core. -/
@[simp] theorem setReg_step (k : Core) (r : Reg) (v : Word) : (k.setReg r v).step = k.step := by unfold Core.setReg; split <;> rfl
@[simp] theorem setReg_pc (k : Core) (r : Reg) (v : Word) : (k.setReg r v).pc = k.pc := by unfold Core.setReg; split <;> rfl
@[simp] theorem setReg_f (k : Core) (r : Reg) (v : Word) : (k.setReg r v).f = k.f := by unfold Core.setReg; split <;> rfl
@[simp] theorem setReg_t (k : Core) (r : Reg) (v : Word) : (k.setReg r v).t = k.t := by unfold Core.setReg; split <;> rfl
@[simp] theorem setReg_status (k : Core) (r : Reg) (v : Word) : (k.setReg r v).status = k.status := by unfold Core.setReg; split <;> rfl
@[simp] theorem setReg_csRun (k : Core) (r : Reg) (v : Word) : (k.setReg r v).csRun = k.csRun := by unfold Core.setReg; split <;> rfl
@[simp] theorem setPair_step (k : Core) (r : Reg) (v : DWord) : (k.setPair r v).step = k.step := by simp [Core.setPair]
@[simp] theorem setPair_pc (k : Core) (r : Reg) (v : DWord) : (k.setPair r v).pc = k.pc := by simp [Core.setPair]
@[simp] theorem setPair_f (k : Core) (r : Reg) (v : DWord) : (k.setPair r v).f = k.f := by simp [Core.setPair]

/-! ### The fetch and the frame -/

/-- A fetch that succeeds changes nothing (R76, R259). -/
theorem fetch_ok (c : CoreId) (s : State) (h1 : s.owns c (s.core c).pc.toNat = true) (h2 : s.parityError (s.core c).pc.toNat 4 = none) :
    fetch c s = (.ok, s) := by
  simp [fetch, bankRead, h1, h2]

/-- A core without a single step goes on. -/
theorem stepped_off (c : CoreId) (s : State) (h : (s.core c).step = false) : stepped c s = s := by
  simp [stepped, onlyIf, h]

/-- An instruction of a core that runs has its effect. -/
theorem plain_runs (c : CoreId) (uses : List Reg) (w : Word) (body : State → State) (s : State) (h : Runs c uses s) :
    plain c false uses w body s = stepped c (body (s.updCore c fun k => { k with entryWait := false })) := by
  obtain ⟨h1, h2, h3, h4, h5, h6⟩ := h
  have hu : uses.any (s.core c).locked = false := by
    rw [List.any_eq_false]
    intro r hr
    simp [h6 r hr]
  simp [plain, instr, h1, h2, fetch_ok c s h4 h5, hu]

/-- An instruction that only changes its core and goes on at the next word. -/
theorem plain_finish (c : CoreId) (uses : List Reg) (w : Word) (f : Core → Core) (s : State) (h : Runs c uses s)
    (hf : (f { s.core c with entryWait := false }).step = false) :
    plain c false uses w (finish c f) s = s.updCore c fun k => (f { k with entryWait := false }).next := by
  rw [plain_runs c uses w _ s h]
  simp only [finish, updCore_updCore]
  rw [stepped_off]
  simp [Core.next, hf]

/-- A wrong encoding traps ILLEGAL with the word (R112, R133). -/
theorem plain_illegal (c : CoreId) (uses : List Reg) (w : Word) (body : State → State) (s : State)
    (h1 : (s.core c).status = .running) (h2 : (s.core c).csRun = []) (h4 : s.owns c (s.core c).pc.toNat = true)
    (h5 : s.parityError (s.core c).pc.toNat 4 = none) :
    plain c true uses w body s = stepped c (syncTrap c 1 (s.core c).pc w 0 s) := by
  simp [plain, instr, h1, h2, fetch_ok c s h4 h5]

end Sys2Proof.Machine
end

