-- ==== Sys2Proof/Laws/State.lean ====
section
/-! SUPPORT. What each update of one part of State leaves as it was: one lemma for each field and for each shared reading, all true by
computation, so that no later proof unfolds a record update. Generated from the list of State's fields and of its updates. -/
set_option Elab.async false

namespace Sys2Proof.Machine

variable (s : State) (a lo hi n v i x y z code unit data : Nat) (w : Word) (b : Bool) (bs : Bytes) (c e : CoreId) (bank : BankId)
  (blk : Fin 25) (k3 : Fin 3) (k8 : Fin 8) (k24 : Fin 24) (d d2 : Fin 2) (ax : AxisId) (ch ch2 : Fin 64)
  (fCore : Core → Core) (fBank : Bank → Bank) (fSec : Sec → Sec) (fSession : Session → Session) (fModes : Modes → Modes)
  (fDie : EdgeDie → EdgeDie) (fMach : MachAxis → MachAxis) (fBrake : Brake → Brake) (fGate : GateAxis → GateAxis) (fAxis : Axis → Axis)
  (fSlot : Slot → Slot) (fTrace : TraceCh → TraceCh) (fChan : DramChan → DramChan) (fPanel : Panel → Panel) (fPSlot : PanelSlot → PanelSlot)
  (fLed : LedCh → LedCh) (fLedDie : LedDie → LedDie) (fNet : Net → Net) (fEgress : Egress → Egress) (fTime : TimeServo → TimeServo)
  (fHol : Holros → Holros) (fHolPort : HolPort → HolPort) (fPolder : Polder → Polder) (fPol : PolderCh → PolderCh) (fTw : TwoWire → TwoWire)

/-! ### setWord -/

@[simp] theorem setWord_pending : (s.setWord a w).pending = s.pending := rfl
@[simp] theorem setWord_clock : (s.setWord a w).clock = s.clock := rfl
@[simp] theorem setWord_free : (s.setWord a w).free = s.free := rfl
@[simp] theorem setWord_sets : (s.setWord a w).sets = s.sets := rfl
@[simp] theorem setWord_deviceTime : (s.setWord a w).deviceTime = s.deviceTime := rfl
@[simp] theorem setWord_fuses : (s.setWord a w).fuses = s.fuses := rfl
@[simp] theorem setWord_agreed : (s.setWord a w).agreed = s.agreed := rfl
@[simp] theorem setWord_cores : (s.setWord a w).cores = s.cores := rfl
@[simp] theorem setWord_queues : (s.setWord a w).queues = s.queues := rfl
@[simp] theorem setWord_waiting : (s.setWord a w).waiting = s.waiting := rfl
@[simp] theorem setWord_assembly : (s.setWord a w).assembly = s.assembly := rfl
@[simp] theorem setWord_orderTurn : (s.setWord a w).orderTurn = s.orderTurn := rfl
@[simp] theorem setWord_tokens : (s.setWord a w).tokens = s.tokens := rfl
@[simp] theorem setWord_orders : (s.setWord a w).orders = s.orders := rfl
@[simp] theorem setWord_accepted : (s.setWord a w).accepted = s.accepted := rfl
@[simp] theorem setWord_delivered : (s.setWord a w).delivered = s.delivered := rfl
@[simp] theorem setWord_tacks : (s.setWord a w).tacks = s.tacks := rfl
@[simp] theorem setWord_fired : (s.setWord a w).fired = s.fired := rfl
@[simp] theorem setWord_launches : (s.setWord a w).launches = s.launches := rfl
@[simp] theorem setWord_banks : (s.setWord a w).banks = s.banks := rfl
@[simp] theorem setWord_cells : (s.setWord a w).cells = s.cells := rfl
@[simp] theorem setWord_badParity : (s.setWord a w).badParity = s.badParity := rfl
@[simp] theorem setWord_modes : (s.setWord a w).modes = s.modes := rfl
@[simp] theorem setWord_dies : (s.setWord a w).dies = s.dies := rfl
@[simp] theorem setWord_blocks : (s.setWord a w).blocks = s.blocks := rfl
@[simp] theorem setWord_clockLost : (s.setWord a w).clockLost = s.clockLost := rfl
@[simp] theorem setWord_clockSaid : (s.setWord a w).clockSaid = s.clockSaid := rfl
@[simp] theorem setWord_clockTold : (s.setWord a w).clockTold = s.clockTold := rfl
@[simp] theorem setWord_byClock : (s.setWord a w).byClock = s.byClock := rfl
@[simp] theorem setWord_readmit : (s.setWord a w).readmit = s.readmit := rfl
@[simp] theorem setWord_miscount : (s.setWord a w).miscount = s.miscount := rfl
@[simp] theorem setWord_probeAt : (s.setWord a w).probeAt = s.probeAt := rfl
@[simp] theorem setWord_mach : (s.setWord a w).mach = s.mach := rfl
@[simp] theorem setWord_gate : (s.setWord a w).gate = s.gate := rfl
@[simp] theorem setWord_axes : (s.setWord a w).axes = s.axes := rfl
@[simp] theorem setWord_loop : (s.setWord a w).loop = s.loop := rfl
@[simp] theorem setWord_trace : (s.setWord a w).trace = s.trace := rfl
@[simp] theorem setWord_dram : (s.setWord a w).dram = s.dram := rfl
@[simp] theorem setWord_panel : (s.setWord a w).panel = s.panel := rfl
@[simp] theorem setWord_led : (s.setWord a w).led = s.led := rfl
@[simp] theorem setWord_net : (s.setWord a w).net = s.net := rfl
@[simp] theorem setWord_time : (s.setWord a w).time = s.time := rfl
@[simp] theorem setWord_hol : (s.setWord a w).hol = s.hol := rfl
@[simp] theorem setWord_sec : (s.setWord a w).sec = s.sec := rfl
@[simp] theorem setWord_polder : (s.setWord a w).polder = s.polder := rfl
@[simp] theorem setWord_tw : (s.setWord a w).tw = s.tw := rfl
@[simp] theorem setWord_merged : (s.setWord a w).merged = s.merged := rfl
@[simp] theorem setWord_faults : (s.setWord a w).faults = s.faults := rfl
@[simp] theorem setWord_core : (s.setWord a w).core e = s.core e := rfl
@[simp] theorem setWord_byteAt : (s.setWord a w).byteAt x = s.byteAt x := rfl
@[simp] theorem setWord_chan : (s.setWord a w).chan d2 = s.chan d2 := rfl
@[simp] theorem setWord_ledCh : (s.setWord a w).ledCh ch2 = s.ledCh ch2 := rfl
@[simp] theorem setWord_blockOut : (s.setWord a w).blockOut blk = s.blockOut blk := rfl
@[simp] theorem setWord_feature : (s.setWord a w).feature x = s.feature x := rfl
@[simp] theorem setWord_queue : (s.setWord a w).queue x = s.queue x := by unfold State.queue; cases queueIx x <;> rfl
@[simp] theorem setWord_freeVal : (s.setWord a w).freeVal = s.freeVal := rfl

/-! ### setField -/

@[simp] theorem setField_pending : (s.setField a lo n v).pending = s.pending := rfl
@[simp] theorem setField_clock : (s.setField a lo n v).clock = s.clock := rfl
@[simp] theorem setField_free : (s.setField a lo n v).free = s.free := rfl
@[simp] theorem setField_sets : (s.setField a lo n v).sets = s.sets := rfl
@[simp] theorem setField_deviceTime : (s.setField a lo n v).deviceTime = s.deviceTime := rfl
@[simp] theorem setField_fuses : (s.setField a lo n v).fuses = s.fuses := rfl
@[simp] theorem setField_agreed : (s.setField a lo n v).agreed = s.agreed := rfl
@[simp] theorem setField_cores : (s.setField a lo n v).cores = s.cores := rfl
@[simp] theorem setField_queues : (s.setField a lo n v).queues = s.queues := rfl
@[simp] theorem setField_waiting : (s.setField a lo n v).waiting = s.waiting := rfl
@[simp] theorem setField_assembly : (s.setField a lo n v).assembly = s.assembly := rfl
@[simp] theorem setField_orderTurn : (s.setField a lo n v).orderTurn = s.orderTurn := rfl
@[simp] theorem setField_tokens : (s.setField a lo n v).tokens = s.tokens := rfl
@[simp] theorem setField_orders : (s.setField a lo n v).orders = s.orders := rfl
@[simp] theorem setField_accepted : (s.setField a lo n v).accepted = s.accepted := rfl
@[simp] theorem setField_delivered : (s.setField a lo n v).delivered = s.delivered := rfl
@[simp] theorem setField_tacks : (s.setField a lo n v).tacks = s.tacks := rfl
@[simp] theorem setField_fired : (s.setField a lo n v).fired = s.fired := rfl
@[simp] theorem setField_launches : (s.setField a lo n v).launches = s.launches := rfl
@[simp] theorem setField_banks : (s.setField a lo n v).banks = s.banks := rfl
@[simp] theorem setField_cells : (s.setField a lo n v).cells = s.cells := rfl
@[simp] theorem setField_badParity : (s.setField a lo n v).badParity = s.badParity := rfl
@[simp] theorem setField_modes : (s.setField a lo n v).modes = s.modes := rfl
@[simp] theorem setField_dies : (s.setField a lo n v).dies = s.dies := rfl
@[simp] theorem setField_blocks : (s.setField a lo n v).blocks = s.blocks := rfl
@[simp] theorem setField_clockLost : (s.setField a lo n v).clockLost = s.clockLost := rfl
@[simp] theorem setField_clockSaid : (s.setField a lo n v).clockSaid = s.clockSaid := rfl
@[simp] theorem setField_clockTold : (s.setField a lo n v).clockTold = s.clockTold := rfl
@[simp] theorem setField_byClock : (s.setField a lo n v).byClock = s.byClock := rfl
@[simp] theorem setField_readmit : (s.setField a lo n v).readmit = s.readmit := rfl
@[simp] theorem setField_miscount : (s.setField a lo n v).miscount = s.miscount := rfl
@[simp] theorem setField_probeAt : (s.setField a lo n v).probeAt = s.probeAt := rfl
@[simp] theorem setField_mach : (s.setField a lo n v).mach = s.mach := rfl
@[simp] theorem setField_gate : (s.setField a lo n v).gate = s.gate := rfl
@[simp] theorem setField_axes : (s.setField a lo n v).axes = s.axes := rfl
@[simp] theorem setField_loop : (s.setField a lo n v).loop = s.loop := rfl
@[simp] theorem setField_trace : (s.setField a lo n v).trace = s.trace := rfl
@[simp] theorem setField_dram : (s.setField a lo n v).dram = s.dram := rfl
@[simp] theorem setField_panel : (s.setField a lo n v).panel = s.panel := rfl
@[simp] theorem setField_led : (s.setField a lo n v).led = s.led := rfl
@[simp] theorem setField_net : (s.setField a lo n v).net = s.net := rfl
@[simp] theorem setField_time : (s.setField a lo n v).time = s.time := rfl
@[simp] theorem setField_hol : (s.setField a lo n v).hol = s.hol := rfl
@[simp] theorem setField_sec : (s.setField a lo n v).sec = s.sec := rfl
@[simp] theorem setField_polder : (s.setField a lo n v).polder = s.polder := rfl
@[simp] theorem setField_tw : (s.setField a lo n v).tw = s.tw := rfl
@[simp] theorem setField_merged : (s.setField a lo n v).merged = s.merged := rfl
@[simp] theorem setField_faults : (s.setField a lo n v).faults = s.faults := rfl
@[simp] theorem setField_core : (s.setField a lo n v).core e = s.core e := rfl
@[simp] theorem setField_byteAt : (s.setField a lo n v).byteAt x = s.byteAt x := rfl
@[simp] theorem setField_chan : (s.setField a lo n v).chan d2 = s.chan d2 := rfl
@[simp] theorem setField_ledCh : (s.setField a lo n v).ledCh ch2 = s.ledCh ch2 := rfl
@[simp] theorem setField_blockOut : (s.setField a lo n v).blockOut blk = s.blockOut blk := rfl
@[simp] theorem setField_feature : (s.setField a lo n v).feature x = s.feature x := rfl
@[simp] theorem setField_queue : (s.setField a lo n v).queue x = s.queue x := by unfold State.queue; cases queueIx x <;> rfl
@[simp] theorem setField_freeVal : (s.setField a lo n v).freeVal = s.freeVal := rfl

/-! ### setFlag -/

@[simp] theorem setFlag_pending : (s.setFlag a i b).pending = s.pending := rfl
@[simp] theorem setFlag_clock : (s.setFlag a i b).clock = s.clock := rfl
@[simp] theorem setFlag_free : (s.setFlag a i b).free = s.free := rfl
@[simp] theorem setFlag_sets : (s.setFlag a i b).sets = s.sets := rfl
@[simp] theorem setFlag_deviceTime : (s.setFlag a i b).deviceTime = s.deviceTime := rfl
@[simp] theorem setFlag_fuses : (s.setFlag a i b).fuses = s.fuses := rfl
@[simp] theorem setFlag_agreed : (s.setFlag a i b).agreed = s.agreed := rfl
@[simp] theorem setFlag_cores : (s.setFlag a i b).cores = s.cores := rfl
@[simp] theorem setFlag_queues : (s.setFlag a i b).queues = s.queues := rfl
@[simp] theorem setFlag_waiting : (s.setFlag a i b).waiting = s.waiting := rfl
@[simp] theorem setFlag_assembly : (s.setFlag a i b).assembly = s.assembly := rfl
@[simp] theorem setFlag_orderTurn : (s.setFlag a i b).orderTurn = s.orderTurn := rfl
@[simp] theorem setFlag_tokens : (s.setFlag a i b).tokens = s.tokens := rfl
@[simp] theorem setFlag_orders : (s.setFlag a i b).orders = s.orders := rfl
@[simp] theorem setFlag_accepted : (s.setFlag a i b).accepted = s.accepted := rfl
@[simp] theorem setFlag_delivered : (s.setFlag a i b).delivered = s.delivered := rfl
@[simp] theorem setFlag_tacks : (s.setFlag a i b).tacks = s.tacks := rfl
@[simp] theorem setFlag_fired : (s.setFlag a i b).fired = s.fired := rfl
@[simp] theorem setFlag_launches : (s.setFlag a i b).launches = s.launches := rfl
@[simp] theorem setFlag_banks : (s.setFlag a i b).banks = s.banks := rfl
@[simp] theorem setFlag_cells : (s.setFlag a i b).cells = s.cells := rfl
@[simp] theorem setFlag_badParity : (s.setFlag a i b).badParity = s.badParity := rfl
@[simp] theorem setFlag_modes : (s.setFlag a i b).modes = s.modes := rfl
@[simp] theorem setFlag_dies : (s.setFlag a i b).dies = s.dies := rfl
@[simp] theorem setFlag_blocks : (s.setFlag a i b).blocks = s.blocks := rfl
@[simp] theorem setFlag_clockLost : (s.setFlag a i b).clockLost = s.clockLost := rfl
@[simp] theorem setFlag_clockSaid : (s.setFlag a i b).clockSaid = s.clockSaid := rfl
@[simp] theorem setFlag_clockTold : (s.setFlag a i b).clockTold = s.clockTold := rfl
@[simp] theorem setFlag_byClock : (s.setFlag a i b).byClock = s.byClock := rfl
@[simp] theorem setFlag_readmit : (s.setFlag a i b).readmit = s.readmit := rfl
@[simp] theorem setFlag_miscount : (s.setFlag a i b).miscount = s.miscount := rfl
@[simp] theorem setFlag_probeAt : (s.setFlag a i b).probeAt = s.probeAt := rfl
@[simp] theorem setFlag_mach : (s.setFlag a i b).mach = s.mach := rfl
@[simp] theorem setFlag_gate : (s.setFlag a i b).gate = s.gate := rfl
@[simp] theorem setFlag_axes : (s.setFlag a i b).axes = s.axes := rfl
@[simp] theorem setFlag_loop : (s.setFlag a i b).loop = s.loop := rfl
@[simp] theorem setFlag_trace : (s.setFlag a i b).trace = s.trace := rfl
@[simp] theorem setFlag_dram : (s.setFlag a i b).dram = s.dram := rfl
@[simp] theorem setFlag_panel : (s.setFlag a i b).panel = s.panel := rfl
@[simp] theorem setFlag_led : (s.setFlag a i b).led = s.led := rfl
@[simp] theorem setFlag_net : (s.setFlag a i b).net = s.net := rfl
@[simp] theorem setFlag_time : (s.setFlag a i b).time = s.time := rfl
@[simp] theorem setFlag_hol : (s.setFlag a i b).hol = s.hol := rfl
@[simp] theorem setFlag_sec : (s.setFlag a i b).sec = s.sec := rfl
@[simp] theorem setFlag_polder : (s.setFlag a i b).polder = s.polder := rfl
@[simp] theorem setFlag_tw : (s.setFlag a i b).tw = s.tw := rfl
@[simp] theorem setFlag_merged : (s.setFlag a i b).merged = s.merged := rfl
@[simp] theorem setFlag_faults : (s.setFlag a i b).faults = s.faults := rfl
@[simp] theorem setFlag_core : (s.setFlag a i b).core e = s.core e := rfl
@[simp] theorem setFlag_byteAt : (s.setFlag a i b).byteAt x = s.byteAt x := rfl
@[simp] theorem setFlag_chan : (s.setFlag a i b).chan d2 = s.chan d2 := rfl
@[simp] theorem setFlag_ledCh : (s.setFlag a i b).ledCh ch2 = s.ledCh ch2 := rfl
@[simp] theorem setFlag_blockOut : (s.setFlag a i b).blockOut blk = s.blockOut blk := rfl
@[simp] theorem setFlag_feature : (s.setFlag a i b).feature x = s.feature x := rfl
@[simp] theorem setFlag_queue : (s.setFlag a i b).queue x = s.queue x := by unfold State.queue; cases queueIx x <;> rfl
@[simp] theorem setFlag_freeVal : (s.setFlag a i b).freeVal = s.freeVal := rfl

/-! ### latch -/

@[simp] theorem latch_pending : (s.latch a i).pending = s.pending := rfl
@[simp] theorem latch_clock : (s.latch a i).clock = s.clock := rfl
@[simp] theorem latch_free : (s.latch a i).free = s.free := rfl
@[simp] theorem latch_deviceTime : (s.latch a i).deviceTime = s.deviceTime := rfl
@[simp] theorem latch_fuses : (s.latch a i).fuses = s.fuses := rfl
@[simp] theorem latch_agreed : (s.latch a i).agreed = s.agreed := rfl
@[simp] theorem latch_cores : (s.latch a i).cores = s.cores := rfl
@[simp] theorem latch_queues : (s.latch a i).queues = s.queues := rfl
@[simp] theorem latch_waiting : (s.latch a i).waiting = s.waiting := rfl
@[simp] theorem latch_assembly : (s.latch a i).assembly = s.assembly := rfl
@[simp] theorem latch_orderTurn : (s.latch a i).orderTurn = s.orderTurn := rfl
@[simp] theorem latch_tokens : (s.latch a i).tokens = s.tokens := rfl
@[simp] theorem latch_orders : (s.latch a i).orders = s.orders := rfl
@[simp] theorem latch_accepted : (s.latch a i).accepted = s.accepted := rfl
@[simp] theorem latch_delivered : (s.latch a i).delivered = s.delivered := rfl
@[simp] theorem latch_tacks : (s.latch a i).tacks = s.tacks := rfl
@[simp] theorem latch_fired : (s.latch a i).fired = s.fired := rfl
@[simp] theorem latch_launches : (s.latch a i).launches = s.launches := rfl
@[simp] theorem latch_banks : (s.latch a i).banks = s.banks := rfl
@[simp] theorem latch_cells : (s.latch a i).cells = s.cells := rfl
@[simp] theorem latch_badParity : (s.latch a i).badParity = s.badParity := rfl
@[simp] theorem latch_modes : (s.latch a i).modes = s.modes := rfl
@[simp] theorem latch_dies : (s.latch a i).dies = s.dies := rfl
@[simp] theorem latch_blocks : (s.latch a i).blocks = s.blocks := rfl
@[simp] theorem latch_clockLost : (s.latch a i).clockLost = s.clockLost := rfl
@[simp] theorem latch_clockSaid : (s.latch a i).clockSaid = s.clockSaid := rfl
@[simp] theorem latch_clockTold : (s.latch a i).clockTold = s.clockTold := rfl
@[simp] theorem latch_byClock : (s.latch a i).byClock = s.byClock := rfl
@[simp] theorem latch_readmit : (s.latch a i).readmit = s.readmit := rfl
@[simp] theorem latch_miscount : (s.latch a i).miscount = s.miscount := rfl
@[simp] theorem latch_probeAt : (s.latch a i).probeAt = s.probeAt := rfl
@[simp] theorem latch_mach : (s.latch a i).mach = s.mach := rfl
@[simp] theorem latch_gate : (s.latch a i).gate = s.gate := rfl
@[simp] theorem latch_axes : (s.latch a i).axes = s.axes := rfl
@[simp] theorem latch_loop : (s.latch a i).loop = s.loop := rfl
@[simp] theorem latch_trace : (s.latch a i).trace = s.trace := rfl
@[simp] theorem latch_dram : (s.latch a i).dram = s.dram := rfl
@[simp] theorem latch_panel : (s.latch a i).panel = s.panel := rfl
@[simp] theorem latch_led : (s.latch a i).led = s.led := rfl
@[simp] theorem latch_net : (s.latch a i).net = s.net := rfl
@[simp] theorem latch_time : (s.latch a i).time = s.time := rfl
@[simp] theorem latch_hol : (s.latch a i).hol = s.hol := rfl
@[simp] theorem latch_sec : (s.latch a i).sec = s.sec := rfl
@[simp] theorem latch_polder : (s.latch a i).polder = s.polder := rfl
@[simp] theorem latch_tw : (s.latch a i).tw = s.tw := rfl
@[simp] theorem latch_merged : (s.latch a i).merged = s.merged := rfl
@[simp] theorem latch_faults : (s.latch a i).faults = s.faults := rfl
@[simp] theorem latch_core : (s.latch a i).core e = s.core e := rfl
@[simp] theorem latch_byteAt : (s.latch a i).byteAt x = s.byteAt x := rfl
@[simp] theorem latch_chan : (s.latch a i).chan d2 = s.chan d2 := rfl
@[simp] theorem latch_ledCh : (s.latch a i).ledCh ch2 = s.ledCh ch2 := rfl
@[simp] theorem latch_blockOut : (s.latch a i).blockOut blk = s.blockOut blk := rfl
@[simp] theorem latch_feature : (s.latch a i).feature x = s.feature x := rfl
@[simp] theorem latch_queue : (s.latch a i).queue x = s.queue x := by unfold State.queue; cases queueIx x <;> rfl
@[simp] theorem latch_freeVal : (s.latch a i).freeVal = s.freeVal := rfl

/-! ### countUp -/

@[simp] theorem countUp_pending : (s.countUp a lo n).pending = s.pending := rfl
@[simp] theorem countUp_clock : (s.countUp a lo n).clock = s.clock := rfl
@[simp] theorem countUp_free : (s.countUp a lo n).free = s.free := rfl
@[simp] theorem countUp_sets : (s.countUp a lo n).sets = s.sets := rfl
@[simp] theorem countUp_deviceTime : (s.countUp a lo n).deviceTime = s.deviceTime := rfl
@[simp] theorem countUp_fuses : (s.countUp a lo n).fuses = s.fuses := rfl
@[simp] theorem countUp_agreed : (s.countUp a lo n).agreed = s.agreed := rfl
@[simp] theorem countUp_cores : (s.countUp a lo n).cores = s.cores := rfl
@[simp] theorem countUp_queues : (s.countUp a lo n).queues = s.queues := rfl
@[simp] theorem countUp_waiting : (s.countUp a lo n).waiting = s.waiting := rfl
@[simp] theorem countUp_assembly : (s.countUp a lo n).assembly = s.assembly := rfl
@[simp] theorem countUp_orderTurn : (s.countUp a lo n).orderTurn = s.orderTurn := rfl
@[simp] theorem countUp_tokens : (s.countUp a lo n).tokens = s.tokens := rfl
@[simp] theorem countUp_orders : (s.countUp a lo n).orders = s.orders := rfl
@[simp] theorem countUp_accepted : (s.countUp a lo n).accepted = s.accepted := rfl
@[simp] theorem countUp_delivered : (s.countUp a lo n).delivered = s.delivered := rfl
@[simp] theorem countUp_tacks : (s.countUp a lo n).tacks = s.tacks := rfl
@[simp] theorem countUp_fired : (s.countUp a lo n).fired = s.fired := rfl
@[simp] theorem countUp_launches : (s.countUp a lo n).launches = s.launches := rfl
@[simp] theorem countUp_banks : (s.countUp a lo n).banks = s.banks := rfl
@[simp] theorem countUp_cells : (s.countUp a lo n).cells = s.cells := rfl
@[simp] theorem countUp_badParity : (s.countUp a lo n).badParity = s.badParity := rfl
@[simp] theorem countUp_modes : (s.countUp a lo n).modes = s.modes := rfl
@[simp] theorem countUp_dies : (s.countUp a lo n).dies = s.dies := rfl
@[simp] theorem countUp_blocks : (s.countUp a lo n).blocks = s.blocks := rfl
@[simp] theorem countUp_clockLost : (s.countUp a lo n).clockLost = s.clockLost := rfl
@[simp] theorem countUp_clockSaid : (s.countUp a lo n).clockSaid = s.clockSaid := rfl
@[simp] theorem countUp_clockTold : (s.countUp a lo n).clockTold = s.clockTold := rfl
@[simp] theorem countUp_byClock : (s.countUp a lo n).byClock = s.byClock := rfl
@[simp] theorem countUp_readmit : (s.countUp a lo n).readmit = s.readmit := rfl
@[simp] theorem countUp_miscount : (s.countUp a lo n).miscount = s.miscount := rfl
@[simp] theorem countUp_probeAt : (s.countUp a lo n).probeAt = s.probeAt := rfl
@[simp] theorem countUp_mach : (s.countUp a lo n).mach = s.mach := rfl
@[simp] theorem countUp_gate : (s.countUp a lo n).gate = s.gate := rfl
@[simp] theorem countUp_axes : (s.countUp a lo n).axes = s.axes := rfl
@[simp] theorem countUp_loop : (s.countUp a lo n).loop = s.loop := rfl
@[simp] theorem countUp_trace : (s.countUp a lo n).trace = s.trace := rfl
@[simp] theorem countUp_dram : (s.countUp a lo n).dram = s.dram := rfl
@[simp] theorem countUp_panel : (s.countUp a lo n).panel = s.panel := rfl
@[simp] theorem countUp_led : (s.countUp a lo n).led = s.led := rfl
@[simp] theorem countUp_net : (s.countUp a lo n).net = s.net := rfl
@[simp] theorem countUp_time : (s.countUp a lo n).time = s.time := rfl
@[simp] theorem countUp_hol : (s.countUp a lo n).hol = s.hol := rfl
@[simp] theorem countUp_sec : (s.countUp a lo n).sec = s.sec := rfl
@[simp] theorem countUp_polder : (s.countUp a lo n).polder = s.polder := rfl
@[simp] theorem countUp_tw : (s.countUp a lo n).tw = s.tw := rfl
@[simp] theorem countUp_merged : (s.countUp a lo n).merged = s.merged := rfl
@[simp] theorem countUp_faults : (s.countUp a lo n).faults = s.faults := rfl
@[simp] theorem countUp_core : (s.countUp a lo n).core e = s.core e := rfl
@[simp] theorem countUp_byteAt : (s.countUp a lo n).byteAt x = s.byteAt x := rfl
@[simp] theorem countUp_chan : (s.countUp a lo n).chan d2 = s.chan d2 := rfl
@[simp] theorem countUp_ledCh : (s.countUp a lo n).ledCh ch2 = s.ledCh ch2 := rfl
@[simp] theorem countUp_blockOut : (s.countUp a lo n).blockOut blk = s.blockOut blk := rfl
@[simp] theorem countUp_feature : (s.countUp a lo n).feature x = s.feature x := rfl
@[simp] theorem countUp_queue : (s.countUp a lo n).queue x = s.queue x := by unfold State.queue; cases queueIx x <;> rfl
@[simp] theorem countUp_freeVal : (s.countUp a lo n).freeVal = s.freeVal := rfl

/-! ### countWrap -/

@[simp] theorem countWrap_pending : (s.countWrap a lo n).pending = s.pending := rfl
@[simp] theorem countWrap_clock : (s.countWrap a lo n).clock = s.clock := rfl
@[simp] theorem countWrap_free : (s.countWrap a lo n).free = s.free := rfl
@[simp] theorem countWrap_sets : (s.countWrap a lo n).sets = s.sets := rfl
@[simp] theorem countWrap_deviceTime : (s.countWrap a lo n).deviceTime = s.deviceTime := rfl
@[simp] theorem countWrap_fuses : (s.countWrap a lo n).fuses = s.fuses := rfl
@[simp] theorem countWrap_agreed : (s.countWrap a lo n).agreed = s.agreed := rfl
@[simp] theorem countWrap_cores : (s.countWrap a lo n).cores = s.cores := rfl
@[simp] theorem countWrap_queues : (s.countWrap a lo n).queues = s.queues := rfl
@[simp] theorem countWrap_waiting : (s.countWrap a lo n).waiting = s.waiting := rfl
@[simp] theorem countWrap_assembly : (s.countWrap a lo n).assembly = s.assembly := rfl
@[simp] theorem countWrap_orderTurn : (s.countWrap a lo n).orderTurn = s.orderTurn := rfl
@[simp] theorem countWrap_tokens : (s.countWrap a lo n).tokens = s.tokens := rfl
@[simp] theorem countWrap_orders : (s.countWrap a lo n).orders = s.orders := rfl
@[simp] theorem countWrap_accepted : (s.countWrap a lo n).accepted = s.accepted := rfl
@[simp] theorem countWrap_delivered : (s.countWrap a lo n).delivered = s.delivered := rfl
@[simp] theorem countWrap_tacks : (s.countWrap a lo n).tacks = s.tacks := rfl
@[simp] theorem countWrap_fired : (s.countWrap a lo n).fired = s.fired := rfl
@[simp] theorem countWrap_launches : (s.countWrap a lo n).launches = s.launches := rfl
@[simp] theorem countWrap_banks : (s.countWrap a lo n).banks = s.banks := rfl
@[simp] theorem countWrap_cells : (s.countWrap a lo n).cells = s.cells := rfl
@[simp] theorem countWrap_badParity : (s.countWrap a lo n).badParity = s.badParity := rfl
@[simp] theorem countWrap_modes : (s.countWrap a lo n).modes = s.modes := rfl
@[simp] theorem countWrap_dies : (s.countWrap a lo n).dies = s.dies := rfl
@[simp] theorem countWrap_blocks : (s.countWrap a lo n).blocks = s.blocks := rfl
@[simp] theorem countWrap_clockLost : (s.countWrap a lo n).clockLost = s.clockLost := rfl
@[simp] theorem countWrap_clockSaid : (s.countWrap a lo n).clockSaid = s.clockSaid := rfl
@[simp] theorem countWrap_clockTold : (s.countWrap a lo n).clockTold = s.clockTold := rfl
@[simp] theorem countWrap_byClock : (s.countWrap a lo n).byClock = s.byClock := rfl
@[simp] theorem countWrap_readmit : (s.countWrap a lo n).readmit = s.readmit := rfl
@[simp] theorem countWrap_miscount : (s.countWrap a lo n).miscount = s.miscount := rfl
@[simp] theorem countWrap_probeAt : (s.countWrap a lo n).probeAt = s.probeAt := rfl
@[simp] theorem countWrap_mach : (s.countWrap a lo n).mach = s.mach := rfl
@[simp] theorem countWrap_gate : (s.countWrap a lo n).gate = s.gate := rfl
@[simp] theorem countWrap_axes : (s.countWrap a lo n).axes = s.axes := rfl
@[simp] theorem countWrap_loop : (s.countWrap a lo n).loop = s.loop := rfl
@[simp] theorem countWrap_trace : (s.countWrap a lo n).trace = s.trace := rfl
@[simp] theorem countWrap_dram : (s.countWrap a lo n).dram = s.dram := rfl
@[simp] theorem countWrap_panel : (s.countWrap a lo n).panel = s.panel := rfl
@[simp] theorem countWrap_led : (s.countWrap a lo n).led = s.led := rfl
@[simp] theorem countWrap_net : (s.countWrap a lo n).net = s.net := rfl
@[simp] theorem countWrap_time : (s.countWrap a lo n).time = s.time := rfl
@[simp] theorem countWrap_hol : (s.countWrap a lo n).hol = s.hol := rfl
@[simp] theorem countWrap_sec : (s.countWrap a lo n).sec = s.sec := rfl
@[simp] theorem countWrap_polder : (s.countWrap a lo n).polder = s.polder := rfl
@[simp] theorem countWrap_tw : (s.countWrap a lo n).tw = s.tw := rfl
@[simp] theorem countWrap_merged : (s.countWrap a lo n).merged = s.merged := rfl
@[simp] theorem countWrap_faults : (s.countWrap a lo n).faults = s.faults := rfl
@[simp] theorem countWrap_core : (s.countWrap a lo n).core e = s.core e := rfl
@[simp] theorem countWrap_byteAt : (s.countWrap a lo n).byteAt x = s.byteAt x := rfl
@[simp] theorem countWrap_chan : (s.countWrap a lo n).chan d2 = s.chan d2 := rfl
@[simp] theorem countWrap_ledCh : (s.countWrap a lo n).ledCh ch2 = s.ledCh ch2 := rfl
@[simp] theorem countWrap_blockOut : (s.countWrap a lo n).blockOut blk = s.blockOut blk := rfl
@[simp] theorem countWrap_feature : (s.countWrap a lo n).feature x = s.feature x := rfl
@[simp] theorem countWrap_queue : (s.countWrap a lo n).queue x = s.queue x := by unfold State.queue; cases queueIx x <;> rfl
@[simp] theorem countWrap_freeVal : (s.countWrap a lo n).freeVal = s.freeVal := rfl

/-! ### resetWords -/

@[simp] theorem resetWords_pending : (s.resetWords lo hi).pending = s.pending := rfl
@[simp] theorem resetWords_clock : (s.resetWords lo hi).clock = s.clock := rfl
@[simp] theorem resetWords_free : (s.resetWords lo hi).free = s.free := rfl
@[simp] theorem resetWords_sets : (s.resetWords lo hi).sets = s.sets := rfl
@[simp] theorem resetWords_deviceTime : (s.resetWords lo hi).deviceTime = s.deviceTime := rfl
@[simp] theorem resetWords_fuses : (s.resetWords lo hi).fuses = s.fuses := rfl
@[simp] theorem resetWords_agreed : (s.resetWords lo hi).agreed = s.agreed := rfl
@[simp] theorem resetWords_cores : (s.resetWords lo hi).cores = s.cores := rfl
@[simp] theorem resetWords_queues : (s.resetWords lo hi).queues = s.queues := rfl
@[simp] theorem resetWords_waiting : (s.resetWords lo hi).waiting = s.waiting := rfl
@[simp] theorem resetWords_assembly : (s.resetWords lo hi).assembly = s.assembly := rfl
@[simp] theorem resetWords_orderTurn : (s.resetWords lo hi).orderTurn = s.orderTurn := rfl
@[simp] theorem resetWords_tokens : (s.resetWords lo hi).tokens = s.tokens := rfl
@[simp] theorem resetWords_orders : (s.resetWords lo hi).orders = s.orders := rfl
@[simp] theorem resetWords_accepted : (s.resetWords lo hi).accepted = s.accepted := rfl
@[simp] theorem resetWords_delivered : (s.resetWords lo hi).delivered = s.delivered := rfl
@[simp] theorem resetWords_tacks : (s.resetWords lo hi).tacks = s.tacks := rfl
@[simp] theorem resetWords_fired : (s.resetWords lo hi).fired = s.fired := rfl
@[simp] theorem resetWords_launches : (s.resetWords lo hi).launches = s.launches := rfl
@[simp] theorem resetWords_banks : (s.resetWords lo hi).banks = s.banks := rfl
@[simp] theorem resetWords_cells : (s.resetWords lo hi).cells = s.cells := rfl
@[simp] theorem resetWords_badParity : (s.resetWords lo hi).badParity = s.badParity := rfl
@[simp] theorem resetWords_modes : (s.resetWords lo hi).modes = s.modes := rfl
@[simp] theorem resetWords_dies : (s.resetWords lo hi).dies = s.dies := rfl
@[simp] theorem resetWords_blocks : (s.resetWords lo hi).blocks = s.blocks := rfl
@[simp] theorem resetWords_clockLost : (s.resetWords lo hi).clockLost = s.clockLost := rfl
@[simp] theorem resetWords_clockSaid : (s.resetWords lo hi).clockSaid = s.clockSaid := rfl
@[simp] theorem resetWords_clockTold : (s.resetWords lo hi).clockTold = s.clockTold := rfl
@[simp] theorem resetWords_byClock : (s.resetWords lo hi).byClock = s.byClock := rfl
@[simp] theorem resetWords_readmit : (s.resetWords lo hi).readmit = s.readmit := rfl
@[simp] theorem resetWords_miscount : (s.resetWords lo hi).miscount = s.miscount := rfl
@[simp] theorem resetWords_probeAt : (s.resetWords lo hi).probeAt = s.probeAt := rfl
@[simp] theorem resetWords_mach : (s.resetWords lo hi).mach = s.mach := rfl
@[simp] theorem resetWords_gate : (s.resetWords lo hi).gate = s.gate := rfl
@[simp] theorem resetWords_axes : (s.resetWords lo hi).axes = s.axes := rfl
@[simp] theorem resetWords_loop : (s.resetWords lo hi).loop = s.loop := rfl
@[simp] theorem resetWords_trace : (s.resetWords lo hi).trace = s.trace := rfl
@[simp] theorem resetWords_dram : (s.resetWords lo hi).dram = s.dram := rfl
@[simp] theorem resetWords_panel : (s.resetWords lo hi).panel = s.panel := rfl
@[simp] theorem resetWords_led : (s.resetWords lo hi).led = s.led := rfl
@[simp] theorem resetWords_net : (s.resetWords lo hi).net = s.net := rfl
@[simp] theorem resetWords_time : (s.resetWords lo hi).time = s.time := rfl
@[simp] theorem resetWords_hol : (s.resetWords lo hi).hol = s.hol := rfl
@[simp] theorem resetWords_sec : (s.resetWords lo hi).sec = s.sec := rfl
@[simp] theorem resetWords_polder : (s.resetWords lo hi).polder = s.polder := rfl
@[simp] theorem resetWords_tw : (s.resetWords lo hi).tw = s.tw := rfl
@[simp] theorem resetWords_merged : (s.resetWords lo hi).merged = s.merged := rfl
@[simp] theorem resetWords_faults : (s.resetWords lo hi).faults = s.faults := rfl
@[simp] theorem resetWords_core : (s.resetWords lo hi).core e = s.core e := rfl
@[simp] theorem resetWords_byteAt : (s.resetWords lo hi).byteAt x = s.byteAt x := rfl
@[simp] theorem resetWords_chan : (s.resetWords lo hi).chan d2 = s.chan d2 := rfl
@[simp] theorem resetWords_ledCh : (s.resetWords lo hi).ledCh ch2 = s.ledCh ch2 := rfl
@[simp] theorem resetWords_blockOut : (s.resetWords lo hi).blockOut blk = s.blockOut blk := rfl
@[simp] theorem resetWords_feature : (s.resetWords lo hi).feature x = s.feature x := rfl
@[simp] theorem resetWords_queue : (s.resetWords lo hi).queue x = s.queue x := by unfold State.queue; cases queueIx x <;> rfl
@[simp] theorem resetWords_freeVal : (s.resetWords lo hi).freeVal = s.freeVal := rfl

/-! ### setAddr64 -/

@[simp] theorem setAddr64_pending : (s.setAddr64 a v).pending = s.pending := rfl
@[simp] theorem setAddr64_clock : (s.setAddr64 a v).clock = s.clock := rfl
@[simp] theorem setAddr64_free : (s.setAddr64 a v).free = s.free := rfl
@[simp] theorem setAddr64_sets : (s.setAddr64 a v).sets = s.sets := rfl
@[simp] theorem setAddr64_deviceTime : (s.setAddr64 a v).deviceTime = s.deviceTime := rfl
@[simp] theorem setAddr64_fuses : (s.setAddr64 a v).fuses = s.fuses := rfl
@[simp] theorem setAddr64_agreed : (s.setAddr64 a v).agreed = s.agreed := rfl
@[simp] theorem setAddr64_cores : (s.setAddr64 a v).cores = s.cores := rfl
@[simp] theorem setAddr64_queues : (s.setAddr64 a v).queues = s.queues := rfl
@[simp] theorem setAddr64_waiting : (s.setAddr64 a v).waiting = s.waiting := rfl
@[simp] theorem setAddr64_assembly : (s.setAddr64 a v).assembly = s.assembly := rfl
@[simp] theorem setAddr64_orderTurn : (s.setAddr64 a v).orderTurn = s.orderTurn := rfl
@[simp] theorem setAddr64_tokens : (s.setAddr64 a v).tokens = s.tokens := rfl
@[simp] theorem setAddr64_orders : (s.setAddr64 a v).orders = s.orders := rfl
@[simp] theorem setAddr64_accepted : (s.setAddr64 a v).accepted = s.accepted := rfl
@[simp] theorem setAddr64_delivered : (s.setAddr64 a v).delivered = s.delivered := rfl
@[simp] theorem setAddr64_tacks : (s.setAddr64 a v).tacks = s.tacks := rfl
@[simp] theorem setAddr64_fired : (s.setAddr64 a v).fired = s.fired := rfl
@[simp] theorem setAddr64_launches : (s.setAddr64 a v).launches = s.launches := rfl
@[simp] theorem setAddr64_banks : (s.setAddr64 a v).banks = s.banks := rfl
@[simp] theorem setAddr64_cells : (s.setAddr64 a v).cells = s.cells := rfl
@[simp] theorem setAddr64_badParity : (s.setAddr64 a v).badParity = s.badParity := rfl
@[simp] theorem setAddr64_modes : (s.setAddr64 a v).modes = s.modes := rfl
@[simp] theorem setAddr64_dies : (s.setAddr64 a v).dies = s.dies := rfl
@[simp] theorem setAddr64_blocks : (s.setAddr64 a v).blocks = s.blocks := rfl
@[simp] theorem setAddr64_clockLost : (s.setAddr64 a v).clockLost = s.clockLost := rfl
@[simp] theorem setAddr64_clockSaid : (s.setAddr64 a v).clockSaid = s.clockSaid := rfl
@[simp] theorem setAddr64_clockTold : (s.setAddr64 a v).clockTold = s.clockTold := rfl
@[simp] theorem setAddr64_byClock : (s.setAddr64 a v).byClock = s.byClock := rfl
@[simp] theorem setAddr64_readmit : (s.setAddr64 a v).readmit = s.readmit := rfl
@[simp] theorem setAddr64_miscount : (s.setAddr64 a v).miscount = s.miscount := rfl
@[simp] theorem setAddr64_probeAt : (s.setAddr64 a v).probeAt = s.probeAt := rfl
@[simp] theorem setAddr64_mach : (s.setAddr64 a v).mach = s.mach := rfl
@[simp] theorem setAddr64_gate : (s.setAddr64 a v).gate = s.gate := rfl
@[simp] theorem setAddr64_axes : (s.setAddr64 a v).axes = s.axes := rfl
@[simp] theorem setAddr64_loop : (s.setAddr64 a v).loop = s.loop := rfl
@[simp] theorem setAddr64_trace : (s.setAddr64 a v).trace = s.trace := rfl
@[simp] theorem setAddr64_dram : (s.setAddr64 a v).dram = s.dram := rfl
@[simp] theorem setAddr64_panel : (s.setAddr64 a v).panel = s.panel := rfl
@[simp] theorem setAddr64_led : (s.setAddr64 a v).led = s.led := rfl
@[simp] theorem setAddr64_net : (s.setAddr64 a v).net = s.net := rfl
@[simp] theorem setAddr64_time : (s.setAddr64 a v).time = s.time := rfl
@[simp] theorem setAddr64_hol : (s.setAddr64 a v).hol = s.hol := rfl
@[simp] theorem setAddr64_sec : (s.setAddr64 a v).sec = s.sec := rfl
@[simp] theorem setAddr64_polder : (s.setAddr64 a v).polder = s.polder := rfl
@[simp] theorem setAddr64_tw : (s.setAddr64 a v).tw = s.tw := rfl
@[simp] theorem setAddr64_merged : (s.setAddr64 a v).merged = s.merged := rfl
@[simp] theorem setAddr64_faults : (s.setAddr64 a v).faults = s.faults := rfl
@[simp] theorem setAddr64_core : (s.setAddr64 a v).core e = s.core e := rfl
@[simp] theorem setAddr64_byteAt : (s.setAddr64 a v).byteAt x = s.byteAt x := rfl
@[simp] theorem setAddr64_chan : (s.setAddr64 a v).chan d2 = s.chan d2 := rfl
@[simp] theorem setAddr64_ledCh : (s.setAddr64 a v).ledCh ch2 = s.ledCh ch2 := rfl
@[simp] theorem setAddr64_blockOut : (s.setAddr64 a v).blockOut blk = s.blockOut blk := rfl
@[simp] theorem setAddr64_feature : (s.setAddr64 a v).feature x = s.feature x := rfl
@[simp] theorem setAddr64_queue : (s.setAddr64 a v).queue x = s.queue x := by unfold State.queue; cases queueIx x <;> rfl
@[simp] theorem setAddr64_freeVal : (s.setAddr64 a v).freeVal = s.freeVal := rfl

/-! ### bump -/

@[simp] theorem bump_pending : (s.bump).pending = s.pending := rfl
@[simp] theorem bump_clock : (s.bump).clock = s.clock := rfl
@[simp] theorem bump_sets : (s.bump).sets = s.sets := rfl
@[simp] theorem bump_words : (s.bump).words = s.words := rfl
@[simp] theorem bump_deviceTime : (s.bump).deviceTime = s.deviceTime := rfl
@[simp] theorem bump_fuses : (s.bump).fuses = s.fuses := rfl
@[simp] theorem bump_agreed : (s.bump).agreed = s.agreed := rfl
@[simp] theorem bump_cores : (s.bump).cores = s.cores := rfl
@[simp] theorem bump_queues : (s.bump).queues = s.queues := rfl
@[simp] theorem bump_waiting : (s.bump).waiting = s.waiting := rfl
@[simp] theorem bump_assembly : (s.bump).assembly = s.assembly := rfl
@[simp] theorem bump_orderTurn : (s.bump).orderTurn = s.orderTurn := rfl
@[simp] theorem bump_tokens : (s.bump).tokens = s.tokens := rfl
@[simp] theorem bump_orders : (s.bump).orders = s.orders := rfl
@[simp] theorem bump_accepted : (s.bump).accepted = s.accepted := rfl
@[simp] theorem bump_delivered : (s.bump).delivered = s.delivered := rfl
@[simp] theorem bump_tacks : (s.bump).tacks = s.tacks := rfl
@[simp] theorem bump_fired : (s.bump).fired = s.fired := rfl
@[simp] theorem bump_launches : (s.bump).launches = s.launches := rfl
@[simp] theorem bump_banks : (s.bump).banks = s.banks := rfl
@[simp] theorem bump_cells : (s.bump).cells = s.cells := rfl
@[simp] theorem bump_badParity : (s.bump).badParity = s.badParity := rfl
@[simp] theorem bump_modes : (s.bump).modes = s.modes := rfl
@[simp] theorem bump_dies : (s.bump).dies = s.dies := rfl
@[simp] theorem bump_blocks : (s.bump).blocks = s.blocks := rfl
@[simp] theorem bump_clockLost : (s.bump).clockLost = s.clockLost := rfl
@[simp] theorem bump_clockSaid : (s.bump).clockSaid = s.clockSaid := rfl
@[simp] theorem bump_clockTold : (s.bump).clockTold = s.clockTold := rfl
@[simp] theorem bump_byClock : (s.bump).byClock = s.byClock := rfl
@[simp] theorem bump_readmit : (s.bump).readmit = s.readmit := rfl
@[simp] theorem bump_miscount : (s.bump).miscount = s.miscount := rfl
@[simp] theorem bump_probeAt : (s.bump).probeAt = s.probeAt := rfl
@[simp] theorem bump_mach : (s.bump).mach = s.mach := rfl
@[simp] theorem bump_gate : (s.bump).gate = s.gate := rfl
@[simp] theorem bump_axes : (s.bump).axes = s.axes := rfl
@[simp] theorem bump_loop : (s.bump).loop = s.loop := rfl
@[simp] theorem bump_trace : (s.bump).trace = s.trace := rfl
@[simp] theorem bump_dram : (s.bump).dram = s.dram := rfl
@[simp] theorem bump_panel : (s.bump).panel = s.panel := rfl
@[simp] theorem bump_led : (s.bump).led = s.led := rfl
@[simp] theorem bump_net : (s.bump).net = s.net := rfl
@[simp] theorem bump_time : (s.bump).time = s.time := rfl
@[simp] theorem bump_hol : (s.bump).hol = s.hol := rfl
@[simp] theorem bump_sec : (s.bump).sec = s.sec := rfl
@[simp] theorem bump_polder : (s.bump).polder = s.polder := rfl
@[simp] theorem bump_tw : (s.bump).tw = s.tw := rfl
@[simp] theorem bump_merged : (s.bump).merged = s.merged := rfl
@[simp] theorem bump_faults : (s.bump).faults = s.faults := rfl
@[simp] theorem bump_word : (s.bump).word x = s.word x := rfl
@[simp] theorem bump_field : (s.bump).field x y z = s.field x y z := rfl
@[simp] theorem bump_flag : (s.bump).flag x y = s.flag x y := rfl
@[simp] theorem bump_core : (s.bump).core e = s.core e := rfl
@[simp] theorem bump_byteAt : (s.bump).byteAt x = s.byteAt x := rfl
@[simp] theorem bump_chan : (s.bump).chan d2 = s.chan d2 := rfl
@[simp] theorem bump_ledCh : (s.bump).ledCh ch2 = s.ledCh ch2 := rfl
@[simp] theorem bump_blockOut : (s.bump).blockOut blk = s.blockOut blk := rfl
@[simp] theorem bump_feature : (s.bump).feature x = s.feature x := rfl
@[simp] theorem bump_queue : (s.bump).queue x = s.queue x := by unfold State.queue; cases queueIx x <;> rfl
@[simp] theorem bump_addr64 : (s.bump).addr64 x = s.addr64 x := rfl

/-! ### updCore -/

@[simp] theorem updCore_pending : (s.updCore c fCore).pending = s.pending := rfl
@[simp] theorem updCore_clock : (s.updCore c fCore).clock = s.clock := rfl
@[simp] theorem updCore_free : (s.updCore c fCore).free = s.free := rfl
@[simp] theorem updCore_sets : (s.updCore c fCore).sets = s.sets := rfl
@[simp] theorem updCore_words : (s.updCore c fCore).words = s.words := rfl
@[simp] theorem updCore_deviceTime : (s.updCore c fCore).deviceTime = s.deviceTime := rfl
@[simp] theorem updCore_fuses : (s.updCore c fCore).fuses = s.fuses := rfl
@[simp] theorem updCore_agreed : (s.updCore c fCore).agreed = s.agreed := rfl
@[simp] theorem updCore_queues : (s.updCore c fCore).queues = s.queues := rfl
@[simp] theorem updCore_waiting : (s.updCore c fCore).waiting = s.waiting := rfl
@[simp] theorem updCore_assembly : (s.updCore c fCore).assembly = s.assembly := rfl
@[simp] theorem updCore_orderTurn : (s.updCore c fCore).orderTurn = s.orderTurn := rfl
@[simp] theorem updCore_tokens : (s.updCore c fCore).tokens = s.tokens := rfl
@[simp] theorem updCore_orders : (s.updCore c fCore).orders = s.orders := rfl
@[simp] theorem updCore_accepted : (s.updCore c fCore).accepted = s.accepted := rfl
@[simp] theorem updCore_delivered : (s.updCore c fCore).delivered = s.delivered := rfl
@[simp] theorem updCore_tacks : (s.updCore c fCore).tacks = s.tacks := rfl
@[simp] theorem updCore_fired : (s.updCore c fCore).fired = s.fired := rfl
@[simp] theorem updCore_launches : (s.updCore c fCore).launches = s.launches := rfl
@[simp] theorem updCore_banks : (s.updCore c fCore).banks = s.banks := rfl
@[simp] theorem updCore_cells : (s.updCore c fCore).cells = s.cells := rfl
@[simp] theorem updCore_badParity : (s.updCore c fCore).badParity = s.badParity := rfl
@[simp] theorem updCore_modes : (s.updCore c fCore).modes = s.modes := rfl
@[simp] theorem updCore_dies : (s.updCore c fCore).dies = s.dies := rfl
@[simp] theorem updCore_blocks : (s.updCore c fCore).blocks = s.blocks := rfl
@[simp] theorem updCore_clockLost : (s.updCore c fCore).clockLost = s.clockLost := rfl
@[simp] theorem updCore_clockSaid : (s.updCore c fCore).clockSaid = s.clockSaid := rfl
@[simp] theorem updCore_clockTold : (s.updCore c fCore).clockTold = s.clockTold := rfl
@[simp] theorem updCore_byClock : (s.updCore c fCore).byClock = s.byClock := rfl
@[simp] theorem updCore_readmit : (s.updCore c fCore).readmit = s.readmit := rfl
@[simp] theorem updCore_miscount : (s.updCore c fCore).miscount = s.miscount := rfl
@[simp] theorem updCore_probeAt : (s.updCore c fCore).probeAt = s.probeAt := rfl
@[simp] theorem updCore_mach : (s.updCore c fCore).mach = s.mach := rfl
@[simp] theorem updCore_gate : (s.updCore c fCore).gate = s.gate := rfl
@[simp] theorem updCore_axes : (s.updCore c fCore).axes = s.axes := rfl
@[simp] theorem updCore_loop : (s.updCore c fCore).loop = s.loop := rfl
@[simp] theorem updCore_trace : (s.updCore c fCore).trace = s.trace := rfl
@[simp] theorem updCore_dram : (s.updCore c fCore).dram = s.dram := rfl
@[simp] theorem updCore_panel : (s.updCore c fCore).panel = s.panel := rfl
@[simp] theorem updCore_led : (s.updCore c fCore).led = s.led := rfl
@[simp] theorem updCore_net : (s.updCore c fCore).net = s.net := rfl
@[simp] theorem updCore_time : (s.updCore c fCore).time = s.time := rfl
@[simp] theorem updCore_hol : (s.updCore c fCore).hol = s.hol := rfl
@[simp] theorem updCore_sec : (s.updCore c fCore).sec = s.sec := rfl
@[simp] theorem updCore_polder : (s.updCore c fCore).polder = s.polder := rfl
@[simp] theorem updCore_tw : (s.updCore c fCore).tw = s.tw := rfl
@[simp] theorem updCore_merged : (s.updCore c fCore).merged = s.merged := rfl
@[simp] theorem updCore_faults : (s.updCore c fCore).faults = s.faults := rfl
@[simp] theorem updCore_word : (s.updCore c fCore).word x = s.word x := rfl
@[simp] theorem updCore_field : (s.updCore c fCore).field x y z = s.field x y z := rfl
@[simp] theorem updCore_flag : (s.updCore c fCore).flag x y = s.flag x y := rfl
@[simp] theorem updCore_byteAt : (s.updCore c fCore).byteAt x = s.byteAt x := rfl
@[simp] theorem updCore_chan : (s.updCore c fCore).chan d2 = s.chan d2 := rfl
@[simp] theorem updCore_ledCh : (s.updCore c fCore).ledCh ch2 = s.ledCh ch2 := rfl
@[simp] theorem updCore_blockOut : (s.updCore c fCore).blockOut blk = s.blockOut blk := rfl
@[simp] theorem updCore_feature : (s.updCore c fCore).feature x = s.feature x := rfl
@[simp] theorem updCore_queue : (s.updCore c fCore).queue x = s.queue x := by unfold State.queue; cases queueIx x <;> rfl
@[simp] theorem updCore_addr64 : (s.updCore c fCore).addr64 x = s.addr64 x := rfl
@[simp] theorem updCore_freeVal : (s.updCore c fCore).freeVal = s.freeVal := rfl

/-! ### raiseEvent -/

@[simp] theorem raiseEvent_pending : (raiseEvent n c s).pending = s.pending := rfl
@[simp] theorem raiseEvent_clock : (raiseEvent n c s).clock = s.clock := rfl
@[simp] theorem raiseEvent_free : (raiseEvent n c s).free = s.free := rfl
@[simp] theorem raiseEvent_sets : (raiseEvent n c s).sets = s.sets := rfl
@[simp] theorem raiseEvent_words : (raiseEvent n c s).words = s.words := rfl
@[simp] theorem raiseEvent_deviceTime : (raiseEvent n c s).deviceTime = s.deviceTime := rfl
@[simp] theorem raiseEvent_fuses : (raiseEvent n c s).fuses = s.fuses := rfl
@[simp] theorem raiseEvent_agreed : (raiseEvent n c s).agreed = s.agreed := rfl
@[simp] theorem raiseEvent_queues : (raiseEvent n c s).queues = s.queues := rfl
@[simp] theorem raiseEvent_waiting : (raiseEvent n c s).waiting = s.waiting := rfl
@[simp] theorem raiseEvent_assembly : (raiseEvent n c s).assembly = s.assembly := rfl
@[simp] theorem raiseEvent_orderTurn : (raiseEvent n c s).orderTurn = s.orderTurn := rfl
@[simp] theorem raiseEvent_tokens : (raiseEvent n c s).tokens = s.tokens := rfl
@[simp] theorem raiseEvent_orders : (raiseEvent n c s).orders = s.orders := rfl
@[simp] theorem raiseEvent_accepted : (raiseEvent n c s).accepted = s.accepted := rfl
@[simp] theorem raiseEvent_delivered : (raiseEvent n c s).delivered = s.delivered := rfl
@[simp] theorem raiseEvent_tacks : (raiseEvent n c s).tacks = s.tacks := rfl
@[simp] theorem raiseEvent_fired : (raiseEvent n c s).fired = s.fired := rfl
@[simp] theorem raiseEvent_launches : (raiseEvent n c s).launches = s.launches := rfl
@[simp] theorem raiseEvent_banks : (raiseEvent n c s).banks = s.banks := rfl
@[simp] theorem raiseEvent_cells : (raiseEvent n c s).cells = s.cells := rfl
@[simp] theorem raiseEvent_badParity : (raiseEvent n c s).badParity = s.badParity := rfl
@[simp] theorem raiseEvent_modes : (raiseEvent n c s).modes = s.modes := rfl
@[simp] theorem raiseEvent_dies : (raiseEvent n c s).dies = s.dies := rfl
@[simp] theorem raiseEvent_blocks : (raiseEvent n c s).blocks = s.blocks := rfl
@[simp] theorem raiseEvent_clockLost : (raiseEvent n c s).clockLost = s.clockLost := rfl
@[simp] theorem raiseEvent_clockSaid : (raiseEvent n c s).clockSaid = s.clockSaid := rfl
@[simp] theorem raiseEvent_clockTold : (raiseEvent n c s).clockTold = s.clockTold := rfl
@[simp] theorem raiseEvent_byClock : (raiseEvent n c s).byClock = s.byClock := rfl
@[simp] theorem raiseEvent_readmit : (raiseEvent n c s).readmit = s.readmit := rfl
@[simp] theorem raiseEvent_miscount : (raiseEvent n c s).miscount = s.miscount := rfl
@[simp] theorem raiseEvent_probeAt : (raiseEvent n c s).probeAt = s.probeAt := rfl
@[simp] theorem raiseEvent_mach : (raiseEvent n c s).mach = s.mach := rfl
@[simp] theorem raiseEvent_gate : (raiseEvent n c s).gate = s.gate := rfl
@[simp] theorem raiseEvent_axes : (raiseEvent n c s).axes = s.axes := rfl
@[simp] theorem raiseEvent_loop : (raiseEvent n c s).loop = s.loop := rfl
@[simp] theorem raiseEvent_trace : (raiseEvent n c s).trace = s.trace := rfl
@[simp] theorem raiseEvent_dram : (raiseEvent n c s).dram = s.dram := rfl
@[simp] theorem raiseEvent_panel : (raiseEvent n c s).panel = s.panel := rfl
@[simp] theorem raiseEvent_led : (raiseEvent n c s).led = s.led := rfl
@[simp] theorem raiseEvent_net : (raiseEvent n c s).net = s.net := rfl
@[simp] theorem raiseEvent_time : (raiseEvent n c s).time = s.time := rfl
@[simp] theorem raiseEvent_hol : (raiseEvent n c s).hol = s.hol := rfl
@[simp] theorem raiseEvent_sec : (raiseEvent n c s).sec = s.sec := rfl
@[simp] theorem raiseEvent_polder : (raiseEvent n c s).polder = s.polder := rfl
@[simp] theorem raiseEvent_tw : (raiseEvent n c s).tw = s.tw := rfl
@[simp] theorem raiseEvent_merged : (raiseEvent n c s).merged = s.merged := rfl
@[simp] theorem raiseEvent_faults : (raiseEvent n c s).faults = s.faults := rfl
@[simp] theorem raiseEvent_word : (raiseEvent n c s).word x = s.word x := rfl
@[simp] theorem raiseEvent_field : (raiseEvent n c s).field x y z = s.field x y z := rfl
@[simp] theorem raiseEvent_flag : (raiseEvent n c s).flag x y = s.flag x y := rfl
@[simp] theorem raiseEvent_byteAt : (raiseEvent n c s).byteAt x = s.byteAt x := rfl
@[simp] theorem raiseEvent_chan : (raiseEvent n c s).chan d2 = s.chan d2 := rfl
@[simp] theorem raiseEvent_ledCh : (raiseEvent n c s).ledCh ch2 = s.ledCh ch2 := rfl
@[simp] theorem raiseEvent_blockOut : (raiseEvent n c s).blockOut blk = s.blockOut blk := rfl
@[simp] theorem raiseEvent_feature : (raiseEvent n c s).feature x = s.feature x := rfl
@[simp] theorem raiseEvent_queue : (raiseEvent n c s).queue x = s.queue x := by unfold State.queue; cases queueIx x <;> rfl
@[simp] theorem raiseEvent_addr64 : (raiseEvent n c s).addr64 x = s.addr64 x := rfl
@[simp] theorem raiseEvent_freeVal : (raiseEvent n c s).freeVal = s.freeVal := rfl

/-! ### raiseAll -/

@[simp] theorem raiseAll_pending : (raiseAll n s).pending = s.pending := rfl
@[simp] theorem raiseAll_clock : (raiseAll n s).clock = s.clock := rfl
@[simp] theorem raiseAll_free : (raiseAll n s).free = s.free := rfl
@[simp] theorem raiseAll_sets : (raiseAll n s).sets = s.sets := rfl
@[simp] theorem raiseAll_words : (raiseAll n s).words = s.words := rfl
@[simp] theorem raiseAll_deviceTime : (raiseAll n s).deviceTime = s.deviceTime := rfl
@[simp] theorem raiseAll_fuses : (raiseAll n s).fuses = s.fuses := rfl
@[simp] theorem raiseAll_agreed : (raiseAll n s).agreed = s.agreed := rfl
@[simp] theorem raiseAll_queues : (raiseAll n s).queues = s.queues := rfl
@[simp] theorem raiseAll_waiting : (raiseAll n s).waiting = s.waiting := rfl
@[simp] theorem raiseAll_assembly : (raiseAll n s).assembly = s.assembly := rfl
@[simp] theorem raiseAll_orderTurn : (raiseAll n s).orderTurn = s.orderTurn := rfl
@[simp] theorem raiseAll_tokens : (raiseAll n s).tokens = s.tokens := rfl
@[simp] theorem raiseAll_orders : (raiseAll n s).orders = s.orders := rfl
@[simp] theorem raiseAll_accepted : (raiseAll n s).accepted = s.accepted := rfl
@[simp] theorem raiseAll_delivered : (raiseAll n s).delivered = s.delivered := rfl
@[simp] theorem raiseAll_tacks : (raiseAll n s).tacks = s.tacks := rfl
@[simp] theorem raiseAll_fired : (raiseAll n s).fired = s.fired := rfl
@[simp] theorem raiseAll_launches : (raiseAll n s).launches = s.launches := rfl
@[simp] theorem raiseAll_banks : (raiseAll n s).banks = s.banks := rfl
@[simp] theorem raiseAll_cells : (raiseAll n s).cells = s.cells := rfl
@[simp] theorem raiseAll_badParity : (raiseAll n s).badParity = s.badParity := rfl
@[simp] theorem raiseAll_modes : (raiseAll n s).modes = s.modes := rfl
@[simp] theorem raiseAll_dies : (raiseAll n s).dies = s.dies := rfl
@[simp] theorem raiseAll_blocks : (raiseAll n s).blocks = s.blocks := rfl
@[simp] theorem raiseAll_clockLost : (raiseAll n s).clockLost = s.clockLost := rfl
@[simp] theorem raiseAll_clockSaid : (raiseAll n s).clockSaid = s.clockSaid := rfl
@[simp] theorem raiseAll_clockTold : (raiseAll n s).clockTold = s.clockTold := rfl
@[simp] theorem raiseAll_byClock : (raiseAll n s).byClock = s.byClock := rfl
@[simp] theorem raiseAll_readmit : (raiseAll n s).readmit = s.readmit := rfl
@[simp] theorem raiseAll_miscount : (raiseAll n s).miscount = s.miscount := rfl
@[simp] theorem raiseAll_probeAt : (raiseAll n s).probeAt = s.probeAt := rfl
@[simp] theorem raiseAll_mach : (raiseAll n s).mach = s.mach := rfl
@[simp] theorem raiseAll_gate : (raiseAll n s).gate = s.gate := rfl
@[simp] theorem raiseAll_axes : (raiseAll n s).axes = s.axes := rfl
@[simp] theorem raiseAll_loop : (raiseAll n s).loop = s.loop := rfl
@[simp] theorem raiseAll_trace : (raiseAll n s).trace = s.trace := rfl
@[simp] theorem raiseAll_dram : (raiseAll n s).dram = s.dram := rfl
@[simp] theorem raiseAll_panel : (raiseAll n s).panel = s.panel := rfl
@[simp] theorem raiseAll_led : (raiseAll n s).led = s.led := rfl
@[simp] theorem raiseAll_net : (raiseAll n s).net = s.net := rfl
@[simp] theorem raiseAll_time : (raiseAll n s).time = s.time := rfl
@[simp] theorem raiseAll_hol : (raiseAll n s).hol = s.hol := rfl
@[simp] theorem raiseAll_sec : (raiseAll n s).sec = s.sec := rfl
@[simp] theorem raiseAll_polder : (raiseAll n s).polder = s.polder := rfl
@[simp] theorem raiseAll_tw : (raiseAll n s).tw = s.tw := rfl
@[simp] theorem raiseAll_merged : (raiseAll n s).merged = s.merged := rfl
@[simp] theorem raiseAll_faults : (raiseAll n s).faults = s.faults := rfl
@[simp] theorem raiseAll_word : (raiseAll n s).word x = s.word x := rfl
@[simp] theorem raiseAll_field : (raiseAll n s).field x y z = s.field x y z := rfl
@[simp] theorem raiseAll_flag : (raiseAll n s).flag x y = s.flag x y := rfl
@[simp] theorem raiseAll_byteAt : (raiseAll n s).byteAt x = s.byteAt x := rfl
@[simp] theorem raiseAll_chan : (raiseAll n s).chan d2 = s.chan d2 := rfl
@[simp] theorem raiseAll_ledCh : (raiseAll n s).ledCh ch2 = s.ledCh ch2 := rfl
@[simp] theorem raiseAll_blockOut : (raiseAll n s).blockOut blk = s.blockOut blk := rfl
@[simp] theorem raiseAll_feature : (raiseAll n s).feature x = s.feature x := rfl
@[simp] theorem raiseAll_queue : (raiseAll n s).queue x = s.queue x := by unfold State.queue; cases queueIx x <;> rfl
@[simp] theorem raiseAll_addr64 : (raiseAll n s).addr64 x = s.addr64 x := rfl
@[simp] theorem raiseAll_freeVal : (raiseAll n s).freeVal = s.freeVal := rfl

/-! ### record -/

@[simp] theorem record_pending : (record code unit data s).pending = s.pending := rfl
@[simp] theorem record_clock : (record code unit data s).clock = s.clock := rfl
@[simp] theorem record_free : (record code unit data s).free = s.free := rfl
@[simp] theorem record_sets : (record code unit data s).sets = s.sets := rfl
@[simp] theorem record_words : (record code unit data s).words = s.words := rfl
@[simp] theorem record_deviceTime : (record code unit data s).deviceTime = s.deviceTime := rfl
@[simp] theorem record_fuses : (record code unit data s).fuses = s.fuses := rfl
@[simp] theorem record_agreed : (record code unit data s).agreed = s.agreed := rfl
@[simp] theorem record_queues : (record code unit data s).queues = s.queues := rfl
@[simp] theorem record_waiting : (record code unit data s).waiting = s.waiting := rfl
@[simp] theorem record_assembly : (record code unit data s).assembly = s.assembly := rfl
@[simp] theorem record_orderTurn : (record code unit data s).orderTurn = s.orderTurn := rfl
@[simp] theorem record_tokens : (record code unit data s).tokens = s.tokens := rfl
@[simp] theorem record_orders : (record code unit data s).orders = s.orders := rfl
@[simp] theorem record_accepted : (record code unit data s).accepted = s.accepted := rfl
@[simp] theorem record_delivered : (record code unit data s).delivered = s.delivered := rfl
@[simp] theorem record_tacks : (record code unit data s).tacks = s.tacks := rfl
@[simp] theorem record_fired : (record code unit data s).fired = s.fired := rfl
@[simp] theorem record_launches : (record code unit data s).launches = s.launches := rfl
@[simp] theorem record_banks : (record code unit data s).banks = s.banks := rfl
@[simp] theorem record_cells : (record code unit data s).cells = s.cells := rfl
@[simp] theorem record_badParity : (record code unit data s).badParity = s.badParity := rfl
@[simp] theorem record_modes : (record code unit data s).modes = s.modes := rfl
@[simp] theorem record_dies : (record code unit data s).dies = s.dies := rfl
@[simp] theorem record_blocks : (record code unit data s).blocks = s.blocks := rfl
@[simp] theorem record_clockLost : (record code unit data s).clockLost = s.clockLost := rfl
@[simp] theorem record_clockSaid : (record code unit data s).clockSaid = s.clockSaid := rfl
@[simp] theorem record_clockTold : (record code unit data s).clockTold = s.clockTold := rfl
@[simp] theorem record_byClock : (record code unit data s).byClock = s.byClock := rfl
@[simp] theorem record_readmit : (record code unit data s).readmit = s.readmit := rfl
@[simp] theorem record_miscount : (record code unit data s).miscount = s.miscount := rfl
@[simp] theorem record_probeAt : (record code unit data s).probeAt = s.probeAt := rfl
@[simp] theorem record_mach : (record code unit data s).mach = s.mach := rfl
@[simp] theorem record_gate : (record code unit data s).gate = s.gate := rfl
@[simp] theorem record_axes : (record code unit data s).axes = s.axes := rfl
@[simp] theorem record_loop : (record code unit data s).loop = s.loop := rfl
@[simp] theorem record_trace : (record code unit data s).trace = s.trace := rfl
@[simp] theorem record_dram : (record code unit data s).dram = s.dram := rfl
@[simp] theorem record_panel : (record code unit data s).panel = s.panel := rfl
@[simp] theorem record_led : (record code unit data s).led = s.led := rfl
@[simp] theorem record_net : (record code unit data s).net = s.net := rfl
@[simp] theorem record_time : (record code unit data s).time = s.time := rfl
@[simp] theorem record_hol : (record code unit data s).hol = s.hol := rfl
@[simp] theorem record_sec : (record code unit data s).sec = s.sec := rfl
@[simp] theorem record_polder : (record code unit data s).polder = s.polder := rfl
@[simp] theorem record_tw : (record code unit data s).tw = s.tw := rfl
@[simp] theorem record_merged : (record code unit data s).merged = s.merged := rfl
@[simp] theorem record_word : (record code unit data s).word x = s.word x := rfl
@[simp] theorem record_field : (record code unit data s).field x y z = s.field x y z := rfl
@[simp] theorem record_flag : (record code unit data s).flag x y = s.flag x y := rfl
@[simp] theorem record_byteAt : (record code unit data s).byteAt x = s.byteAt x := rfl
@[simp] theorem record_chan : (record code unit data s).chan d2 = s.chan d2 := rfl
@[simp] theorem record_ledCh : (record code unit data s).ledCh ch2 = s.ledCh ch2 := rfl
@[simp] theorem record_blockOut : (record code unit data s).blockOut blk = s.blockOut blk := rfl
@[simp] theorem record_feature : (record code unit data s).feature x = s.feature x := rfl
@[simp] theorem record_queue : (record code unit data s).queue x = s.queue x := by unfold State.queue; cases queueIx x <;> rfl
@[simp] theorem record_addr64 : (record code unit data s).addr64 x = s.addr64 x := rfl
@[simp] theorem record_freeVal : (record code unit data s).freeVal = s.freeVal := rfl

/-! ### storeBytes -/

@[simp] theorem storeBytes_pending : (s.storeBytes a bs).pending = s.pending := rfl
@[simp] theorem storeBytes_clock : (s.storeBytes a bs).clock = s.clock := rfl
@[simp] theorem storeBytes_free : (s.storeBytes a bs).free = s.free := rfl
@[simp] theorem storeBytes_sets : (s.storeBytes a bs).sets = s.sets := rfl
@[simp] theorem storeBytes_words : (s.storeBytes a bs).words = s.words := rfl
@[simp] theorem storeBytes_deviceTime : (s.storeBytes a bs).deviceTime = s.deviceTime := rfl
@[simp] theorem storeBytes_fuses : (s.storeBytes a bs).fuses = s.fuses := rfl
@[simp] theorem storeBytes_agreed : (s.storeBytes a bs).agreed = s.agreed := rfl
@[simp] theorem storeBytes_cores : (s.storeBytes a bs).cores = s.cores := rfl
@[simp] theorem storeBytes_queues : (s.storeBytes a bs).queues = s.queues := rfl
@[simp] theorem storeBytes_waiting : (s.storeBytes a bs).waiting = s.waiting := rfl
@[simp] theorem storeBytes_assembly : (s.storeBytes a bs).assembly = s.assembly := rfl
@[simp] theorem storeBytes_orderTurn : (s.storeBytes a bs).orderTurn = s.orderTurn := rfl
@[simp] theorem storeBytes_tokens : (s.storeBytes a bs).tokens = s.tokens := rfl
@[simp] theorem storeBytes_orders : (s.storeBytes a bs).orders = s.orders := rfl
@[simp] theorem storeBytes_accepted : (s.storeBytes a bs).accepted = s.accepted := rfl
@[simp] theorem storeBytes_delivered : (s.storeBytes a bs).delivered = s.delivered := rfl
@[simp] theorem storeBytes_tacks : (s.storeBytes a bs).tacks = s.tacks := rfl
@[simp] theorem storeBytes_fired : (s.storeBytes a bs).fired = s.fired := rfl
@[simp] theorem storeBytes_launches : (s.storeBytes a bs).launches = s.launches := rfl
@[simp] theorem storeBytes_banks : (s.storeBytes a bs).banks = s.banks := rfl
@[simp] theorem storeBytes_modes : (s.storeBytes a bs).modes = s.modes := rfl
@[simp] theorem storeBytes_dies : (s.storeBytes a bs).dies = s.dies := rfl
@[simp] theorem storeBytes_blocks : (s.storeBytes a bs).blocks = s.blocks := rfl
@[simp] theorem storeBytes_clockLost : (s.storeBytes a bs).clockLost = s.clockLost := rfl
@[simp] theorem storeBytes_clockSaid : (s.storeBytes a bs).clockSaid = s.clockSaid := rfl
@[simp] theorem storeBytes_clockTold : (s.storeBytes a bs).clockTold = s.clockTold := rfl
@[simp] theorem storeBytes_byClock : (s.storeBytes a bs).byClock = s.byClock := rfl
@[simp] theorem storeBytes_readmit : (s.storeBytes a bs).readmit = s.readmit := rfl
@[simp] theorem storeBytes_miscount : (s.storeBytes a bs).miscount = s.miscount := rfl
@[simp] theorem storeBytes_probeAt : (s.storeBytes a bs).probeAt = s.probeAt := rfl
@[simp] theorem storeBytes_mach : (s.storeBytes a bs).mach = s.mach := rfl
@[simp] theorem storeBytes_gate : (s.storeBytes a bs).gate = s.gate := rfl
@[simp] theorem storeBytes_axes : (s.storeBytes a bs).axes = s.axes := rfl
@[simp] theorem storeBytes_loop : (s.storeBytes a bs).loop = s.loop := rfl
@[simp] theorem storeBytes_trace : (s.storeBytes a bs).trace = s.trace := rfl
@[simp] theorem storeBytes_dram : (s.storeBytes a bs).dram = s.dram := rfl
@[simp] theorem storeBytes_panel : (s.storeBytes a bs).panel = s.panel := rfl
@[simp] theorem storeBytes_led : (s.storeBytes a bs).led = s.led := rfl
@[simp] theorem storeBytes_net : (s.storeBytes a bs).net = s.net := rfl
@[simp] theorem storeBytes_time : (s.storeBytes a bs).time = s.time := rfl
@[simp] theorem storeBytes_hol : (s.storeBytes a bs).hol = s.hol := rfl
@[simp] theorem storeBytes_sec : (s.storeBytes a bs).sec = s.sec := rfl
@[simp] theorem storeBytes_polder : (s.storeBytes a bs).polder = s.polder := rfl
@[simp] theorem storeBytes_tw : (s.storeBytes a bs).tw = s.tw := rfl
@[simp] theorem storeBytes_merged : (s.storeBytes a bs).merged = s.merged := rfl
@[simp] theorem storeBytes_faults : (s.storeBytes a bs).faults = s.faults := rfl
@[simp] theorem storeBytes_word : (s.storeBytes a bs).word x = s.word x := rfl
@[simp] theorem storeBytes_field : (s.storeBytes a bs).field x y z = s.field x y z := rfl
@[simp] theorem storeBytes_flag : (s.storeBytes a bs).flag x y = s.flag x y := rfl
@[simp] theorem storeBytes_core : (s.storeBytes a bs).core e = s.core e := rfl
@[simp] theorem storeBytes_chan : (s.storeBytes a bs).chan d2 = s.chan d2 := rfl
@[simp] theorem storeBytes_ledCh : (s.storeBytes a bs).ledCh ch2 = s.ledCh ch2 := rfl
@[simp] theorem storeBytes_blockOut : (s.storeBytes a bs).blockOut blk = s.blockOut blk := rfl
@[simp] theorem storeBytes_feature : (s.storeBytes a bs).feature x = s.feature x := rfl
@[simp] theorem storeBytes_queue : (s.storeBytes a bs).queue x = s.queue x := by unfold State.queue; cases queueIx x <;> rfl
@[simp] theorem storeBytes_addr64 : (s.storeBytes a bs).addr64 x = s.addr64 x := rfl
@[simp] theorem storeBytes_freeVal : (s.storeBytes a bs).freeVal = s.freeVal := rfl

/-! ### zeroFill -/

@[simp] theorem zeroFill_pending : (zeroFill bank s).pending = s.pending := rfl
@[simp] theorem zeroFill_clock : (zeroFill bank s).clock = s.clock := rfl
@[simp] theorem zeroFill_free : (zeroFill bank s).free = s.free := rfl
@[simp] theorem zeroFill_sets : (zeroFill bank s).sets = s.sets := rfl
@[simp] theorem zeroFill_words : (zeroFill bank s).words = s.words := rfl
@[simp] theorem zeroFill_deviceTime : (zeroFill bank s).deviceTime = s.deviceTime := rfl
@[simp] theorem zeroFill_fuses : (zeroFill bank s).fuses = s.fuses := rfl
@[simp] theorem zeroFill_agreed : (zeroFill bank s).agreed = s.agreed := rfl
@[simp] theorem zeroFill_cores : (zeroFill bank s).cores = s.cores := rfl
@[simp] theorem zeroFill_queues : (zeroFill bank s).queues = s.queues := rfl
@[simp] theorem zeroFill_waiting : (zeroFill bank s).waiting = s.waiting := rfl
@[simp] theorem zeroFill_assembly : (zeroFill bank s).assembly = s.assembly := rfl
@[simp] theorem zeroFill_orderTurn : (zeroFill bank s).orderTurn = s.orderTurn := rfl
@[simp] theorem zeroFill_tokens : (zeroFill bank s).tokens = s.tokens := rfl
@[simp] theorem zeroFill_orders : (zeroFill bank s).orders = s.orders := rfl
@[simp] theorem zeroFill_accepted : (zeroFill bank s).accepted = s.accepted := rfl
@[simp] theorem zeroFill_delivered : (zeroFill bank s).delivered = s.delivered := rfl
@[simp] theorem zeroFill_tacks : (zeroFill bank s).tacks = s.tacks := rfl
@[simp] theorem zeroFill_fired : (zeroFill bank s).fired = s.fired := rfl
@[simp] theorem zeroFill_launches : (zeroFill bank s).launches = s.launches := rfl
@[simp] theorem zeroFill_modes : (zeroFill bank s).modes = s.modes := rfl
@[simp] theorem zeroFill_dies : (zeroFill bank s).dies = s.dies := rfl
@[simp] theorem zeroFill_blocks : (zeroFill bank s).blocks = s.blocks := rfl
@[simp] theorem zeroFill_clockLost : (zeroFill bank s).clockLost = s.clockLost := rfl
@[simp] theorem zeroFill_clockSaid : (zeroFill bank s).clockSaid = s.clockSaid := rfl
@[simp] theorem zeroFill_clockTold : (zeroFill bank s).clockTold = s.clockTold := rfl
@[simp] theorem zeroFill_byClock : (zeroFill bank s).byClock = s.byClock := rfl
@[simp] theorem zeroFill_readmit : (zeroFill bank s).readmit = s.readmit := rfl
@[simp] theorem zeroFill_miscount : (zeroFill bank s).miscount = s.miscount := rfl
@[simp] theorem zeroFill_probeAt : (zeroFill bank s).probeAt = s.probeAt := rfl
@[simp] theorem zeroFill_mach : (zeroFill bank s).mach = s.mach := rfl
@[simp] theorem zeroFill_gate : (zeroFill bank s).gate = s.gate := rfl
@[simp] theorem zeroFill_axes : (zeroFill bank s).axes = s.axes := rfl
@[simp] theorem zeroFill_loop : (zeroFill bank s).loop = s.loop := rfl
@[simp] theorem zeroFill_trace : (zeroFill bank s).trace = s.trace := rfl
@[simp] theorem zeroFill_dram : (zeroFill bank s).dram = s.dram := rfl
@[simp] theorem zeroFill_panel : (zeroFill bank s).panel = s.panel := rfl
@[simp] theorem zeroFill_led : (zeroFill bank s).led = s.led := rfl
@[simp] theorem zeroFill_net : (zeroFill bank s).net = s.net := rfl
@[simp] theorem zeroFill_time : (zeroFill bank s).time = s.time := rfl
@[simp] theorem zeroFill_hol : (zeroFill bank s).hol = s.hol := rfl
@[simp] theorem zeroFill_sec : (zeroFill bank s).sec = s.sec := rfl
@[simp] theorem zeroFill_polder : (zeroFill bank s).polder = s.polder := rfl
@[simp] theorem zeroFill_tw : (zeroFill bank s).tw = s.tw := rfl
@[simp] theorem zeroFill_merged : (zeroFill bank s).merged = s.merged := rfl
@[simp] theorem zeroFill_faults : (zeroFill bank s).faults = s.faults := rfl
@[simp] theorem zeroFill_word : (zeroFill bank s).word x = s.word x := rfl
@[simp] theorem zeroFill_field : (zeroFill bank s).field x y z = s.field x y z := rfl
@[simp] theorem zeroFill_flag : (zeroFill bank s).flag x y = s.flag x y := rfl
@[simp] theorem zeroFill_core : (zeroFill bank s).core e = s.core e := rfl
@[simp] theorem zeroFill_chan : (zeroFill bank s).chan d2 = s.chan d2 := rfl
@[simp] theorem zeroFill_ledCh : (zeroFill bank s).ledCh ch2 = s.ledCh ch2 := rfl
@[simp] theorem zeroFill_blockOut : (zeroFill bank s).blockOut blk = s.blockOut blk := rfl
@[simp] theorem zeroFill_feature : (zeroFill bank s).feature x = s.feature x := rfl
@[simp] theorem zeroFill_queue : (zeroFill bank s).queue x = s.queue x := by unfold State.queue; cases queueIx x <;> rfl
@[simp] theorem zeroFill_addr64 : (zeroFill bank s).addr64 x = s.addr64 x := rfl
@[simp] theorem zeroFill_freeVal : (zeroFill bank s).freeVal = s.freeVal := rfl

/-! ### updBank -/

@[simp] theorem updBank_pending : (s.updBank bank fBank).pending = s.pending := rfl
@[simp] theorem updBank_clock : (s.updBank bank fBank).clock = s.clock := rfl
@[simp] theorem updBank_free : (s.updBank bank fBank).free = s.free := rfl
@[simp] theorem updBank_sets : (s.updBank bank fBank).sets = s.sets := rfl
@[simp] theorem updBank_words : (s.updBank bank fBank).words = s.words := rfl
@[simp] theorem updBank_deviceTime : (s.updBank bank fBank).deviceTime = s.deviceTime := rfl
@[simp] theorem updBank_fuses : (s.updBank bank fBank).fuses = s.fuses := rfl
@[simp] theorem updBank_agreed : (s.updBank bank fBank).agreed = s.agreed := rfl
@[simp] theorem updBank_cores : (s.updBank bank fBank).cores = s.cores := rfl
@[simp] theorem updBank_queues : (s.updBank bank fBank).queues = s.queues := rfl
@[simp] theorem updBank_waiting : (s.updBank bank fBank).waiting = s.waiting := rfl
@[simp] theorem updBank_assembly : (s.updBank bank fBank).assembly = s.assembly := rfl
@[simp] theorem updBank_orderTurn : (s.updBank bank fBank).orderTurn = s.orderTurn := rfl
@[simp] theorem updBank_tokens : (s.updBank bank fBank).tokens = s.tokens := rfl
@[simp] theorem updBank_orders : (s.updBank bank fBank).orders = s.orders := rfl
@[simp] theorem updBank_accepted : (s.updBank bank fBank).accepted = s.accepted := rfl
@[simp] theorem updBank_delivered : (s.updBank bank fBank).delivered = s.delivered := rfl
@[simp] theorem updBank_tacks : (s.updBank bank fBank).tacks = s.tacks := rfl
@[simp] theorem updBank_fired : (s.updBank bank fBank).fired = s.fired := rfl
@[simp] theorem updBank_launches : (s.updBank bank fBank).launches = s.launches := rfl
@[simp] theorem updBank_cells : (s.updBank bank fBank).cells = s.cells := rfl
@[simp] theorem updBank_badParity : (s.updBank bank fBank).badParity = s.badParity := rfl
@[simp] theorem updBank_modes : (s.updBank bank fBank).modes = s.modes := rfl
@[simp] theorem updBank_dies : (s.updBank bank fBank).dies = s.dies := rfl
@[simp] theorem updBank_blocks : (s.updBank bank fBank).blocks = s.blocks := rfl
@[simp] theorem updBank_clockLost : (s.updBank bank fBank).clockLost = s.clockLost := rfl
@[simp] theorem updBank_clockSaid : (s.updBank bank fBank).clockSaid = s.clockSaid := rfl
@[simp] theorem updBank_clockTold : (s.updBank bank fBank).clockTold = s.clockTold := rfl
@[simp] theorem updBank_byClock : (s.updBank bank fBank).byClock = s.byClock := rfl
@[simp] theorem updBank_readmit : (s.updBank bank fBank).readmit = s.readmit := rfl
@[simp] theorem updBank_miscount : (s.updBank bank fBank).miscount = s.miscount := rfl
@[simp] theorem updBank_probeAt : (s.updBank bank fBank).probeAt = s.probeAt := rfl
@[simp] theorem updBank_mach : (s.updBank bank fBank).mach = s.mach := rfl
@[simp] theorem updBank_gate : (s.updBank bank fBank).gate = s.gate := rfl
@[simp] theorem updBank_axes : (s.updBank bank fBank).axes = s.axes := rfl
@[simp] theorem updBank_loop : (s.updBank bank fBank).loop = s.loop := rfl
@[simp] theorem updBank_trace : (s.updBank bank fBank).trace = s.trace := rfl
@[simp] theorem updBank_dram : (s.updBank bank fBank).dram = s.dram := rfl
@[simp] theorem updBank_panel : (s.updBank bank fBank).panel = s.panel := rfl
@[simp] theorem updBank_led : (s.updBank bank fBank).led = s.led := rfl
@[simp] theorem updBank_net : (s.updBank bank fBank).net = s.net := rfl
@[simp] theorem updBank_time : (s.updBank bank fBank).time = s.time := rfl
@[simp] theorem updBank_hol : (s.updBank bank fBank).hol = s.hol := rfl
@[simp] theorem updBank_sec : (s.updBank bank fBank).sec = s.sec := rfl
@[simp] theorem updBank_polder : (s.updBank bank fBank).polder = s.polder := rfl
@[simp] theorem updBank_tw : (s.updBank bank fBank).tw = s.tw := rfl
@[simp] theorem updBank_merged : (s.updBank bank fBank).merged = s.merged := rfl
@[simp] theorem updBank_faults : (s.updBank bank fBank).faults = s.faults := rfl
@[simp] theorem updBank_word : (s.updBank bank fBank).word x = s.word x := rfl
@[simp] theorem updBank_field : (s.updBank bank fBank).field x y z = s.field x y z := rfl
@[simp] theorem updBank_flag : (s.updBank bank fBank).flag x y = s.flag x y := rfl
@[simp] theorem updBank_core : (s.updBank bank fBank).core e = s.core e := rfl
@[simp] theorem updBank_byteAt : (s.updBank bank fBank).byteAt x = s.byteAt x := rfl
@[simp] theorem updBank_chan : (s.updBank bank fBank).chan d2 = s.chan d2 := rfl
@[simp] theorem updBank_ledCh : (s.updBank bank fBank).ledCh ch2 = s.ledCh ch2 := rfl
@[simp] theorem updBank_blockOut : (s.updBank bank fBank).blockOut blk = s.blockOut blk := rfl
@[simp] theorem updBank_feature : (s.updBank bank fBank).feature x = s.feature x := rfl
@[simp] theorem updBank_queue : (s.updBank bank fBank).queue x = s.queue x := by unfold State.queue; cases queueIx x <;> rfl
@[simp] theorem updBank_addr64 : (s.updBank bank fBank).addr64 x = s.addr64 x := rfl
@[simp] theorem updBank_freeVal : (s.updBank bank fBank).freeVal = s.freeVal := rfl

/-! ### updSec -/

@[simp] theorem updSec_pending : (s.updSec fSec).pending = s.pending := rfl
@[simp] theorem updSec_clock : (s.updSec fSec).clock = s.clock := rfl
@[simp] theorem updSec_free : (s.updSec fSec).free = s.free := rfl
@[simp] theorem updSec_sets : (s.updSec fSec).sets = s.sets := rfl
@[simp] theorem updSec_words : (s.updSec fSec).words = s.words := rfl
@[simp] theorem updSec_deviceTime : (s.updSec fSec).deviceTime = s.deviceTime := rfl
@[simp] theorem updSec_fuses : (s.updSec fSec).fuses = s.fuses := rfl
@[simp] theorem updSec_agreed : (s.updSec fSec).agreed = s.agreed := rfl
@[simp] theorem updSec_cores : (s.updSec fSec).cores = s.cores := rfl
@[simp] theorem updSec_queues : (s.updSec fSec).queues = s.queues := rfl
@[simp] theorem updSec_waiting : (s.updSec fSec).waiting = s.waiting := rfl
@[simp] theorem updSec_assembly : (s.updSec fSec).assembly = s.assembly := rfl
@[simp] theorem updSec_orderTurn : (s.updSec fSec).orderTurn = s.orderTurn := rfl
@[simp] theorem updSec_tokens : (s.updSec fSec).tokens = s.tokens := rfl
@[simp] theorem updSec_orders : (s.updSec fSec).orders = s.orders := rfl
@[simp] theorem updSec_accepted : (s.updSec fSec).accepted = s.accepted := rfl
@[simp] theorem updSec_delivered : (s.updSec fSec).delivered = s.delivered := rfl
@[simp] theorem updSec_tacks : (s.updSec fSec).tacks = s.tacks := rfl
@[simp] theorem updSec_fired : (s.updSec fSec).fired = s.fired := rfl
@[simp] theorem updSec_launches : (s.updSec fSec).launches = s.launches := rfl
@[simp] theorem updSec_banks : (s.updSec fSec).banks = s.banks := rfl
@[simp] theorem updSec_cells : (s.updSec fSec).cells = s.cells := rfl
@[simp] theorem updSec_badParity : (s.updSec fSec).badParity = s.badParity := rfl
@[simp] theorem updSec_modes : (s.updSec fSec).modes = s.modes := rfl
@[simp] theorem updSec_dies : (s.updSec fSec).dies = s.dies := rfl
@[simp] theorem updSec_blocks : (s.updSec fSec).blocks = s.blocks := rfl
@[simp] theorem updSec_clockLost : (s.updSec fSec).clockLost = s.clockLost := rfl
@[simp] theorem updSec_clockSaid : (s.updSec fSec).clockSaid = s.clockSaid := rfl
@[simp] theorem updSec_clockTold : (s.updSec fSec).clockTold = s.clockTold := rfl
@[simp] theorem updSec_byClock : (s.updSec fSec).byClock = s.byClock := rfl
@[simp] theorem updSec_readmit : (s.updSec fSec).readmit = s.readmit := rfl
@[simp] theorem updSec_miscount : (s.updSec fSec).miscount = s.miscount := rfl
@[simp] theorem updSec_probeAt : (s.updSec fSec).probeAt = s.probeAt := rfl
@[simp] theorem updSec_mach : (s.updSec fSec).mach = s.mach := rfl
@[simp] theorem updSec_gate : (s.updSec fSec).gate = s.gate := rfl
@[simp] theorem updSec_axes : (s.updSec fSec).axes = s.axes := rfl
@[simp] theorem updSec_loop : (s.updSec fSec).loop = s.loop := rfl
@[simp] theorem updSec_trace : (s.updSec fSec).trace = s.trace := rfl
@[simp] theorem updSec_dram : (s.updSec fSec).dram = s.dram := rfl
@[simp] theorem updSec_panel : (s.updSec fSec).panel = s.panel := rfl
@[simp] theorem updSec_led : (s.updSec fSec).led = s.led := rfl
@[simp] theorem updSec_net : (s.updSec fSec).net = s.net := rfl
@[simp] theorem updSec_time : (s.updSec fSec).time = s.time := rfl
@[simp] theorem updSec_hol : (s.updSec fSec).hol = s.hol := rfl
@[simp] theorem updSec_polder : (s.updSec fSec).polder = s.polder := rfl
@[simp] theorem updSec_tw : (s.updSec fSec).tw = s.tw := rfl
@[simp] theorem updSec_merged : (s.updSec fSec).merged = s.merged := rfl
@[simp] theorem updSec_faults : (s.updSec fSec).faults = s.faults := rfl
@[simp] theorem updSec_word : (s.updSec fSec).word x = s.word x := rfl
@[simp] theorem updSec_field : (s.updSec fSec).field x y z = s.field x y z := rfl
@[simp] theorem updSec_flag : (s.updSec fSec).flag x y = s.flag x y := rfl
@[simp] theorem updSec_core : (s.updSec fSec).core e = s.core e := rfl
@[simp] theorem updSec_byteAt : (s.updSec fSec).byteAt x = s.byteAt x := rfl
@[simp] theorem updSec_chan : (s.updSec fSec).chan d2 = s.chan d2 := rfl
@[simp] theorem updSec_ledCh : (s.updSec fSec).ledCh ch2 = s.ledCh ch2 := rfl
@[simp] theorem updSec_blockOut : (s.updSec fSec).blockOut blk = s.blockOut blk := rfl
@[simp] theorem updSec_feature : (s.updSec fSec).feature x = s.feature x := rfl
@[simp] theorem updSec_queue : (s.updSec fSec).queue x = s.queue x := by unfold State.queue; cases queueIx x <;> rfl
@[simp] theorem updSec_addr64 : (s.updSec fSec).addr64 x = s.addr64 x := rfl
@[simp] theorem updSec_freeVal : (s.updSec fSec).freeVal = s.freeVal := rfl

/-! ### updSession -/

@[simp] theorem updSession_pending : (s.updSession k8 fSession).pending = s.pending := rfl
@[simp] theorem updSession_clock : (s.updSession k8 fSession).clock = s.clock := rfl
@[simp] theorem updSession_free : (s.updSession k8 fSession).free = s.free := rfl
@[simp] theorem updSession_sets : (s.updSession k8 fSession).sets = s.sets := rfl
@[simp] theorem updSession_words : (s.updSession k8 fSession).words = s.words := rfl
@[simp] theorem updSession_deviceTime : (s.updSession k8 fSession).deviceTime = s.deviceTime := rfl
@[simp] theorem updSession_fuses : (s.updSession k8 fSession).fuses = s.fuses := rfl
@[simp] theorem updSession_agreed : (s.updSession k8 fSession).agreed = s.agreed := rfl
@[simp] theorem updSession_cores : (s.updSession k8 fSession).cores = s.cores := rfl
@[simp] theorem updSession_queues : (s.updSession k8 fSession).queues = s.queues := rfl
@[simp] theorem updSession_waiting : (s.updSession k8 fSession).waiting = s.waiting := rfl
@[simp] theorem updSession_assembly : (s.updSession k8 fSession).assembly = s.assembly := rfl
@[simp] theorem updSession_orderTurn : (s.updSession k8 fSession).orderTurn = s.orderTurn := rfl
@[simp] theorem updSession_tokens : (s.updSession k8 fSession).tokens = s.tokens := rfl
@[simp] theorem updSession_orders : (s.updSession k8 fSession).orders = s.orders := rfl
@[simp] theorem updSession_accepted : (s.updSession k8 fSession).accepted = s.accepted := rfl
@[simp] theorem updSession_delivered : (s.updSession k8 fSession).delivered = s.delivered := rfl
@[simp] theorem updSession_tacks : (s.updSession k8 fSession).tacks = s.tacks := rfl
@[simp] theorem updSession_fired : (s.updSession k8 fSession).fired = s.fired := rfl
@[simp] theorem updSession_launches : (s.updSession k8 fSession).launches = s.launches := rfl
@[simp] theorem updSession_banks : (s.updSession k8 fSession).banks = s.banks := rfl
@[simp] theorem updSession_cells : (s.updSession k8 fSession).cells = s.cells := rfl
@[simp] theorem updSession_badParity : (s.updSession k8 fSession).badParity = s.badParity := rfl
@[simp] theorem updSession_modes : (s.updSession k8 fSession).modes = s.modes := rfl
@[simp] theorem updSession_dies : (s.updSession k8 fSession).dies = s.dies := rfl
@[simp] theorem updSession_blocks : (s.updSession k8 fSession).blocks = s.blocks := rfl
@[simp] theorem updSession_clockLost : (s.updSession k8 fSession).clockLost = s.clockLost := rfl
@[simp] theorem updSession_clockSaid : (s.updSession k8 fSession).clockSaid = s.clockSaid := rfl
@[simp] theorem updSession_clockTold : (s.updSession k8 fSession).clockTold = s.clockTold := rfl
@[simp] theorem updSession_byClock : (s.updSession k8 fSession).byClock = s.byClock := rfl
@[simp] theorem updSession_readmit : (s.updSession k8 fSession).readmit = s.readmit := rfl
@[simp] theorem updSession_miscount : (s.updSession k8 fSession).miscount = s.miscount := rfl
@[simp] theorem updSession_probeAt : (s.updSession k8 fSession).probeAt = s.probeAt := rfl
@[simp] theorem updSession_mach : (s.updSession k8 fSession).mach = s.mach := rfl
@[simp] theorem updSession_gate : (s.updSession k8 fSession).gate = s.gate := rfl
@[simp] theorem updSession_axes : (s.updSession k8 fSession).axes = s.axes := rfl
@[simp] theorem updSession_loop : (s.updSession k8 fSession).loop = s.loop := rfl
@[simp] theorem updSession_trace : (s.updSession k8 fSession).trace = s.trace := rfl
@[simp] theorem updSession_dram : (s.updSession k8 fSession).dram = s.dram := rfl
@[simp] theorem updSession_panel : (s.updSession k8 fSession).panel = s.panel := rfl
@[simp] theorem updSession_led : (s.updSession k8 fSession).led = s.led := rfl
@[simp] theorem updSession_net : (s.updSession k8 fSession).net = s.net := rfl
@[simp] theorem updSession_time : (s.updSession k8 fSession).time = s.time := rfl
@[simp] theorem updSession_hol : (s.updSession k8 fSession).hol = s.hol := rfl
@[simp] theorem updSession_polder : (s.updSession k8 fSession).polder = s.polder := rfl
@[simp] theorem updSession_tw : (s.updSession k8 fSession).tw = s.tw := rfl
@[simp] theorem updSession_merged : (s.updSession k8 fSession).merged = s.merged := rfl
@[simp] theorem updSession_faults : (s.updSession k8 fSession).faults = s.faults := rfl
@[simp] theorem updSession_word : (s.updSession k8 fSession).word x = s.word x := rfl
@[simp] theorem updSession_field : (s.updSession k8 fSession).field x y z = s.field x y z := rfl
@[simp] theorem updSession_flag : (s.updSession k8 fSession).flag x y = s.flag x y := rfl
@[simp] theorem updSession_core : (s.updSession k8 fSession).core e = s.core e := rfl
@[simp] theorem updSession_byteAt : (s.updSession k8 fSession).byteAt x = s.byteAt x := rfl
@[simp] theorem updSession_chan : (s.updSession k8 fSession).chan d2 = s.chan d2 := rfl
@[simp] theorem updSession_ledCh : (s.updSession k8 fSession).ledCh ch2 = s.ledCh ch2 := rfl
@[simp] theorem updSession_blockOut : (s.updSession k8 fSession).blockOut blk = s.blockOut blk := rfl
@[simp] theorem updSession_feature : (s.updSession k8 fSession).feature x = s.feature x := rfl
@[simp] theorem updSession_queue : (s.updSession k8 fSession).queue x = s.queue x := by unfold State.queue; cases queueIx x <;> rfl
@[simp] theorem updSession_addr64 : (s.updSession k8 fSession).addr64 x = s.addr64 x := rfl
@[simp] theorem updSession_freeVal : (s.updSession k8 fSession).freeVal = s.freeVal := rfl

/-! ### updModes -/

@[simp] theorem updModes_pending : (s.updModes fModes).pending = s.pending := rfl
@[simp] theorem updModes_clock : (s.updModes fModes).clock = s.clock := rfl
@[simp] theorem updModes_free : (s.updModes fModes).free = s.free := rfl
@[simp] theorem updModes_sets : (s.updModes fModes).sets = s.sets := rfl
@[simp] theorem updModes_words : (s.updModes fModes).words = s.words := rfl
@[simp] theorem updModes_deviceTime : (s.updModes fModes).deviceTime = s.deviceTime := rfl
@[simp] theorem updModes_fuses : (s.updModes fModes).fuses = s.fuses := rfl
@[simp] theorem updModes_agreed : (s.updModes fModes).agreed = s.agreed := rfl
@[simp] theorem updModes_cores : (s.updModes fModes).cores = s.cores := rfl
@[simp] theorem updModes_queues : (s.updModes fModes).queues = s.queues := rfl
@[simp] theorem updModes_waiting : (s.updModes fModes).waiting = s.waiting := rfl
@[simp] theorem updModes_assembly : (s.updModes fModes).assembly = s.assembly := rfl
@[simp] theorem updModes_orderTurn : (s.updModes fModes).orderTurn = s.orderTurn := rfl
@[simp] theorem updModes_tokens : (s.updModes fModes).tokens = s.tokens := rfl
@[simp] theorem updModes_orders : (s.updModes fModes).orders = s.orders := rfl
@[simp] theorem updModes_accepted : (s.updModes fModes).accepted = s.accepted := rfl
@[simp] theorem updModes_delivered : (s.updModes fModes).delivered = s.delivered := rfl
@[simp] theorem updModes_tacks : (s.updModes fModes).tacks = s.tacks := rfl
@[simp] theorem updModes_fired : (s.updModes fModes).fired = s.fired := rfl
@[simp] theorem updModes_launches : (s.updModes fModes).launches = s.launches := rfl
@[simp] theorem updModes_banks : (s.updModes fModes).banks = s.banks := rfl
@[simp] theorem updModes_cells : (s.updModes fModes).cells = s.cells := rfl
@[simp] theorem updModes_badParity : (s.updModes fModes).badParity = s.badParity := rfl
@[simp] theorem updModes_dies : (s.updModes fModes).dies = s.dies := rfl
@[simp] theorem updModes_blocks : (s.updModes fModes).blocks = s.blocks := rfl
@[simp] theorem updModes_clockLost : (s.updModes fModes).clockLost = s.clockLost := rfl
@[simp] theorem updModes_clockSaid : (s.updModes fModes).clockSaid = s.clockSaid := rfl
@[simp] theorem updModes_clockTold : (s.updModes fModes).clockTold = s.clockTold := rfl
@[simp] theorem updModes_byClock : (s.updModes fModes).byClock = s.byClock := rfl
@[simp] theorem updModes_readmit : (s.updModes fModes).readmit = s.readmit := rfl
@[simp] theorem updModes_miscount : (s.updModes fModes).miscount = s.miscount := rfl
@[simp] theorem updModes_probeAt : (s.updModes fModes).probeAt = s.probeAt := rfl
@[simp] theorem updModes_mach : (s.updModes fModes).mach = s.mach := rfl
@[simp] theorem updModes_gate : (s.updModes fModes).gate = s.gate := rfl
@[simp] theorem updModes_axes : (s.updModes fModes).axes = s.axes := rfl
@[simp] theorem updModes_loop : (s.updModes fModes).loop = s.loop := rfl
@[simp] theorem updModes_trace : (s.updModes fModes).trace = s.trace := rfl
@[simp] theorem updModes_dram : (s.updModes fModes).dram = s.dram := rfl
@[simp] theorem updModes_panel : (s.updModes fModes).panel = s.panel := rfl
@[simp] theorem updModes_led : (s.updModes fModes).led = s.led := rfl
@[simp] theorem updModes_net : (s.updModes fModes).net = s.net := rfl
@[simp] theorem updModes_time : (s.updModes fModes).time = s.time := rfl
@[simp] theorem updModes_hol : (s.updModes fModes).hol = s.hol := rfl
@[simp] theorem updModes_sec : (s.updModes fModes).sec = s.sec := rfl
@[simp] theorem updModes_polder : (s.updModes fModes).polder = s.polder := rfl
@[simp] theorem updModes_tw : (s.updModes fModes).tw = s.tw := rfl
@[simp] theorem updModes_merged : (s.updModes fModes).merged = s.merged := rfl
@[simp] theorem updModes_faults : (s.updModes fModes).faults = s.faults := rfl
@[simp] theorem updModes_word : (s.updModes fModes).word x = s.word x := rfl
@[simp] theorem updModes_field : (s.updModes fModes).field x y z = s.field x y z := rfl
@[simp] theorem updModes_flag : (s.updModes fModes).flag x y = s.flag x y := rfl
@[simp] theorem updModes_core : (s.updModes fModes).core e = s.core e := rfl
@[simp] theorem updModes_byteAt : (s.updModes fModes).byteAt x = s.byteAt x := rfl
@[simp] theorem updModes_chan : (s.updModes fModes).chan d2 = s.chan d2 := rfl
@[simp] theorem updModes_ledCh : (s.updModes fModes).ledCh ch2 = s.ledCh ch2 := rfl
@[simp] theorem updModes_blockOut : (s.updModes fModes).blockOut blk = s.blockOut blk := rfl
@[simp] theorem updModes_feature : (s.updModes fModes).feature x = s.feature x := rfl
@[simp] theorem updModes_queue : (s.updModes fModes).queue x = s.queue x := by unfold State.queue; cases queueIx x <;> rfl
@[simp] theorem updModes_addr64 : (s.updModes fModes).addr64 x = s.addr64 x := rfl
@[simp] theorem updModes_freeVal : (s.updModes fModes).freeVal = s.freeVal := rfl

/-! ### updDie -/

@[simp] theorem updDie_pending : (s.updDie d fDie).pending = s.pending := rfl
@[simp] theorem updDie_clock : (s.updDie d fDie).clock = s.clock := rfl
@[simp] theorem updDie_free : (s.updDie d fDie).free = s.free := rfl
@[simp] theorem updDie_sets : (s.updDie d fDie).sets = s.sets := rfl
@[simp] theorem updDie_words : (s.updDie d fDie).words = s.words := rfl
@[simp] theorem updDie_deviceTime : (s.updDie d fDie).deviceTime = s.deviceTime := rfl
@[simp] theorem updDie_fuses : (s.updDie d fDie).fuses = s.fuses := rfl
@[simp] theorem updDie_agreed : (s.updDie d fDie).agreed = s.agreed := rfl
@[simp] theorem updDie_cores : (s.updDie d fDie).cores = s.cores := rfl
@[simp] theorem updDie_queues : (s.updDie d fDie).queues = s.queues := rfl
@[simp] theorem updDie_waiting : (s.updDie d fDie).waiting = s.waiting := rfl
@[simp] theorem updDie_assembly : (s.updDie d fDie).assembly = s.assembly := rfl
@[simp] theorem updDie_orderTurn : (s.updDie d fDie).orderTurn = s.orderTurn := rfl
@[simp] theorem updDie_tokens : (s.updDie d fDie).tokens = s.tokens := rfl
@[simp] theorem updDie_orders : (s.updDie d fDie).orders = s.orders := rfl
@[simp] theorem updDie_accepted : (s.updDie d fDie).accepted = s.accepted := rfl
@[simp] theorem updDie_delivered : (s.updDie d fDie).delivered = s.delivered := rfl
@[simp] theorem updDie_tacks : (s.updDie d fDie).tacks = s.tacks := rfl
@[simp] theorem updDie_fired : (s.updDie d fDie).fired = s.fired := rfl
@[simp] theorem updDie_launches : (s.updDie d fDie).launches = s.launches := rfl
@[simp] theorem updDie_banks : (s.updDie d fDie).banks = s.banks := rfl
@[simp] theorem updDie_cells : (s.updDie d fDie).cells = s.cells := rfl
@[simp] theorem updDie_badParity : (s.updDie d fDie).badParity = s.badParity := rfl
@[simp] theorem updDie_modes : (s.updDie d fDie).modes = s.modes := rfl
@[simp] theorem updDie_blocks : (s.updDie d fDie).blocks = s.blocks := rfl
@[simp] theorem updDie_clockLost : (s.updDie d fDie).clockLost = s.clockLost := rfl
@[simp] theorem updDie_clockSaid : (s.updDie d fDie).clockSaid = s.clockSaid := rfl
@[simp] theorem updDie_clockTold : (s.updDie d fDie).clockTold = s.clockTold := rfl
@[simp] theorem updDie_byClock : (s.updDie d fDie).byClock = s.byClock := rfl
@[simp] theorem updDie_readmit : (s.updDie d fDie).readmit = s.readmit := rfl
@[simp] theorem updDie_miscount : (s.updDie d fDie).miscount = s.miscount := rfl
@[simp] theorem updDie_probeAt : (s.updDie d fDie).probeAt = s.probeAt := rfl
@[simp] theorem updDie_mach : (s.updDie d fDie).mach = s.mach := rfl
@[simp] theorem updDie_gate : (s.updDie d fDie).gate = s.gate := rfl
@[simp] theorem updDie_axes : (s.updDie d fDie).axes = s.axes := rfl
@[simp] theorem updDie_loop : (s.updDie d fDie).loop = s.loop := rfl
@[simp] theorem updDie_trace : (s.updDie d fDie).trace = s.trace := rfl
@[simp] theorem updDie_dram : (s.updDie d fDie).dram = s.dram := rfl
@[simp] theorem updDie_panel : (s.updDie d fDie).panel = s.panel := rfl
@[simp] theorem updDie_led : (s.updDie d fDie).led = s.led := rfl
@[simp] theorem updDie_net : (s.updDie d fDie).net = s.net := rfl
@[simp] theorem updDie_time : (s.updDie d fDie).time = s.time := rfl
@[simp] theorem updDie_hol : (s.updDie d fDie).hol = s.hol := rfl
@[simp] theorem updDie_sec : (s.updDie d fDie).sec = s.sec := rfl
@[simp] theorem updDie_polder : (s.updDie d fDie).polder = s.polder := rfl
@[simp] theorem updDie_tw : (s.updDie d fDie).tw = s.tw := rfl
@[simp] theorem updDie_merged : (s.updDie d fDie).merged = s.merged := rfl
@[simp] theorem updDie_faults : (s.updDie d fDie).faults = s.faults := rfl
@[simp] theorem updDie_word : (s.updDie d fDie).word x = s.word x := rfl
@[simp] theorem updDie_field : (s.updDie d fDie).field x y z = s.field x y z := rfl
@[simp] theorem updDie_flag : (s.updDie d fDie).flag x y = s.flag x y := rfl
@[simp] theorem updDie_core : (s.updDie d fDie).core e = s.core e := rfl
@[simp] theorem updDie_byteAt : (s.updDie d fDie).byteAt x = s.byteAt x := rfl
@[simp] theorem updDie_chan : (s.updDie d fDie).chan d2 = s.chan d2 := rfl
@[simp] theorem updDie_ledCh : (s.updDie d fDie).ledCh ch2 = s.ledCh ch2 := rfl
@[simp] theorem updDie_blockOut : (s.updDie d fDie).blockOut blk = s.blockOut blk := rfl
@[simp] theorem updDie_feature : (s.updDie d fDie).feature x = s.feature x := rfl
@[simp] theorem updDie_queue : (s.updDie d fDie).queue x = s.queue x := by unfold State.queue; cases queueIx x <;> rfl
@[simp] theorem updDie_addr64 : (s.updDie d fDie).addr64 x = s.addr64 x := rfl
@[simp] theorem updDie_freeVal : (s.updDie d fDie).freeVal = s.freeVal := rfl

/-! ### updMach -/

@[simp] theorem updMach_pending : (s.updMach ax fMach).pending = s.pending := rfl
@[simp] theorem updMach_clock : (s.updMach ax fMach).clock = s.clock := rfl
@[simp] theorem updMach_free : (s.updMach ax fMach).free = s.free := rfl
@[simp] theorem updMach_sets : (s.updMach ax fMach).sets = s.sets := rfl
@[simp] theorem updMach_words : (s.updMach ax fMach).words = s.words := rfl
@[simp] theorem updMach_deviceTime : (s.updMach ax fMach).deviceTime = s.deviceTime := rfl
@[simp] theorem updMach_fuses : (s.updMach ax fMach).fuses = s.fuses := rfl
@[simp] theorem updMach_agreed : (s.updMach ax fMach).agreed = s.agreed := rfl
@[simp] theorem updMach_cores : (s.updMach ax fMach).cores = s.cores := rfl
@[simp] theorem updMach_queues : (s.updMach ax fMach).queues = s.queues := rfl
@[simp] theorem updMach_waiting : (s.updMach ax fMach).waiting = s.waiting := rfl
@[simp] theorem updMach_assembly : (s.updMach ax fMach).assembly = s.assembly := rfl
@[simp] theorem updMach_orderTurn : (s.updMach ax fMach).orderTurn = s.orderTurn := rfl
@[simp] theorem updMach_tokens : (s.updMach ax fMach).tokens = s.tokens := rfl
@[simp] theorem updMach_orders : (s.updMach ax fMach).orders = s.orders := rfl
@[simp] theorem updMach_accepted : (s.updMach ax fMach).accepted = s.accepted := rfl
@[simp] theorem updMach_delivered : (s.updMach ax fMach).delivered = s.delivered := rfl
@[simp] theorem updMach_tacks : (s.updMach ax fMach).tacks = s.tacks := rfl
@[simp] theorem updMach_fired : (s.updMach ax fMach).fired = s.fired := rfl
@[simp] theorem updMach_launches : (s.updMach ax fMach).launches = s.launches := rfl
@[simp] theorem updMach_banks : (s.updMach ax fMach).banks = s.banks := rfl
@[simp] theorem updMach_cells : (s.updMach ax fMach).cells = s.cells := rfl
@[simp] theorem updMach_badParity : (s.updMach ax fMach).badParity = s.badParity := rfl
@[simp] theorem updMach_modes : (s.updMach ax fMach).modes = s.modes := rfl
@[simp] theorem updMach_dies : (s.updMach ax fMach).dies = s.dies := rfl
@[simp] theorem updMach_blocks : (s.updMach ax fMach).blocks = s.blocks := rfl
@[simp] theorem updMach_clockLost : (s.updMach ax fMach).clockLost = s.clockLost := rfl
@[simp] theorem updMach_clockSaid : (s.updMach ax fMach).clockSaid = s.clockSaid := rfl
@[simp] theorem updMach_clockTold : (s.updMach ax fMach).clockTold = s.clockTold := rfl
@[simp] theorem updMach_byClock : (s.updMach ax fMach).byClock = s.byClock := rfl
@[simp] theorem updMach_readmit : (s.updMach ax fMach).readmit = s.readmit := rfl
@[simp] theorem updMach_miscount : (s.updMach ax fMach).miscount = s.miscount := rfl
@[simp] theorem updMach_probeAt : (s.updMach ax fMach).probeAt = s.probeAt := rfl
@[simp] theorem updMach_gate : (s.updMach ax fMach).gate = s.gate := rfl
@[simp] theorem updMach_axes : (s.updMach ax fMach).axes = s.axes := rfl
@[simp] theorem updMach_loop : (s.updMach ax fMach).loop = s.loop := rfl
@[simp] theorem updMach_trace : (s.updMach ax fMach).trace = s.trace := rfl
@[simp] theorem updMach_dram : (s.updMach ax fMach).dram = s.dram := rfl
@[simp] theorem updMach_panel : (s.updMach ax fMach).panel = s.panel := rfl
@[simp] theorem updMach_led : (s.updMach ax fMach).led = s.led := rfl
@[simp] theorem updMach_net : (s.updMach ax fMach).net = s.net := rfl
@[simp] theorem updMach_time : (s.updMach ax fMach).time = s.time := rfl
@[simp] theorem updMach_hol : (s.updMach ax fMach).hol = s.hol := rfl
@[simp] theorem updMach_sec : (s.updMach ax fMach).sec = s.sec := rfl
@[simp] theorem updMach_polder : (s.updMach ax fMach).polder = s.polder := rfl
@[simp] theorem updMach_tw : (s.updMach ax fMach).tw = s.tw := rfl
@[simp] theorem updMach_merged : (s.updMach ax fMach).merged = s.merged := rfl
@[simp] theorem updMach_faults : (s.updMach ax fMach).faults = s.faults := rfl
@[simp] theorem updMach_word : (s.updMach ax fMach).word x = s.word x := rfl
@[simp] theorem updMach_field : (s.updMach ax fMach).field x y z = s.field x y z := rfl
@[simp] theorem updMach_flag : (s.updMach ax fMach).flag x y = s.flag x y := rfl
@[simp] theorem updMach_core : (s.updMach ax fMach).core e = s.core e := rfl
@[simp] theorem updMach_byteAt : (s.updMach ax fMach).byteAt x = s.byteAt x := rfl
@[simp] theorem updMach_chan : (s.updMach ax fMach).chan d2 = s.chan d2 := rfl
@[simp] theorem updMach_ledCh : (s.updMach ax fMach).ledCh ch2 = s.ledCh ch2 := rfl
@[simp] theorem updMach_blockOut : (s.updMach ax fMach).blockOut blk = s.blockOut blk := rfl
@[simp] theorem updMach_feature : (s.updMach ax fMach).feature x = s.feature x := rfl
@[simp] theorem updMach_queue : (s.updMach ax fMach).queue x = s.queue x := by unfold State.queue; cases queueIx x <;> rfl
@[simp] theorem updMach_addr64 : (s.updMach ax fMach).addr64 x = s.addr64 x := rfl
@[simp] theorem updMach_freeVal : (s.updMach ax fMach).freeVal = s.freeVal := rfl

/-! ### updBrake -/

@[simp] theorem updBrake_pending : (s.updBrake ax fBrake).pending = s.pending := rfl
@[simp] theorem updBrake_clock : (s.updBrake ax fBrake).clock = s.clock := rfl
@[simp] theorem updBrake_free : (s.updBrake ax fBrake).free = s.free := rfl
@[simp] theorem updBrake_sets : (s.updBrake ax fBrake).sets = s.sets := rfl
@[simp] theorem updBrake_words : (s.updBrake ax fBrake).words = s.words := rfl
@[simp] theorem updBrake_deviceTime : (s.updBrake ax fBrake).deviceTime = s.deviceTime := rfl
@[simp] theorem updBrake_fuses : (s.updBrake ax fBrake).fuses = s.fuses := rfl
@[simp] theorem updBrake_agreed : (s.updBrake ax fBrake).agreed = s.agreed := rfl
@[simp] theorem updBrake_cores : (s.updBrake ax fBrake).cores = s.cores := rfl
@[simp] theorem updBrake_queues : (s.updBrake ax fBrake).queues = s.queues := rfl
@[simp] theorem updBrake_waiting : (s.updBrake ax fBrake).waiting = s.waiting := rfl
@[simp] theorem updBrake_assembly : (s.updBrake ax fBrake).assembly = s.assembly := rfl
@[simp] theorem updBrake_orderTurn : (s.updBrake ax fBrake).orderTurn = s.orderTurn := rfl
@[simp] theorem updBrake_tokens : (s.updBrake ax fBrake).tokens = s.tokens := rfl
@[simp] theorem updBrake_orders : (s.updBrake ax fBrake).orders = s.orders := rfl
@[simp] theorem updBrake_accepted : (s.updBrake ax fBrake).accepted = s.accepted := rfl
@[simp] theorem updBrake_delivered : (s.updBrake ax fBrake).delivered = s.delivered := rfl
@[simp] theorem updBrake_tacks : (s.updBrake ax fBrake).tacks = s.tacks := rfl
@[simp] theorem updBrake_fired : (s.updBrake ax fBrake).fired = s.fired := rfl
@[simp] theorem updBrake_launches : (s.updBrake ax fBrake).launches = s.launches := rfl
@[simp] theorem updBrake_banks : (s.updBrake ax fBrake).banks = s.banks := rfl
@[simp] theorem updBrake_cells : (s.updBrake ax fBrake).cells = s.cells := rfl
@[simp] theorem updBrake_badParity : (s.updBrake ax fBrake).badParity = s.badParity := rfl
@[simp] theorem updBrake_modes : (s.updBrake ax fBrake).modes = s.modes := rfl
@[simp] theorem updBrake_dies : (s.updBrake ax fBrake).dies = s.dies := rfl
@[simp] theorem updBrake_blocks : (s.updBrake ax fBrake).blocks = s.blocks := rfl
@[simp] theorem updBrake_clockLost : (s.updBrake ax fBrake).clockLost = s.clockLost := rfl
@[simp] theorem updBrake_clockSaid : (s.updBrake ax fBrake).clockSaid = s.clockSaid := rfl
@[simp] theorem updBrake_clockTold : (s.updBrake ax fBrake).clockTold = s.clockTold := rfl
@[simp] theorem updBrake_byClock : (s.updBrake ax fBrake).byClock = s.byClock := rfl
@[simp] theorem updBrake_readmit : (s.updBrake ax fBrake).readmit = s.readmit := rfl
@[simp] theorem updBrake_miscount : (s.updBrake ax fBrake).miscount = s.miscount := rfl
@[simp] theorem updBrake_probeAt : (s.updBrake ax fBrake).probeAt = s.probeAt := rfl
@[simp] theorem updBrake_gate : (s.updBrake ax fBrake).gate = s.gate := rfl
@[simp] theorem updBrake_axes : (s.updBrake ax fBrake).axes = s.axes := rfl
@[simp] theorem updBrake_loop : (s.updBrake ax fBrake).loop = s.loop := rfl
@[simp] theorem updBrake_trace : (s.updBrake ax fBrake).trace = s.trace := rfl
@[simp] theorem updBrake_dram : (s.updBrake ax fBrake).dram = s.dram := rfl
@[simp] theorem updBrake_panel : (s.updBrake ax fBrake).panel = s.panel := rfl
@[simp] theorem updBrake_led : (s.updBrake ax fBrake).led = s.led := rfl
@[simp] theorem updBrake_net : (s.updBrake ax fBrake).net = s.net := rfl
@[simp] theorem updBrake_time : (s.updBrake ax fBrake).time = s.time := rfl
@[simp] theorem updBrake_hol : (s.updBrake ax fBrake).hol = s.hol := rfl
@[simp] theorem updBrake_sec : (s.updBrake ax fBrake).sec = s.sec := rfl
@[simp] theorem updBrake_polder : (s.updBrake ax fBrake).polder = s.polder := rfl
@[simp] theorem updBrake_tw : (s.updBrake ax fBrake).tw = s.tw := rfl
@[simp] theorem updBrake_merged : (s.updBrake ax fBrake).merged = s.merged := rfl
@[simp] theorem updBrake_faults : (s.updBrake ax fBrake).faults = s.faults := rfl
@[simp] theorem updBrake_word : (s.updBrake ax fBrake).word x = s.word x := rfl
@[simp] theorem updBrake_field : (s.updBrake ax fBrake).field x y z = s.field x y z := rfl
@[simp] theorem updBrake_flag : (s.updBrake ax fBrake).flag x y = s.flag x y := rfl
@[simp] theorem updBrake_core : (s.updBrake ax fBrake).core e = s.core e := rfl
@[simp] theorem updBrake_byteAt : (s.updBrake ax fBrake).byteAt x = s.byteAt x := rfl
@[simp] theorem updBrake_chan : (s.updBrake ax fBrake).chan d2 = s.chan d2 := rfl
@[simp] theorem updBrake_ledCh : (s.updBrake ax fBrake).ledCh ch2 = s.ledCh ch2 := rfl
@[simp] theorem updBrake_blockOut : (s.updBrake ax fBrake).blockOut blk = s.blockOut blk := rfl
@[simp] theorem updBrake_feature : (s.updBrake ax fBrake).feature x = s.feature x := rfl
@[simp] theorem updBrake_queue : (s.updBrake ax fBrake).queue x = s.queue x := by unfold State.queue; cases queueIx x <;> rfl
@[simp] theorem updBrake_addr64 : (s.updBrake ax fBrake).addr64 x = s.addr64 x := rfl
@[simp] theorem updBrake_freeVal : (s.updBrake ax fBrake).freeVal = s.freeVal := rfl

/-! ### updGate -/

@[simp] theorem updGate_pending : (s.updGate ax fGate).pending = s.pending := rfl
@[simp] theorem updGate_clock : (s.updGate ax fGate).clock = s.clock := rfl
@[simp] theorem updGate_free : (s.updGate ax fGate).free = s.free := rfl
@[simp] theorem updGate_sets : (s.updGate ax fGate).sets = s.sets := rfl
@[simp] theorem updGate_words : (s.updGate ax fGate).words = s.words := rfl
@[simp] theorem updGate_deviceTime : (s.updGate ax fGate).deviceTime = s.deviceTime := rfl
@[simp] theorem updGate_fuses : (s.updGate ax fGate).fuses = s.fuses := rfl
@[simp] theorem updGate_agreed : (s.updGate ax fGate).agreed = s.agreed := rfl
@[simp] theorem updGate_cores : (s.updGate ax fGate).cores = s.cores := rfl
@[simp] theorem updGate_queues : (s.updGate ax fGate).queues = s.queues := rfl
@[simp] theorem updGate_waiting : (s.updGate ax fGate).waiting = s.waiting := rfl
@[simp] theorem updGate_assembly : (s.updGate ax fGate).assembly = s.assembly := rfl
@[simp] theorem updGate_orderTurn : (s.updGate ax fGate).orderTurn = s.orderTurn := rfl
@[simp] theorem updGate_tokens : (s.updGate ax fGate).tokens = s.tokens := rfl
@[simp] theorem updGate_orders : (s.updGate ax fGate).orders = s.orders := rfl
@[simp] theorem updGate_accepted : (s.updGate ax fGate).accepted = s.accepted := rfl
@[simp] theorem updGate_delivered : (s.updGate ax fGate).delivered = s.delivered := rfl
@[simp] theorem updGate_tacks : (s.updGate ax fGate).tacks = s.tacks := rfl
@[simp] theorem updGate_fired : (s.updGate ax fGate).fired = s.fired := rfl
@[simp] theorem updGate_launches : (s.updGate ax fGate).launches = s.launches := rfl
@[simp] theorem updGate_banks : (s.updGate ax fGate).banks = s.banks := rfl
@[simp] theorem updGate_cells : (s.updGate ax fGate).cells = s.cells := rfl
@[simp] theorem updGate_badParity : (s.updGate ax fGate).badParity = s.badParity := rfl
@[simp] theorem updGate_modes : (s.updGate ax fGate).modes = s.modes := rfl
@[simp] theorem updGate_dies : (s.updGate ax fGate).dies = s.dies := rfl
@[simp] theorem updGate_blocks : (s.updGate ax fGate).blocks = s.blocks := rfl
@[simp] theorem updGate_clockLost : (s.updGate ax fGate).clockLost = s.clockLost := rfl
@[simp] theorem updGate_clockSaid : (s.updGate ax fGate).clockSaid = s.clockSaid := rfl
@[simp] theorem updGate_clockTold : (s.updGate ax fGate).clockTold = s.clockTold := rfl
@[simp] theorem updGate_byClock : (s.updGate ax fGate).byClock = s.byClock := rfl
@[simp] theorem updGate_readmit : (s.updGate ax fGate).readmit = s.readmit := rfl
@[simp] theorem updGate_miscount : (s.updGate ax fGate).miscount = s.miscount := rfl
@[simp] theorem updGate_probeAt : (s.updGate ax fGate).probeAt = s.probeAt := rfl
@[simp] theorem updGate_mach : (s.updGate ax fGate).mach = s.mach := rfl
@[simp] theorem updGate_axes : (s.updGate ax fGate).axes = s.axes := rfl
@[simp] theorem updGate_loop : (s.updGate ax fGate).loop = s.loop := rfl
@[simp] theorem updGate_trace : (s.updGate ax fGate).trace = s.trace := rfl
@[simp] theorem updGate_dram : (s.updGate ax fGate).dram = s.dram := rfl
@[simp] theorem updGate_panel : (s.updGate ax fGate).panel = s.panel := rfl
@[simp] theorem updGate_led : (s.updGate ax fGate).led = s.led := rfl
@[simp] theorem updGate_net : (s.updGate ax fGate).net = s.net := rfl
@[simp] theorem updGate_time : (s.updGate ax fGate).time = s.time := rfl
@[simp] theorem updGate_hol : (s.updGate ax fGate).hol = s.hol := rfl
@[simp] theorem updGate_sec : (s.updGate ax fGate).sec = s.sec := rfl
@[simp] theorem updGate_polder : (s.updGate ax fGate).polder = s.polder := rfl
@[simp] theorem updGate_tw : (s.updGate ax fGate).tw = s.tw := rfl
@[simp] theorem updGate_merged : (s.updGate ax fGate).merged = s.merged := rfl
@[simp] theorem updGate_faults : (s.updGate ax fGate).faults = s.faults := rfl
@[simp] theorem updGate_word : (s.updGate ax fGate).word x = s.word x := rfl
@[simp] theorem updGate_field : (s.updGate ax fGate).field x y z = s.field x y z := rfl
@[simp] theorem updGate_flag : (s.updGate ax fGate).flag x y = s.flag x y := rfl
@[simp] theorem updGate_core : (s.updGate ax fGate).core e = s.core e := rfl
@[simp] theorem updGate_byteAt : (s.updGate ax fGate).byteAt x = s.byteAt x := rfl
@[simp] theorem updGate_chan : (s.updGate ax fGate).chan d2 = s.chan d2 := rfl
@[simp] theorem updGate_ledCh : (s.updGate ax fGate).ledCh ch2 = s.ledCh ch2 := rfl
@[simp] theorem updGate_blockOut : (s.updGate ax fGate).blockOut blk = s.blockOut blk := rfl
@[simp] theorem updGate_feature : (s.updGate ax fGate).feature x = s.feature x := rfl
@[simp] theorem updGate_queue : (s.updGate ax fGate).queue x = s.queue x := by unfold State.queue; cases queueIx x <;> rfl
@[simp] theorem updGate_addr64 : (s.updGate ax fGate).addr64 x = s.addr64 x := rfl
@[simp] theorem updGate_freeVal : (s.updGate ax fGate).freeVal = s.freeVal := rfl

/-! ### updAxis -/

@[simp] theorem updAxis_pending : (s.updAxis ax fAxis).pending = s.pending := rfl
@[simp] theorem updAxis_clock : (s.updAxis ax fAxis).clock = s.clock := rfl
@[simp] theorem updAxis_free : (s.updAxis ax fAxis).free = s.free := rfl
@[simp] theorem updAxis_sets : (s.updAxis ax fAxis).sets = s.sets := rfl
@[simp] theorem updAxis_words : (s.updAxis ax fAxis).words = s.words := rfl
@[simp] theorem updAxis_deviceTime : (s.updAxis ax fAxis).deviceTime = s.deviceTime := rfl
@[simp] theorem updAxis_fuses : (s.updAxis ax fAxis).fuses = s.fuses := rfl
@[simp] theorem updAxis_agreed : (s.updAxis ax fAxis).agreed = s.agreed := rfl
@[simp] theorem updAxis_cores : (s.updAxis ax fAxis).cores = s.cores := rfl
@[simp] theorem updAxis_queues : (s.updAxis ax fAxis).queues = s.queues := rfl
@[simp] theorem updAxis_waiting : (s.updAxis ax fAxis).waiting = s.waiting := rfl
@[simp] theorem updAxis_assembly : (s.updAxis ax fAxis).assembly = s.assembly := rfl
@[simp] theorem updAxis_orderTurn : (s.updAxis ax fAxis).orderTurn = s.orderTurn := rfl
@[simp] theorem updAxis_tokens : (s.updAxis ax fAxis).tokens = s.tokens := rfl
@[simp] theorem updAxis_orders : (s.updAxis ax fAxis).orders = s.orders := rfl
@[simp] theorem updAxis_accepted : (s.updAxis ax fAxis).accepted = s.accepted := rfl
@[simp] theorem updAxis_delivered : (s.updAxis ax fAxis).delivered = s.delivered := rfl
@[simp] theorem updAxis_tacks : (s.updAxis ax fAxis).tacks = s.tacks := rfl
@[simp] theorem updAxis_fired : (s.updAxis ax fAxis).fired = s.fired := rfl
@[simp] theorem updAxis_launches : (s.updAxis ax fAxis).launches = s.launches := rfl
@[simp] theorem updAxis_banks : (s.updAxis ax fAxis).banks = s.banks := rfl
@[simp] theorem updAxis_cells : (s.updAxis ax fAxis).cells = s.cells := rfl
@[simp] theorem updAxis_badParity : (s.updAxis ax fAxis).badParity = s.badParity := rfl
@[simp] theorem updAxis_modes : (s.updAxis ax fAxis).modes = s.modes := rfl
@[simp] theorem updAxis_dies : (s.updAxis ax fAxis).dies = s.dies := rfl
@[simp] theorem updAxis_blocks : (s.updAxis ax fAxis).blocks = s.blocks := rfl
@[simp] theorem updAxis_clockLost : (s.updAxis ax fAxis).clockLost = s.clockLost := rfl
@[simp] theorem updAxis_clockSaid : (s.updAxis ax fAxis).clockSaid = s.clockSaid := rfl
@[simp] theorem updAxis_clockTold : (s.updAxis ax fAxis).clockTold = s.clockTold := rfl
@[simp] theorem updAxis_byClock : (s.updAxis ax fAxis).byClock = s.byClock := rfl
@[simp] theorem updAxis_readmit : (s.updAxis ax fAxis).readmit = s.readmit := rfl
@[simp] theorem updAxis_miscount : (s.updAxis ax fAxis).miscount = s.miscount := rfl
@[simp] theorem updAxis_probeAt : (s.updAxis ax fAxis).probeAt = s.probeAt := rfl
@[simp] theorem updAxis_mach : (s.updAxis ax fAxis).mach = s.mach := rfl
@[simp] theorem updAxis_gate : (s.updAxis ax fAxis).gate = s.gate := rfl
@[simp] theorem updAxis_loop : (s.updAxis ax fAxis).loop = s.loop := rfl
@[simp] theorem updAxis_trace : (s.updAxis ax fAxis).trace = s.trace := rfl
@[simp] theorem updAxis_dram : (s.updAxis ax fAxis).dram = s.dram := rfl
@[simp] theorem updAxis_panel : (s.updAxis ax fAxis).panel = s.panel := rfl
@[simp] theorem updAxis_led : (s.updAxis ax fAxis).led = s.led := rfl
@[simp] theorem updAxis_net : (s.updAxis ax fAxis).net = s.net := rfl
@[simp] theorem updAxis_time : (s.updAxis ax fAxis).time = s.time := rfl
@[simp] theorem updAxis_hol : (s.updAxis ax fAxis).hol = s.hol := rfl
@[simp] theorem updAxis_sec : (s.updAxis ax fAxis).sec = s.sec := rfl
@[simp] theorem updAxis_polder : (s.updAxis ax fAxis).polder = s.polder := rfl
@[simp] theorem updAxis_tw : (s.updAxis ax fAxis).tw = s.tw := rfl
@[simp] theorem updAxis_merged : (s.updAxis ax fAxis).merged = s.merged := rfl
@[simp] theorem updAxis_faults : (s.updAxis ax fAxis).faults = s.faults := rfl
@[simp] theorem updAxis_word : (s.updAxis ax fAxis).word x = s.word x := rfl
@[simp] theorem updAxis_field : (s.updAxis ax fAxis).field x y z = s.field x y z := rfl
@[simp] theorem updAxis_flag : (s.updAxis ax fAxis).flag x y = s.flag x y := rfl
@[simp] theorem updAxis_core : (s.updAxis ax fAxis).core e = s.core e := rfl
@[simp] theorem updAxis_byteAt : (s.updAxis ax fAxis).byteAt x = s.byteAt x := rfl
@[simp] theorem updAxis_chan : (s.updAxis ax fAxis).chan d2 = s.chan d2 := rfl
@[simp] theorem updAxis_ledCh : (s.updAxis ax fAxis).ledCh ch2 = s.ledCh ch2 := rfl
@[simp] theorem updAxis_blockOut : (s.updAxis ax fAxis).blockOut blk = s.blockOut blk := rfl
@[simp] theorem updAxis_feature : (s.updAxis ax fAxis).feature x = s.feature x := rfl
@[simp] theorem updAxis_queue : (s.updAxis ax fAxis).queue x = s.queue x := by unfold State.queue; cases queueIx x <;> rfl
@[simp] theorem updAxis_addr64 : (s.updAxis ax fAxis).addr64 x = s.addr64 x := rfl
@[simp] theorem updAxis_freeVal : (s.updAxis ax fAxis).freeVal = s.freeVal := rfl

/-! ### updSlot -/

@[simp] theorem updSlot_pending : (s.updSlot k24 fSlot).pending = s.pending := rfl
@[simp] theorem updSlot_clock : (s.updSlot k24 fSlot).clock = s.clock := rfl
@[simp] theorem updSlot_free : (s.updSlot k24 fSlot).free = s.free := rfl
@[simp] theorem updSlot_sets : (s.updSlot k24 fSlot).sets = s.sets := rfl
@[simp] theorem updSlot_words : (s.updSlot k24 fSlot).words = s.words := rfl
@[simp] theorem updSlot_deviceTime : (s.updSlot k24 fSlot).deviceTime = s.deviceTime := rfl
@[simp] theorem updSlot_fuses : (s.updSlot k24 fSlot).fuses = s.fuses := rfl
@[simp] theorem updSlot_agreed : (s.updSlot k24 fSlot).agreed = s.agreed := rfl
@[simp] theorem updSlot_cores : (s.updSlot k24 fSlot).cores = s.cores := rfl
@[simp] theorem updSlot_queues : (s.updSlot k24 fSlot).queues = s.queues := rfl
@[simp] theorem updSlot_waiting : (s.updSlot k24 fSlot).waiting = s.waiting := rfl
@[simp] theorem updSlot_assembly : (s.updSlot k24 fSlot).assembly = s.assembly := rfl
@[simp] theorem updSlot_orderTurn : (s.updSlot k24 fSlot).orderTurn = s.orderTurn := rfl
@[simp] theorem updSlot_tokens : (s.updSlot k24 fSlot).tokens = s.tokens := rfl
@[simp] theorem updSlot_orders : (s.updSlot k24 fSlot).orders = s.orders := rfl
@[simp] theorem updSlot_accepted : (s.updSlot k24 fSlot).accepted = s.accepted := rfl
@[simp] theorem updSlot_delivered : (s.updSlot k24 fSlot).delivered = s.delivered := rfl
@[simp] theorem updSlot_tacks : (s.updSlot k24 fSlot).tacks = s.tacks := rfl
@[simp] theorem updSlot_fired : (s.updSlot k24 fSlot).fired = s.fired := rfl
@[simp] theorem updSlot_launches : (s.updSlot k24 fSlot).launches = s.launches := rfl
@[simp] theorem updSlot_banks : (s.updSlot k24 fSlot).banks = s.banks := rfl
@[simp] theorem updSlot_cells : (s.updSlot k24 fSlot).cells = s.cells := rfl
@[simp] theorem updSlot_badParity : (s.updSlot k24 fSlot).badParity = s.badParity := rfl
@[simp] theorem updSlot_modes : (s.updSlot k24 fSlot).modes = s.modes := rfl
@[simp] theorem updSlot_dies : (s.updSlot k24 fSlot).dies = s.dies := rfl
@[simp] theorem updSlot_blocks : (s.updSlot k24 fSlot).blocks = s.blocks := rfl
@[simp] theorem updSlot_clockLost : (s.updSlot k24 fSlot).clockLost = s.clockLost := rfl
@[simp] theorem updSlot_clockSaid : (s.updSlot k24 fSlot).clockSaid = s.clockSaid := rfl
@[simp] theorem updSlot_clockTold : (s.updSlot k24 fSlot).clockTold = s.clockTold := rfl
@[simp] theorem updSlot_byClock : (s.updSlot k24 fSlot).byClock = s.byClock := rfl
@[simp] theorem updSlot_readmit : (s.updSlot k24 fSlot).readmit = s.readmit := rfl
@[simp] theorem updSlot_miscount : (s.updSlot k24 fSlot).miscount = s.miscount := rfl
@[simp] theorem updSlot_probeAt : (s.updSlot k24 fSlot).probeAt = s.probeAt := rfl
@[simp] theorem updSlot_mach : (s.updSlot k24 fSlot).mach = s.mach := rfl
@[simp] theorem updSlot_gate : (s.updSlot k24 fSlot).gate = s.gate := rfl
@[simp] theorem updSlot_axes : (s.updSlot k24 fSlot).axes = s.axes := rfl
@[simp] theorem updSlot_trace : (s.updSlot k24 fSlot).trace = s.trace := rfl
@[simp] theorem updSlot_dram : (s.updSlot k24 fSlot).dram = s.dram := rfl
@[simp] theorem updSlot_panel : (s.updSlot k24 fSlot).panel = s.panel := rfl
@[simp] theorem updSlot_led : (s.updSlot k24 fSlot).led = s.led := rfl
@[simp] theorem updSlot_net : (s.updSlot k24 fSlot).net = s.net := rfl
@[simp] theorem updSlot_time : (s.updSlot k24 fSlot).time = s.time := rfl
@[simp] theorem updSlot_hol : (s.updSlot k24 fSlot).hol = s.hol := rfl
@[simp] theorem updSlot_sec : (s.updSlot k24 fSlot).sec = s.sec := rfl
@[simp] theorem updSlot_polder : (s.updSlot k24 fSlot).polder = s.polder := rfl
@[simp] theorem updSlot_tw : (s.updSlot k24 fSlot).tw = s.tw := rfl
@[simp] theorem updSlot_merged : (s.updSlot k24 fSlot).merged = s.merged := rfl
@[simp] theorem updSlot_faults : (s.updSlot k24 fSlot).faults = s.faults := rfl
@[simp] theorem updSlot_word : (s.updSlot k24 fSlot).word x = s.word x := rfl
@[simp] theorem updSlot_field : (s.updSlot k24 fSlot).field x y z = s.field x y z := rfl
@[simp] theorem updSlot_flag : (s.updSlot k24 fSlot).flag x y = s.flag x y := rfl
@[simp] theorem updSlot_core : (s.updSlot k24 fSlot).core e = s.core e := rfl
@[simp] theorem updSlot_byteAt : (s.updSlot k24 fSlot).byteAt x = s.byteAt x := rfl
@[simp] theorem updSlot_chan : (s.updSlot k24 fSlot).chan d2 = s.chan d2 := rfl
@[simp] theorem updSlot_ledCh : (s.updSlot k24 fSlot).ledCh ch2 = s.ledCh ch2 := rfl
@[simp] theorem updSlot_blockOut : (s.updSlot k24 fSlot).blockOut blk = s.blockOut blk := rfl
@[simp] theorem updSlot_feature : (s.updSlot k24 fSlot).feature x = s.feature x := rfl
@[simp] theorem updSlot_queue : (s.updSlot k24 fSlot).queue x = s.queue x := by unfold State.queue; cases queueIx x <;> rfl
@[simp] theorem updSlot_addr64 : (s.updSlot k24 fSlot).addr64 x = s.addr64 x := rfl
@[simp] theorem updSlot_freeVal : (s.updSlot k24 fSlot).freeVal = s.freeVal := rfl

/-! ### updTrace -/

@[simp] theorem updTrace_pending : (s.updTrace k8 fTrace).pending = s.pending := rfl
@[simp] theorem updTrace_clock : (s.updTrace k8 fTrace).clock = s.clock := rfl
@[simp] theorem updTrace_free : (s.updTrace k8 fTrace).free = s.free := rfl
@[simp] theorem updTrace_sets : (s.updTrace k8 fTrace).sets = s.sets := rfl
@[simp] theorem updTrace_words : (s.updTrace k8 fTrace).words = s.words := rfl
@[simp] theorem updTrace_deviceTime : (s.updTrace k8 fTrace).deviceTime = s.deviceTime := rfl
@[simp] theorem updTrace_fuses : (s.updTrace k8 fTrace).fuses = s.fuses := rfl
@[simp] theorem updTrace_agreed : (s.updTrace k8 fTrace).agreed = s.agreed := rfl
@[simp] theorem updTrace_cores : (s.updTrace k8 fTrace).cores = s.cores := rfl
@[simp] theorem updTrace_queues : (s.updTrace k8 fTrace).queues = s.queues := rfl
@[simp] theorem updTrace_waiting : (s.updTrace k8 fTrace).waiting = s.waiting := rfl
@[simp] theorem updTrace_assembly : (s.updTrace k8 fTrace).assembly = s.assembly := rfl
@[simp] theorem updTrace_orderTurn : (s.updTrace k8 fTrace).orderTurn = s.orderTurn := rfl
@[simp] theorem updTrace_tokens : (s.updTrace k8 fTrace).tokens = s.tokens := rfl
@[simp] theorem updTrace_orders : (s.updTrace k8 fTrace).orders = s.orders := rfl
@[simp] theorem updTrace_accepted : (s.updTrace k8 fTrace).accepted = s.accepted := rfl
@[simp] theorem updTrace_delivered : (s.updTrace k8 fTrace).delivered = s.delivered := rfl
@[simp] theorem updTrace_tacks : (s.updTrace k8 fTrace).tacks = s.tacks := rfl
@[simp] theorem updTrace_fired : (s.updTrace k8 fTrace).fired = s.fired := rfl
@[simp] theorem updTrace_launches : (s.updTrace k8 fTrace).launches = s.launches := rfl
@[simp] theorem updTrace_banks : (s.updTrace k8 fTrace).banks = s.banks := rfl
@[simp] theorem updTrace_cells : (s.updTrace k8 fTrace).cells = s.cells := rfl
@[simp] theorem updTrace_badParity : (s.updTrace k8 fTrace).badParity = s.badParity := rfl
@[simp] theorem updTrace_modes : (s.updTrace k8 fTrace).modes = s.modes := rfl
@[simp] theorem updTrace_dies : (s.updTrace k8 fTrace).dies = s.dies := rfl
@[simp] theorem updTrace_blocks : (s.updTrace k8 fTrace).blocks = s.blocks := rfl
@[simp] theorem updTrace_clockLost : (s.updTrace k8 fTrace).clockLost = s.clockLost := rfl
@[simp] theorem updTrace_clockSaid : (s.updTrace k8 fTrace).clockSaid = s.clockSaid := rfl
@[simp] theorem updTrace_clockTold : (s.updTrace k8 fTrace).clockTold = s.clockTold := rfl
@[simp] theorem updTrace_byClock : (s.updTrace k8 fTrace).byClock = s.byClock := rfl
@[simp] theorem updTrace_readmit : (s.updTrace k8 fTrace).readmit = s.readmit := rfl
@[simp] theorem updTrace_miscount : (s.updTrace k8 fTrace).miscount = s.miscount := rfl
@[simp] theorem updTrace_probeAt : (s.updTrace k8 fTrace).probeAt = s.probeAt := rfl
@[simp] theorem updTrace_mach : (s.updTrace k8 fTrace).mach = s.mach := rfl
@[simp] theorem updTrace_gate : (s.updTrace k8 fTrace).gate = s.gate := rfl
@[simp] theorem updTrace_axes : (s.updTrace k8 fTrace).axes = s.axes := rfl
@[simp] theorem updTrace_loop : (s.updTrace k8 fTrace).loop = s.loop := rfl
@[simp] theorem updTrace_dram : (s.updTrace k8 fTrace).dram = s.dram := rfl
@[simp] theorem updTrace_panel : (s.updTrace k8 fTrace).panel = s.panel := rfl
@[simp] theorem updTrace_led : (s.updTrace k8 fTrace).led = s.led := rfl
@[simp] theorem updTrace_net : (s.updTrace k8 fTrace).net = s.net := rfl
@[simp] theorem updTrace_time : (s.updTrace k8 fTrace).time = s.time := rfl
@[simp] theorem updTrace_hol : (s.updTrace k8 fTrace).hol = s.hol := rfl
@[simp] theorem updTrace_sec : (s.updTrace k8 fTrace).sec = s.sec := rfl
@[simp] theorem updTrace_polder : (s.updTrace k8 fTrace).polder = s.polder := rfl
@[simp] theorem updTrace_tw : (s.updTrace k8 fTrace).tw = s.tw := rfl
@[simp] theorem updTrace_merged : (s.updTrace k8 fTrace).merged = s.merged := rfl
@[simp] theorem updTrace_faults : (s.updTrace k8 fTrace).faults = s.faults := rfl
@[simp] theorem updTrace_word : (s.updTrace k8 fTrace).word x = s.word x := rfl
@[simp] theorem updTrace_field : (s.updTrace k8 fTrace).field x y z = s.field x y z := rfl
@[simp] theorem updTrace_flag : (s.updTrace k8 fTrace).flag x y = s.flag x y := rfl
@[simp] theorem updTrace_core : (s.updTrace k8 fTrace).core e = s.core e := rfl
@[simp] theorem updTrace_byteAt : (s.updTrace k8 fTrace).byteAt x = s.byteAt x := rfl
@[simp] theorem updTrace_chan : (s.updTrace k8 fTrace).chan d2 = s.chan d2 := rfl
@[simp] theorem updTrace_ledCh : (s.updTrace k8 fTrace).ledCh ch2 = s.ledCh ch2 := rfl
@[simp] theorem updTrace_blockOut : (s.updTrace k8 fTrace).blockOut blk = s.blockOut blk := rfl
@[simp] theorem updTrace_feature : (s.updTrace k8 fTrace).feature x = s.feature x := rfl
@[simp] theorem updTrace_queue : (s.updTrace k8 fTrace).queue x = s.queue x := by unfold State.queue; cases queueIx x <;> rfl
@[simp] theorem updTrace_addr64 : (s.updTrace k8 fTrace).addr64 x = s.addr64 x := rfl
@[simp] theorem updTrace_freeVal : (s.updTrace k8 fTrace).freeVal = s.freeVal := rfl

/-! ### updChan -/

@[simp] theorem updChan_pending : (s.updChan d fChan).pending = s.pending := rfl
@[simp] theorem updChan_clock : (s.updChan d fChan).clock = s.clock := rfl
@[simp] theorem updChan_free : (s.updChan d fChan).free = s.free := rfl
@[simp] theorem updChan_sets : (s.updChan d fChan).sets = s.sets := rfl
@[simp] theorem updChan_words : (s.updChan d fChan).words = s.words := rfl
@[simp] theorem updChan_deviceTime : (s.updChan d fChan).deviceTime = s.deviceTime := rfl
@[simp] theorem updChan_fuses : (s.updChan d fChan).fuses = s.fuses := rfl
@[simp] theorem updChan_agreed : (s.updChan d fChan).agreed = s.agreed := rfl
@[simp] theorem updChan_cores : (s.updChan d fChan).cores = s.cores := rfl
@[simp] theorem updChan_queues : (s.updChan d fChan).queues = s.queues := rfl
@[simp] theorem updChan_waiting : (s.updChan d fChan).waiting = s.waiting := rfl
@[simp] theorem updChan_assembly : (s.updChan d fChan).assembly = s.assembly := rfl
@[simp] theorem updChan_orderTurn : (s.updChan d fChan).orderTurn = s.orderTurn := rfl
@[simp] theorem updChan_tokens : (s.updChan d fChan).tokens = s.tokens := rfl
@[simp] theorem updChan_orders : (s.updChan d fChan).orders = s.orders := rfl
@[simp] theorem updChan_accepted : (s.updChan d fChan).accepted = s.accepted := rfl
@[simp] theorem updChan_delivered : (s.updChan d fChan).delivered = s.delivered := rfl
@[simp] theorem updChan_tacks : (s.updChan d fChan).tacks = s.tacks := rfl
@[simp] theorem updChan_fired : (s.updChan d fChan).fired = s.fired := rfl
@[simp] theorem updChan_launches : (s.updChan d fChan).launches = s.launches := rfl
@[simp] theorem updChan_banks : (s.updChan d fChan).banks = s.banks := rfl
@[simp] theorem updChan_cells : (s.updChan d fChan).cells = s.cells := rfl
@[simp] theorem updChan_badParity : (s.updChan d fChan).badParity = s.badParity := rfl
@[simp] theorem updChan_modes : (s.updChan d fChan).modes = s.modes := rfl
@[simp] theorem updChan_dies : (s.updChan d fChan).dies = s.dies := rfl
@[simp] theorem updChan_blocks : (s.updChan d fChan).blocks = s.blocks := rfl
@[simp] theorem updChan_clockLost : (s.updChan d fChan).clockLost = s.clockLost := rfl
@[simp] theorem updChan_clockSaid : (s.updChan d fChan).clockSaid = s.clockSaid := rfl
@[simp] theorem updChan_clockTold : (s.updChan d fChan).clockTold = s.clockTold := rfl
@[simp] theorem updChan_byClock : (s.updChan d fChan).byClock = s.byClock := rfl
@[simp] theorem updChan_readmit : (s.updChan d fChan).readmit = s.readmit := rfl
@[simp] theorem updChan_miscount : (s.updChan d fChan).miscount = s.miscount := rfl
@[simp] theorem updChan_probeAt : (s.updChan d fChan).probeAt = s.probeAt := rfl
@[simp] theorem updChan_mach : (s.updChan d fChan).mach = s.mach := rfl
@[simp] theorem updChan_gate : (s.updChan d fChan).gate = s.gate := rfl
@[simp] theorem updChan_axes : (s.updChan d fChan).axes = s.axes := rfl
@[simp] theorem updChan_loop : (s.updChan d fChan).loop = s.loop := rfl
@[simp] theorem updChan_trace : (s.updChan d fChan).trace = s.trace := rfl
@[simp] theorem updChan_panel : (s.updChan d fChan).panel = s.panel := rfl
@[simp] theorem updChan_led : (s.updChan d fChan).led = s.led := rfl
@[simp] theorem updChan_net : (s.updChan d fChan).net = s.net := rfl
@[simp] theorem updChan_time : (s.updChan d fChan).time = s.time := rfl
@[simp] theorem updChan_hol : (s.updChan d fChan).hol = s.hol := rfl
@[simp] theorem updChan_sec : (s.updChan d fChan).sec = s.sec := rfl
@[simp] theorem updChan_polder : (s.updChan d fChan).polder = s.polder := rfl
@[simp] theorem updChan_tw : (s.updChan d fChan).tw = s.tw := rfl
@[simp] theorem updChan_merged : (s.updChan d fChan).merged = s.merged := rfl
@[simp] theorem updChan_faults : (s.updChan d fChan).faults = s.faults := rfl
@[simp] theorem updChan_word : (s.updChan d fChan).word x = s.word x := rfl
@[simp] theorem updChan_field : (s.updChan d fChan).field x y z = s.field x y z := rfl
@[simp] theorem updChan_flag : (s.updChan d fChan).flag x y = s.flag x y := rfl
@[simp] theorem updChan_core : (s.updChan d fChan).core e = s.core e := rfl
@[simp] theorem updChan_byteAt : (s.updChan d fChan).byteAt x = s.byteAt x := rfl
@[simp] theorem updChan_ledCh : (s.updChan d fChan).ledCh ch2 = s.ledCh ch2 := rfl
@[simp] theorem updChan_blockOut : (s.updChan d fChan).blockOut blk = s.blockOut blk := rfl
@[simp] theorem updChan_feature : (s.updChan d fChan).feature x = s.feature x := rfl
@[simp] theorem updChan_queue : (s.updChan d fChan).queue x = s.queue x := by unfold State.queue; cases queueIx x <;> rfl
@[simp] theorem updChan_addr64 : (s.updChan d fChan).addr64 x = s.addr64 x := rfl
@[simp] theorem updChan_freeVal : (s.updChan d fChan).freeVal = s.freeVal := rfl

/-! ### updPanel -/

@[simp] theorem updPanel_pending : (s.updPanel fPanel).pending = s.pending := rfl
@[simp] theorem updPanel_clock : (s.updPanel fPanel).clock = s.clock := rfl
@[simp] theorem updPanel_free : (s.updPanel fPanel).free = s.free := rfl
@[simp] theorem updPanel_sets : (s.updPanel fPanel).sets = s.sets := rfl
@[simp] theorem updPanel_words : (s.updPanel fPanel).words = s.words := rfl
@[simp] theorem updPanel_deviceTime : (s.updPanel fPanel).deviceTime = s.deviceTime := rfl
@[simp] theorem updPanel_fuses : (s.updPanel fPanel).fuses = s.fuses := rfl
@[simp] theorem updPanel_agreed : (s.updPanel fPanel).agreed = s.agreed := rfl
@[simp] theorem updPanel_cores : (s.updPanel fPanel).cores = s.cores := rfl
@[simp] theorem updPanel_queues : (s.updPanel fPanel).queues = s.queues := rfl
@[simp] theorem updPanel_waiting : (s.updPanel fPanel).waiting = s.waiting := rfl
@[simp] theorem updPanel_assembly : (s.updPanel fPanel).assembly = s.assembly := rfl
@[simp] theorem updPanel_orderTurn : (s.updPanel fPanel).orderTurn = s.orderTurn := rfl
@[simp] theorem updPanel_tokens : (s.updPanel fPanel).tokens = s.tokens := rfl
@[simp] theorem updPanel_orders : (s.updPanel fPanel).orders = s.orders := rfl
@[simp] theorem updPanel_accepted : (s.updPanel fPanel).accepted = s.accepted := rfl
@[simp] theorem updPanel_delivered : (s.updPanel fPanel).delivered = s.delivered := rfl
@[simp] theorem updPanel_tacks : (s.updPanel fPanel).tacks = s.tacks := rfl
@[simp] theorem updPanel_fired : (s.updPanel fPanel).fired = s.fired := rfl
@[simp] theorem updPanel_launches : (s.updPanel fPanel).launches = s.launches := rfl
@[simp] theorem updPanel_banks : (s.updPanel fPanel).banks = s.banks := rfl
@[simp] theorem updPanel_cells : (s.updPanel fPanel).cells = s.cells := rfl
@[simp] theorem updPanel_badParity : (s.updPanel fPanel).badParity = s.badParity := rfl
@[simp] theorem updPanel_modes : (s.updPanel fPanel).modes = s.modes := rfl
@[simp] theorem updPanel_dies : (s.updPanel fPanel).dies = s.dies := rfl
@[simp] theorem updPanel_blocks : (s.updPanel fPanel).blocks = s.blocks := rfl
@[simp] theorem updPanel_clockLost : (s.updPanel fPanel).clockLost = s.clockLost := rfl
@[simp] theorem updPanel_clockSaid : (s.updPanel fPanel).clockSaid = s.clockSaid := rfl
@[simp] theorem updPanel_clockTold : (s.updPanel fPanel).clockTold = s.clockTold := rfl
@[simp] theorem updPanel_byClock : (s.updPanel fPanel).byClock = s.byClock := rfl
@[simp] theorem updPanel_readmit : (s.updPanel fPanel).readmit = s.readmit := rfl
@[simp] theorem updPanel_miscount : (s.updPanel fPanel).miscount = s.miscount := rfl
@[simp] theorem updPanel_probeAt : (s.updPanel fPanel).probeAt = s.probeAt := rfl
@[simp] theorem updPanel_mach : (s.updPanel fPanel).mach = s.mach := rfl
@[simp] theorem updPanel_gate : (s.updPanel fPanel).gate = s.gate := rfl
@[simp] theorem updPanel_axes : (s.updPanel fPanel).axes = s.axes := rfl
@[simp] theorem updPanel_loop : (s.updPanel fPanel).loop = s.loop := rfl
@[simp] theorem updPanel_trace : (s.updPanel fPanel).trace = s.trace := rfl
@[simp] theorem updPanel_dram : (s.updPanel fPanel).dram = s.dram := rfl
@[simp] theorem updPanel_led : (s.updPanel fPanel).led = s.led := rfl
@[simp] theorem updPanel_net : (s.updPanel fPanel).net = s.net := rfl
@[simp] theorem updPanel_time : (s.updPanel fPanel).time = s.time := rfl
@[simp] theorem updPanel_hol : (s.updPanel fPanel).hol = s.hol := rfl
@[simp] theorem updPanel_sec : (s.updPanel fPanel).sec = s.sec := rfl
@[simp] theorem updPanel_polder : (s.updPanel fPanel).polder = s.polder := rfl
@[simp] theorem updPanel_tw : (s.updPanel fPanel).tw = s.tw := rfl
@[simp] theorem updPanel_merged : (s.updPanel fPanel).merged = s.merged := rfl
@[simp] theorem updPanel_faults : (s.updPanel fPanel).faults = s.faults := rfl
@[simp] theorem updPanel_word : (s.updPanel fPanel).word x = s.word x := rfl
@[simp] theorem updPanel_field : (s.updPanel fPanel).field x y z = s.field x y z := rfl
@[simp] theorem updPanel_flag : (s.updPanel fPanel).flag x y = s.flag x y := rfl
@[simp] theorem updPanel_core : (s.updPanel fPanel).core e = s.core e := rfl
@[simp] theorem updPanel_byteAt : (s.updPanel fPanel).byteAt x = s.byteAt x := rfl
@[simp] theorem updPanel_chan : (s.updPanel fPanel).chan d2 = s.chan d2 := rfl
@[simp] theorem updPanel_ledCh : (s.updPanel fPanel).ledCh ch2 = s.ledCh ch2 := rfl
@[simp] theorem updPanel_blockOut : (s.updPanel fPanel).blockOut blk = s.blockOut blk := rfl
@[simp] theorem updPanel_feature : (s.updPanel fPanel).feature x = s.feature x := rfl
@[simp] theorem updPanel_queue : (s.updPanel fPanel).queue x = s.queue x := by unfold State.queue; cases queueIx x <;> rfl
@[simp] theorem updPanel_addr64 : (s.updPanel fPanel).addr64 x = s.addr64 x := rfl
@[simp] theorem updPanel_freeVal : (s.updPanel fPanel).freeVal = s.freeVal := rfl

/-! ### updPanelSlot -/

@[simp] theorem updPanelSlot_pending : (s.updPanelSlot d fPSlot).pending = s.pending := rfl
@[simp] theorem updPanelSlot_clock : (s.updPanelSlot d fPSlot).clock = s.clock := rfl
@[simp] theorem updPanelSlot_free : (s.updPanelSlot d fPSlot).free = s.free := rfl
@[simp] theorem updPanelSlot_sets : (s.updPanelSlot d fPSlot).sets = s.sets := rfl
@[simp] theorem updPanelSlot_words : (s.updPanelSlot d fPSlot).words = s.words := rfl
@[simp] theorem updPanelSlot_deviceTime : (s.updPanelSlot d fPSlot).deviceTime = s.deviceTime := rfl
@[simp] theorem updPanelSlot_fuses : (s.updPanelSlot d fPSlot).fuses = s.fuses := rfl
@[simp] theorem updPanelSlot_agreed : (s.updPanelSlot d fPSlot).agreed = s.agreed := rfl
@[simp] theorem updPanelSlot_cores : (s.updPanelSlot d fPSlot).cores = s.cores := rfl
@[simp] theorem updPanelSlot_queues : (s.updPanelSlot d fPSlot).queues = s.queues := rfl
@[simp] theorem updPanelSlot_waiting : (s.updPanelSlot d fPSlot).waiting = s.waiting := rfl
@[simp] theorem updPanelSlot_assembly : (s.updPanelSlot d fPSlot).assembly = s.assembly := rfl
@[simp] theorem updPanelSlot_orderTurn : (s.updPanelSlot d fPSlot).orderTurn = s.orderTurn := rfl
@[simp] theorem updPanelSlot_tokens : (s.updPanelSlot d fPSlot).tokens = s.tokens := rfl
@[simp] theorem updPanelSlot_orders : (s.updPanelSlot d fPSlot).orders = s.orders := rfl
@[simp] theorem updPanelSlot_accepted : (s.updPanelSlot d fPSlot).accepted = s.accepted := rfl
@[simp] theorem updPanelSlot_delivered : (s.updPanelSlot d fPSlot).delivered = s.delivered := rfl
@[simp] theorem updPanelSlot_tacks : (s.updPanelSlot d fPSlot).tacks = s.tacks := rfl
@[simp] theorem updPanelSlot_fired : (s.updPanelSlot d fPSlot).fired = s.fired := rfl
@[simp] theorem updPanelSlot_launches : (s.updPanelSlot d fPSlot).launches = s.launches := rfl
@[simp] theorem updPanelSlot_banks : (s.updPanelSlot d fPSlot).banks = s.banks := rfl
@[simp] theorem updPanelSlot_cells : (s.updPanelSlot d fPSlot).cells = s.cells := rfl
@[simp] theorem updPanelSlot_badParity : (s.updPanelSlot d fPSlot).badParity = s.badParity := rfl
@[simp] theorem updPanelSlot_modes : (s.updPanelSlot d fPSlot).modes = s.modes := rfl
@[simp] theorem updPanelSlot_dies : (s.updPanelSlot d fPSlot).dies = s.dies := rfl
@[simp] theorem updPanelSlot_blocks : (s.updPanelSlot d fPSlot).blocks = s.blocks := rfl
@[simp] theorem updPanelSlot_clockLost : (s.updPanelSlot d fPSlot).clockLost = s.clockLost := rfl
@[simp] theorem updPanelSlot_clockSaid : (s.updPanelSlot d fPSlot).clockSaid = s.clockSaid := rfl
@[simp] theorem updPanelSlot_clockTold : (s.updPanelSlot d fPSlot).clockTold = s.clockTold := rfl
@[simp] theorem updPanelSlot_byClock : (s.updPanelSlot d fPSlot).byClock = s.byClock := rfl
@[simp] theorem updPanelSlot_readmit : (s.updPanelSlot d fPSlot).readmit = s.readmit := rfl
@[simp] theorem updPanelSlot_miscount : (s.updPanelSlot d fPSlot).miscount = s.miscount := rfl
@[simp] theorem updPanelSlot_probeAt : (s.updPanelSlot d fPSlot).probeAt = s.probeAt := rfl
@[simp] theorem updPanelSlot_mach : (s.updPanelSlot d fPSlot).mach = s.mach := rfl
@[simp] theorem updPanelSlot_gate : (s.updPanelSlot d fPSlot).gate = s.gate := rfl
@[simp] theorem updPanelSlot_axes : (s.updPanelSlot d fPSlot).axes = s.axes := rfl
@[simp] theorem updPanelSlot_loop : (s.updPanelSlot d fPSlot).loop = s.loop := rfl
@[simp] theorem updPanelSlot_trace : (s.updPanelSlot d fPSlot).trace = s.trace := rfl
@[simp] theorem updPanelSlot_dram : (s.updPanelSlot d fPSlot).dram = s.dram := rfl
@[simp] theorem updPanelSlot_led : (s.updPanelSlot d fPSlot).led = s.led := rfl
@[simp] theorem updPanelSlot_net : (s.updPanelSlot d fPSlot).net = s.net := rfl
@[simp] theorem updPanelSlot_time : (s.updPanelSlot d fPSlot).time = s.time := rfl
@[simp] theorem updPanelSlot_hol : (s.updPanelSlot d fPSlot).hol = s.hol := rfl
@[simp] theorem updPanelSlot_sec : (s.updPanelSlot d fPSlot).sec = s.sec := rfl
@[simp] theorem updPanelSlot_polder : (s.updPanelSlot d fPSlot).polder = s.polder := rfl
@[simp] theorem updPanelSlot_tw : (s.updPanelSlot d fPSlot).tw = s.tw := rfl
@[simp] theorem updPanelSlot_merged : (s.updPanelSlot d fPSlot).merged = s.merged := rfl
@[simp] theorem updPanelSlot_faults : (s.updPanelSlot d fPSlot).faults = s.faults := rfl
@[simp] theorem updPanelSlot_word : (s.updPanelSlot d fPSlot).word x = s.word x := rfl
@[simp] theorem updPanelSlot_field : (s.updPanelSlot d fPSlot).field x y z = s.field x y z := rfl
@[simp] theorem updPanelSlot_flag : (s.updPanelSlot d fPSlot).flag x y = s.flag x y := rfl
@[simp] theorem updPanelSlot_core : (s.updPanelSlot d fPSlot).core e = s.core e := rfl
@[simp] theorem updPanelSlot_byteAt : (s.updPanelSlot d fPSlot).byteAt x = s.byteAt x := rfl
@[simp] theorem updPanelSlot_chan : (s.updPanelSlot d fPSlot).chan d2 = s.chan d2 := rfl
@[simp] theorem updPanelSlot_ledCh : (s.updPanelSlot d fPSlot).ledCh ch2 = s.ledCh ch2 := rfl
@[simp] theorem updPanelSlot_blockOut : (s.updPanelSlot d fPSlot).blockOut blk = s.blockOut blk := rfl
@[simp] theorem updPanelSlot_feature : (s.updPanelSlot d fPSlot).feature x = s.feature x := rfl
@[simp] theorem updPanelSlot_queue : (s.updPanelSlot d fPSlot).queue x = s.queue x := by unfold State.queue; cases queueIx x <;> rfl
@[simp] theorem updPanelSlot_addr64 : (s.updPanelSlot d fPSlot).addr64 x = s.addr64 x := rfl
@[simp] theorem updPanelSlot_freeVal : (s.updPanelSlot d fPSlot).freeVal = s.freeVal := rfl

/-! ### updLed -/

@[simp] theorem updLed_pending : (s.updLed ch fLed).pending = s.pending := rfl
@[simp] theorem updLed_clock : (s.updLed ch fLed).clock = s.clock := rfl
@[simp] theorem updLed_free : (s.updLed ch fLed).free = s.free := rfl
@[simp] theorem updLed_sets : (s.updLed ch fLed).sets = s.sets := rfl
@[simp] theorem updLed_words : (s.updLed ch fLed).words = s.words := rfl
@[simp] theorem updLed_deviceTime : (s.updLed ch fLed).deviceTime = s.deviceTime := rfl
@[simp] theorem updLed_fuses : (s.updLed ch fLed).fuses = s.fuses := rfl
@[simp] theorem updLed_agreed : (s.updLed ch fLed).agreed = s.agreed := rfl
@[simp] theorem updLed_cores : (s.updLed ch fLed).cores = s.cores := rfl
@[simp] theorem updLed_queues : (s.updLed ch fLed).queues = s.queues := rfl
@[simp] theorem updLed_waiting : (s.updLed ch fLed).waiting = s.waiting := rfl
@[simp] theorem updLed_assembly : (s.updLed ch fLed).assembly = s.assembly := rfl
@[simp] theorem updLed_orderTurn : (s.updLed ch fLed).orderTurn = s.orderTurn := rfl
@[simp] theorem updLed_tokens : (s.updLed ch fLed).tokens = s.tokens := rfl
@[simp] theorem updLed_orders : (s.updLed ch fLed).orders = s.orders := rfl
@[simp] theorem updLed_accepted : (s.updLed ch fLed).accepted = s.accepted := rfl
@[simp] theorem updLed_delivered : (s.updLed ch fLed).delivered = s.delivered := rfl
@[simp] theorem updLed_tacks : (s.updLed ch fLed).tacks = s.tacks := rfl
@[simp] theorem updLed_fired : (s.updLed ch fLed).fired = s.fired := rfl
@[simp] theorem updLed_launches : (s.updLed ch fLed).launches = s.launches := rfl
@[simp] theorem updLed_banks : (s.updLed ch fLed).banks = s.banks := rfl
@[simp] theorem updLed_cells : (s.updLed ch fLed).cells = s.cells := rfl
@[simp] theorem updLed_badParity : (s.updLed ch fLed).badParity = s.badParity := rfl
@[simp] theorem updLed_modes : (s.updLed ch fLed).modes = s.modes := rfl
@[simp] theorem updLed_dies : (s.updLed ch fLed).dies = s.dies := rfl
@[simp] theorem updLed_blocks : (s.updLed ch fLed).blocks = s.blocks := rfl
@[simp] theorem updLed_clockLost : (s.updLed ch fLed).clockLost = s.clockLost := rfl
@[simp] theorem updLed_clockSaid : (s.updLed ch fLed).clockSaid = s.clockSaid := rfl
@[simp] theorem updLed_clockTold : (s.updLed ch fLed).clockTold = s.clockTold := rfl
@[simp] theorem updLed_byClock : (s.updLed ch fLed).byClock = s.byClock := rfl
@[simp] theorem updLed_readmit : (s.updLed ch fLed).readmit = s.readmit := rfl
@[simp] theorem updLed_miscount : (s.updLed ch fLed).miscount = s.miscount := rfl
@[simp] theorem updLed_probeAt : (s.updLed ch fLed).probeAt = s.probeAt := rfl
@[simp] theorem updLed_mach : (s.updLed ch fLed).mach = s.mach := rfl
@[simp] theorem updLed_gate : (s.updLed ch fLed).gate = s.gate := rfl
@[simp] theorem updLed_axes : (s.updLed ch fLed).axes = s.axes := rfl
@[simp] theorem updLed_loop : (s.updLed ch fLed).loop = s.loop := rfl
@[simp] theorem updLed_trace : (s.updLed ch fLed).trace = s.trace := rfl
@[simp] theorem updLed_dram : (s.updLed ch fLed).dram = s.dram := rfl
@[simp] theorem updLed_panel : (s.updLed ch fLed).panel = s.panel := rfl
@[simp] theorem updLed_net : (s.updLed ch fLed).net = s.net := rfl
@[simp] theorem updLed_time : (s.updLed ch fLed).time = s.time := rfl
@[simp] theorem updLed_hol : (s.updLed ch fLed).hol = s.hol := rfl
@[simp] theorem updLed_sec : (s.updLed ch fLed).sec = s.sec := rfl
@[simp] theorem updLed_polder : (s.updLed ch fLed).polder = s.polder := rfl
@[simp] theorem updLed_tw : (s.updLed ch fLed).tw = s.tw := rfl
@[simp] theorem updLed_merged : (s.updLed ch fLed).merged = s.merged := rfl
@[simp] theorem updLed_faults : (s.updLed ch fLed).faults = s.faults := rfl
@[simp] theorem updLed_word : (s.updLed ch fLed).word x = s.word x := rfl
@[simp] theorem updLed_field : (s.updLed ch fLed).field x y z = s.field x y z := rfl
@[simp] theorem updLed_flag : (s.updLed ch fLed).flag x y = s.flag x y := rfl
@[simp] theorem updLed_core : (s.updLed ch fLed).core e = s.core e := rfl
@[simp] theorem updLed_byteAt : (s.updLed ch fLed).byteAt x = s.byteAt x := rfl
@[simp] theorem updLed_chan : (s.updLed ch fLed).chan d2 = s.chan d2 := rfl
@[simp] theorem updLed_blockOut : (s.updLed ch fLed).blockOut blk = s.blockOut blk := rfl
@[simp] theorem updLed_feature : (s.updLed ch fLed).feature x = s.feature x := rfl
@[simp] theorem updLed_queue : (s.updLed ch fLed).queue x = s.queue x := by unfold State.queue; cases queueIx x <;> rfl
@[simp] theorem updLed_addr64 : (s.updLed ch fLed).addr64 x = s.addr64 x := rfl
@[simp] theorem updLed_freeVal : (s.updLed ch fLed).freeVal = s.freeVal := rfl

/-! ### updLedDie -/

@[simp] theorem updLedDie_pending : (s.updLedDie d fLedDie).pending = s.pending := rfl
@[simp] theorem updLedDie_clock : (s.updLedDie d fLedDie).clock = s.clock := rfl
@[simp] theorem updLedDie_free : (s.updLedDie d fLedDie).free = s.free := rfl
@[simp] theorem updLedDie_sets : (s.updLedDie d fLedDie).sets = s.sets := rfl
@[simp] theorem updLedDie_words : (s.updLedDie d fLedDie).words = s.words := rfl
@[simp] theorem updLedDie_deviceTime : (s.updLedDie d fLedDie).deviceTime = s.deviceTime := rfl
@[simp] theorem updLedDie_fuses : (s.updLedDie d fLedDie).fuses = s.fuses := rfl
@[simp] theorem updLedDie_agreed : (s.updLedDie d fLedDie).agreed = s.agreed := rfl
@[simp] theorem updLedDie_cores : (s.updLedDie d fLedDie).cores = s.cores := rfl
@[simp] theorem updLedDie_queues : (s.updLedDie d fLedDie).queues = s.queues := rfl
@[simp] theorem updLedDie_waiting : (s.updLedDie d fLedDie).waiting = s.waiting := rfl
@[simp] theorem updLedDie_assembly : (s.updLedDie d fLedDie).assembly = s.assembly := rfl
@[simp] theorem updLedDie_orderTurn : (s.updLedDie d fLedDie).orderTurn = s.orderTurn := rfl
@[simp] theorem updLedDie_tokens : (s.updLedDie d fLedDie).tokens = s.tokens := rfl
@[simp] theorem updLedDie_orders : (s.updLedDie d fLedDie).orders = s.orders := rfl
@[simp] theorem updLedDie_accepted : (s.updLedDie d fLedDie).accepted = s.accepted := rfl
@[simp] theorem updLedDie_delivered : (s.updLedDie d fLedDie).delivered = s.delivered := rfl
@[simp] theorem updLedDie_tacks : (s.updLedDie d fLedDie).tacks = s.tacks := rfl
@[simp] theorem updLedDie_fired : (s.updLedDie d fLedDie).fired = s.fired := rfl
@[simp] theorem updLedDie_launches : (s.updLedDie d fLedDie).launches = s.launches := rfl
@[simp] theorem updLedDie_banks : (s.updLedDie d fLedDie).banks = s.banks := rfl
@[simp] theorem updLedDie_cells : (s.updLedDie d fLedDie).cells = s.cells := rfl
@[simp] theorem updLedDie_badParity : (s.updLedDie d fLedDie).badParity = s.badParity := rfl
@[simp] theorem updLedDie_modes : (s.updLedDie d fLedDie).modes = s.modes := rfl
@[simp] theorem updLedDie_dies : (s.updLedDie d fLedDie).dies = s.dies := rfl
@[simp] theorem updLedDie_blocks : (s.updLedDie d fLedDie).blocks = s.blocks := rfl
@[simp] theorem updLedDie_clockLost : (s.updLedDie d fLedDie).clockLost = s.clockLost := rfl
@[simp] theorem updLedDie_clockSaid : (s.updLedDie d fLedDie).clockSaid = s.clockSaid := rfl
@[simp] theorem updLedDie_clockTold : (s.updLedDie d fLedDie).clockTold = s.clockTold := rfl
@[simp] theorem updLedDie_byClock : (s.updLedDie d fLedDie).byClock = s.byClock := rfl
@[simp] theorem updLedDie_readmit : (s.updLedDie d fLedDie).readmit = s.readmit := rfl
@[simp] theorem updLedDie_miscount : (s.updLedDie d fLedDie).miscount = s.miscount := rfl
@[simp] theorem updLedDie_probeAt : (s.updLedDie d fLedDie).probeAt = s.probeAt := rfl
@[simp] theorem updLedDie_mach : (s.updLedDie d fLedDie).mach = s.mach := rfl
@[simp] theorem updLedDie_gate : (s.updLedDie d fLedDie).gate = s.gate := rfl
@[simp] theorem updLedDie_axes : (s.updLedDie d fLedDie).axes = s.axes := rfl
@[simp] theorem updLedDie_loop : (s.updLedDie d fLedDie).loop = s.loop := rfl
@[simp] theorem updLedDie_trace : (s.updLedDie d fLedDie).trace = s.trace := rfl
@[simp] theorem updLedDie_dram : (s.updLedDie d fLedDie).dram = s.dram := rfl
@[simp] theorem updLedDie_panel : (s.updLedDie d fLedDie).panel = s.panel := rfl
@[simp] theorem updLedDie_net : (s.updLedDie d fLedDie).net = s.net := rfl
@[simp] theorem updLedDie_time : (s.updLedDie d fLedDie).time = s.time := rfl
@[simp] theorem updLedDie_hol : (s.updLedDie d fLedDie).hol = s.hol := rfl
@[simp] theorem updLedDie_sec : (s.updLedDie d fLedDie).sec = s.sec := rfl
@[simp] theorem updLedDie_polder : (s.updLedDie d fLedDie).polder = s.polder := rfl
@[simp] theorem updLedDie_tw : (s.updLedDie d fLedDie).tw = s.tw := rfl
@[simp] theorem updLedDie_merged : (s.updLedDie d fLedDie).merged = s.merged := rfl
@[simp] theorem updLedDie_faults : (s.updLedDie d fLedDie).faults = s.faults := rfl
@[simp] theorem updLedDie_word : (s.updLedDie d fLedDie).word x = s.word x := rfl
@[simp] theorem updLedDie_field : (s.updLedDie d fLedDie).field x y z = s.field x y z := rfl
@[simp] theorem updLedDie_flag : (s.updLedDie d fLedDie).flag x y = s.flag x y := rfl
@[simp] theorem updLedDie_core : (s.updLedDie d fLedDie).core e = s.core e := rfl
@[simp] theorem updLedDie_byteAt : (s.updLedDie d fLedDie).byteAt x = s.byteAt x := rfl
@[simp] theorem updLedDie_chan : (s.updLedDie d fLedDie).chan d2 = s.chan d2 := rfl
@[simp] theorem updLedDie_blockOut : (s.updLedDie d fLedDie).blockOut blk = s.blockOut blk := rfl
@[simp] theorem updLedDie_feature : (s.updLedDie d fLedDie).feature x = s.feature x := rfl
@[simp] theorem updLedDie_queue : (s.updLedDie d fLedDie).queue x = s.queue x := by unfold State.queue; cases queueIx x <;> rfl
@[simp] theorem updLedDie_addr64 : (s.updLedDie d fLedDie).addr64 x = s.addr64 x := rfl
@[simp] theorem updLedDie_freeVal : (s.updLedDie d fLedDie).freeVal = s.freeVal := rfl

/-! ### updNet -/

@[simp] theorem updNet_pending : (s.updNet fNet).pending = s.pending := rfl
@[simp] theorem updNet_clock : (s.updNet fNet).clock = s.clock := rfl
@[simp] theorem updNet_free : (s.updNet fNet).free = s.free := rfl
@[simp] theorem updNet_sets : (s.updNet fNet).sets = s.sets := rfl
@[simp] theorem updNet_words : (s.updNet fNet).words = s.words := rfl
@[simp] theorem updNet_deviceTime : (s.updNet fNet).deviceTime = s.deviceTime := rfl
@[simp] theorem updNet_fuses : (s.updNet fNet).fuses = s.fuses := rfl
@[simp] theorem updNet_agreed : (s.updNet fNet).agreed = s.agreed := rfl
@[simp] theorem updNet_cores : (s.updNet fNet).cores = s.cores := rfl
@[simp] theorem updNet_queues : (s.updNet fNet).queues = s.queues := rfl
@[simp] theorem updNet_waiting : (s.updNet fNet).waiting = s.waiting := rfl
@[simp] theorem updNet_assembly : (s.updNet fNet).assembly = s.assembly := rfl
@[simp] theorem updNet_orderTurn : (s.updNet fNet).orderTurn = s.orderTurn := rfl
@[simp] theorem updNet_tokens : (s.updNet fNet).tokens = s.tokens := rfl
@[simp] theorem updNet_orders : (s.updNet fNet).orders = s.orders := rfl
@[simp] theorem updNet_accepted : (s.updNet fNet).accepted = s.accepted := rfl
@[simp] theorem updNet_delivered : (s.updNet fNet).delivered = s.delivered := rfl
@[simp] theorem updNet_tacks : (s.updNet fNet).tacks = s.tacks := rfl
@[simp] theorem updNet_fired : (s.updNet fNet).fired = s.fired := rfl
@[simp] theorem updNet_launches : (s.updNet fNet).launches = s.launches := rfl
@[simp] theorem updNet_banks : (s.updNet fNet).banks = s.banks := rfl
@[simp] theorem updNet_cells : (s.updNet fNet).cells = s.cells := rfl
@[simp] theorem updNet_badParity : (s.updNet fNet).badParity = s.badParity := rfl
@[simp] theorem updNet_modes : (s.updNet fNet).modes = s.modes := rfl
@[simp] theorem updNet_dies : (s.updNet fNet).dies = s.dies := rfl
@[simp] theorem updNet_blocks : (s.updNet fNet).blocks = s.blocks := rfl
@[simp] theorem updNet_clockLost : (s.updNet fNet).clockLost = s.clockLost := rfl
@[simp] theorem updNet_clockSaid : (s.updNet fNet).clockSaid = s.clockSaid := rfl
@[simp] theorem updNet_clockTold : (s.updNet fNet).clockTold = s.clockTold := rfl
@[simp] theorem updNet_byClock : (s.updNet fNet).byClock = s.byClock := rfl
@[simp] theorem updNet_readmit : (s.updNet fNet).readmit = s.readmit := rfl
@[simp] theorem updNet_miscount : (s.updNet fNet).miscount = s.miscount := rfl
@[simp] theorem updNet_probeAt : (s.updNet fNet).probeAt = s.probeAt := rfl
@[simp] theorem updNet_mach : (s.updNet fNet).mach = s.mach := rfl
@[simp] theorem updNet_gate : (s.updNet fNet).gate = s.gate := rfl
@[simp] theorem updNet_axes : (s.updNet fNet).axes = s.axes := rfl
@[simp] theorem updNet_loop : (s.updNet fNet).loop = s.loop := rfl
@[simp] theorem updNet_trace : (s.updNet fNet).trace = s.trace := rfl
@[simp] theorem updNet_dram : (s.updNet fNet).dram = s.dram := rfl
@[simp] theorem updNet_panel : (s.updNet fNet).panel = s.panel := rfl
@[simp] theorem updNet_led : (s.updNet fNet).led = s.led := rfl
@[simp] theorem updNet_time : (s.updNet fNet).time = s.time := rfl
@[simp] theorem updNet_hol : (s.updNet fNet).hol = s.hol := rfl
@[simp] theorem updNet_sec : (s.updNet fNet).sec = s.sec := rfl
@[simp] theorem updNet_polder : (s.updNet fNet).polder = s.polder := rfl
@[simp] theorem updNet_tw : (s.updNet fNet).tw = s.tw := rfl
@[simp] theorem updNet_merged : (s.updNet fNet).merged = s.merged := rfl
@[simp] theorem updNet_faults : (s.updNet fNet).faults = s.faults := rfl
@[simp] theorem updNet_word : (s.updNet fNet).word x = s.word x := rfl
@[simp] theorem updNet_field : (s.updNet fNet).field x y z = s.field x y z := rfl
@[simp] theorem updNet_flag : (s.updNet fNet).flag x y = s.flag x y := rfl
@[simp] theorem updNet_core : (s.updNet fNet).core e = s.core e := rfl
@[simp] theorem updNet_byteAt : (s.updNet fNet).byteAt x = s.byteAt x := rfl
@[simp] theorem updNet_chan : (s.updNet fNet).chan d2 = s.chan d2 := rfl
@[simp] theorem updNet_ledCh : (s.updNet fNet).ledCh ch2 = s.ledCh ch2 := rfl
@[simp] theorem updNet_blockOut : (s.updNet fNet).blockOut blk = s.blockOut blk := rfl
@[simp] theorem updNet_feature : (s.updNet fNet).feature x = s.feature x := rfl
@[simp] theorem updNet_queue : (s.updNet fNet).queue x = s.queue x := by unfold State.queue; cases queueIx x <;> rfl
@[simp] theorem updNet_addr64 : (s.updNet fNet).addr64 x = s.addr64 x := rfl
@[simp] theorem updNet_freeVal : (s.updNet fNet).freeVal = s.freeVal := rfl

/-! ### updEgress -/

@[simp] theorem updEgress_pending : (s.updEgress k3 fEgress).pending = s.pending := rfl
@[simp] theorem updEgress_clock : (s.updEgress k3 fEgress).clock = s.clock := rfl
@[simp] theorem updEgress_free : (s.updEgress k3 fEgress).free = s.free := rfl
@[simp] theorem updEgress_sets : (s.updEgress k3 fEgress).sets = s.sets := rfl
@[simp] theorem updEgress_words : (s.updEgress k3 fEgress).words = s.words := rfl
@[simp] theorem updEgress_deviceTime : (s.updEgress k3 fEgress).deviceTime = s.deviceTime := rfl
@[simp] theorem updEgress_fuses : (s.updEgress k3 fEgress).fuses = s.fuses := rfl
@[simp] theorem updEgress_agreed : (s.updEgress k3 fEgress).agreed = s.agreed := rfl
@[simp] theorem updEgress_cores : (s.updEgress k3 fEgress).cores = s.cores := rfl
@[simp] theorem updEgress_queues : (s.updEgress k3 fEgress).queues = s.queues := rfl
@[simp] theorem updEgress_waiting : (s.updEgress k3 fEgress).waiting = s.waiting := rfl
@[simp] theorem updEgress_assembly : (s.updEgress k3 fEgress).assembly = s.assembly := rfl
@[simp] theorem updEgress_orderTurn : (s.updEgress k3 fEgress).orderTurn = s.orderTurn := rfl
@[simp] theorem updEgress_tokens : (s.updEgress k3 fEgress).tokens = s.tokens := rfl
@[simp] theorem updEgress_orders : (s.updEgress k3 fEgress).orders = s.orders := rfl
@[simp] theorem updEgress_accepted : (s.updEgress k3 fEgress).accepted = s.accepted := rfl
@[simp] theorem updEgress_delivered : (s.updEgress k3 fEgress).delivered = s.delivered := rfl
@[simp] theorem updEgress_tacks : (s.updEgress k3 fEgress).tacks = s.tacks := rfl
@[simp] theorem updEgress_fired : (s.updEgress k3 fEgress).fired = s.fired := rfl
@[simp] theorem updEgress_launches : (s.updEgress k3 fEgress).launches = s.launches := rfl
@[simp] theorem updEgress_banks : (s.updEgress k3 fEgress).banks = s.banks := rfl
@[simp] theorem updEgress_cells : (s.updEgress k3 fEgress).cells = s.cells := rfl
@[simp] theorem updEgress_badParity : (s.updEgress k3 fEgress).badParity = s.badParity := rfl
@[simp] theorem updEgress_modes : (s.updEgress k3 fEgress).modes = s.modes := rfl
@[simp] theorem updEgress_dies : (s.updEgress k3 fEgress).dies = s.dies := rfl
@[simp] theorem updEgress_blocks : (s.updEgress k3 fEgress).blocks = s.blocks := rfl
@[simp] theorem updEgress_clockLost : (s.updEgress k3 fEgress).clockLost = s.clockLost := rfl
@[simp] theorem updEgress_clockSaid : (s.updEgress k3 fEgress).clockSaid = s.clockSaid := rfl
@[simp] theorem updEgress_clockTold : (s.updEgress k3 fEgress).clockTold = s.clockTold := rfl
@[simp] theorem updEgress_byClock : (s.updEgress k3 fEgress).byClock = s.byClock := rfl
@[simp] theorem updEgress_readmit : (s.updEgress k3 fEgress).readmit = s.readmit := rfl
@[simp] theorem updEgress_miscount : (s.updEgress k3 fEgress).miscount = s.miscount := rfl
@[simp] theorem updEgress_probeAt : (s.updEgress k3 fEgress).probeAt = s.probeAt := rfl
@[simp] theorem updEgress_mach : (s.updEgress k3 fEgress).mach = s.mach := rfl
@[simp] theorem updEgress_gate : (s.updEgress k3 fEgress).gate = s.gate := rfl
@[simp] theorem updEgress_axes : (s.updEgress k3 fEgress).axes = s.axes := rfl
@[simp] theorem updEgress_loop : (s.updEgress k3 fEgress).loop = s.loop := rfl
@[simp] theorem updEgress_trace : (s.updEgress k3 fEgress).trace = s.trace := rfl
@[simp] theorem updEgress_dram : (s.updEgress k3 fEgress).dram = s.dram := rfl
@[simp] theorem updEgress_panel : (s.updEgress k3 fEgress).panel = s.panel := rfl
@[simp] theorem updEgress_led : (s.updEgress k3 fEgress).led = s.led := rfl
@[simp] theorem updEgress_time : (s.updEgress k3 fEgress).time = s.time := rfl
@[simp] theorem updEgress_hol : (s.updEgress k3 fEgress).hol = s.hol := rfl
@[simp] theorem updEgress_sec : (s.updEgress k3 fEgress).sec = s.sec := rfl
@[simp] theorem updEgress_polder : (s.updEgress k3 fEgress).polder = s.polder := rfl
@[simp] theorem updEgress_tw : (s.updEgress k3 fEgress).tw = s.tw := rfl
@[simp] theorem updEgress_merged : (s.updEgress k3 fEgress).merged = s.merged := rfl
@[simp] theorem updEgress_faults : (s.updEgress k3 fEgress).faults = s.faults := rfl
@[simp] theorem updEgress_word : (s.updEgress k3 fEgress).word x = s.word x := rfl
@[simp] theorem updEgress_field : (s.updEgress k3 fEgress).field x y z = s.field x y z := rfl
@[simp] theorem updEgress_flag : (s.updEgress k3 fEgress).flag x y = s.flag x y := rfl
@[simp] theorem updEgress_core : (s.updEgress k3 fEgress).core e = s.core e := rfl
@[simp] theorem updEgress_byteAt : (s.updEgress k3 fEgress).byteAt x = s.byteAt x := rfl
@[simp] theorem updEgress_chan : (s.updEgress k3 fEgress).chan d2 = s.chan d2 := rfl
@[simp] theorem updEgress_ledCh : (s.updEgress k3 fEgress).ledCh ch2 = s.ledCh ch2 := rfl
@[simp] theorem updEgress_blockOut : (s.updEgress k3 fEgress).blockOut blk = s.blockOut blk := rfl
@[simp] theorem updEgress_feature : (s.updEgress k3 fEgress).feature x = s.feature x := rfl
@[simp] theorem updEgress_queue : (s.updEgress k3 fEgress).queue x = s.queue x := by unfold State.queue; cases queueIx x <;> rfl
@[simp] theorem updEgress_addr64 : (s.updEgress k3 fEgress).addr64 x = s.addr64 x := rfl
@[simp] theorem updEgress_freeVal : (s.updEgress k3 fEgress).freeVal = s.freeVal := rfl

/-! ### updTime -/

@[simp] theorem updTime_pending : (s.updTime fTime).pending = s.pending := rfl
@[simp] theorem updTime_clock : (s.updTime fTime).clock = s.clock := rfl
@[simp] theorem updTime_free : (s.updTime fTime).free = s.free := rfl
@[simp] theorem updTime_sets : (s.updTime fTime).sets = s.sets := rfl
@[simp] theorem updTime_words : (s.updTime fTime).words = s.words := rfl
@[simp] theorem updTime_deviceTime : (s.updTime fTime).deviceTime = s.deviceTime := rfl
@[simp] theorem updTime_fuses : (s.updTime fTime).fuses = s.fuses := rfl
@[simp] theorem updTime_agreed : (s.updTime fTime).agreed = s.agreed := rfl
@[simp] theorem updTime_cores : (s.updTime fTime).cores = s.cores := rfl
@[simp] theorem updTime_queues : (s.updTime fTime).queues = s.queues := rfl
@[simp] theorem updTime_waiting : (s.updTime fTime).waiting = s.waiting := rfl
@[simp] theorem updTime_assembly : (s.updTime fTime).assembly = s.assembly := rfl
@[simp] theorem updTime_orderTurn : (s.updTime fTime).orderTurn = s.orderTurn := rfl
@[simp] theorem updTime_tokens : (s.updTime fTime).tokens = s.tokens := rfl
@[simp] theorem updTime_orders : (s.updTime fTime).orders = s.orders := rfl
@[simp] theorem updTime_accepted : (s.updTime fTime).accepted = s.accepted := rfl
@[simp] theorem updTime_delivered : (s.updTime fTime).delivered = s.delivered := rfl
@[simp] theorem updTime_tacks : (s.updTime fTime).tacks = s.tacks := rfl
@[simp] theorem updTime_fired : (s.updTime fTime).fired = s.fired := rfl
@[simp] theorem updTime_launches : (s.updTime fTime).launches = s.launches := rfl
@[simp] theorem updTime_banks : (s.updTime fTime).banks = s.banks := rfl
@[simp] theorem updTime_cells : (s.updTime fTime).cells = s.cells := rfl
@[simp] theorem updTime_badParity : (s.updTime fTime).badParity = s.badParity := rfl
@[simp] theorem updTime_modes : (s.updTime fTime).modes = s.modes := rfl
@[simp] theorem updTime_dies : (s.updTime fTime).dies = s.dies := rfl
@[simp] theorem updTime_blocks : (s.updTime fTime).blocks = s.blocks := rfl
@[simp] theorem updTime_clockLost : (s.updTime fTime).clockLost = s.clockLost := rfl
@[simp] theorem updTime_clockSaid : (s.updTime fTime).clockSaid = s.clockSaid := rfl
@[simp] theorem updTime_clockTold : (s.updTime fTime).clockTold = s.clockTold := rfl
@[simp] theorem updTime_byClock : (s.updTime fTime).byClock = s.byClock := rfl
@[simp] theorem updTime_readmit : (s.updTime fTime).readmit = s.readmit := rfl
@[simp] theorem updTime_miscount : (s.updTime fTime).miscount = s.miscount := rfl
@[simp] theorem updTime_probeAt : (s.updTime fTime).probeAt = s.probeAt := rfl
@[simp] theorem updTime_mach : (s.updTime fTime).mach = s.mach := rfl
@[simp] theorem updTime_gate : (s.updTime fTime).gate = s.gate := rfl
@[simp] theorem updTime_axes : (s.updTime fTime).axes = s.axes := rfl
@[simp] theorem updTime_loop : (s.updTime fTime).loop = s.loop := rfl
@[simp] theorem updTime_trace : (s.updTime fTime).trace = s.trace := rfl
@[simp] theorem updTime_dram : (s.updTime fTime).dram = s.dram := rfl
@[simp] theorem updTime_panel : (s.updTime fTime).panel = s.panel := rfl
@[simp] theorem updTime_led : (s.updTime fTime).led = s.led := rfl
@[simp] theorem updTime_net : (s.updTime fTime).net = s.net := rfl
@[simp] theorem updTime_hol : (s.updTime fTime).hol = s.hol := rfl
@[simp] theorem updTime_sec : (s.updTime fTime).sec = s.sec := rfl
@[simp] theorem updTime_polder : (s.updTime fTime).polder = s.polder := rfl
@[simp] theorem updTime_tw : (s.updTime fTime).tw = s.tw := rfl
@[simp] theorem updTime_merged : (s.updTime fTime).merged = s.merged := rfl
@[simp] theorem updTime_faults : (s.updTime fTime).faults = s.faults := rfl
@[simp] theorem updTime_word : (s.updTime fTime).word x = s.word x := rfl
@[simp] theorem updTime_field : (s.updTime fTime).field x y z = s.field x y z := rfl
@[simp] theorem updTime_flag : (s.updTime fTime).flag x y = s.flag x y := rfl
@[simp] theorem updTime_core : (s.updTime fTime).core e = s.core e := rfl
@[simp] theorem updTime_byteAt : (s.updTime fTime).byteAt x = s.byteAt x := rfl
@[simp] theorem updTime_chan : (s.updTime fTime).chan d2 = s.chan d2 := rfl
@[simp] theorem updTime_ledCh : (s.updTime fTime).ledCh ch2 = s.ledCh ch2 := rfl
@[simp] theorem updTime_blockOut : (s.updTime fTime).blockOut blk = s.blockOut blk := rfl
@[simp] theorem updTime_feature : (s.updTime fTime).feature x = s.feature x := rfl
@[simp] theorem updTime_queue : (s.updTime fTime).queue x = s.queue x := by unfold State.queue; cases queueIx x <;> rfl
@[simp] theorem updTime_addr64 : (s.updTime fTime).addr64 x = s.addr64 x := rfl
@[simp] theorem updTime_freeVal : (s.updTime fTime).freeVal = s.freeVal := rfl

/-! ### updHol -/

@[simp] theorem updHol_pending : (s.updHol fHol).pending = s.pending := rfl
@[simp] theorem updHol_clock : (s.updHol fHol).clock = s.clock := rfl
@[simp] theorem updHol_free : (s.updHol fHol).free = s.free := rfl
@[simp] theorem updHol_sets : (s.updHol fHol).sets = s.sets := rfl
@[simp] theorem updHol_words : (s.updHol fHol).words = s.words := rfl
@[simp] theorem updHol_deviceTime : (s.updHol fHol).deviceTime = s.deviceTime := rfl
@[simp] theorem updHol_fuses : (s.updHol fHol).fuses = s.fuses := rfl
@[simp] theorem updHol_agreed : (s.updHol fHol).agreed = s.agreed := rfl
@[simp] theorem updHol_cores : (s.updHol fHol).cores = s.cores := rfl
@[simp] theorem updHol_queues : (s.updHol fHol).queues = s.queues := rfl
@[simp] theorem updHol_waiting : (s.updHol fHol).waiting = s.waiting := rfl
@[simp] theorem updHol_assembly : (s.updHol fHol).assembly = s.assembly := rfl
@[simp] theorem updHol_orderTurn : (s.updHol fHol).orderTurn = s.orderTurn := rfl
@[simp] theorem updHol_tokens : (s.updHol fHol).tokens = s.tokens := rfl
@[simp] theorem updHol_orders : (s.updHol fHol).orders = s.orders := rfl
@[simp] theorem updHol_accepted : (s.updHol fHol).accepted = s.accepted := rfl
@[simp] theorem updHol_delivered : (s.updHol fHol).delivered = s.delivered := rfl
@[simp] theorem updHol_tacks : (s.updHol fHol).tacks = s.tacks := rfl
@[simp] theorem updHol_fired : (s.updHol fHol).fired = s.fired := rfl
@[simp] theorem updHol_launches : (s.updHol fHol).launches = s.launches := rfl
@[simp] theorem updHol_banks : (s.updHol fHol).banks = s.banks := rfl
@[simp] theorem updHol_cells : (s.updHol fHol).cells = s.cells := rfl
@[simp] theorem updHol_badParity : (s.updHol fHol).badParity = s.badParity := rfl
@[simp] theorem updHol_modes : (s.updHol fHol).modes = s.modes := rfl
@[simp] theorem updHol_dies : (s.updHol fHol).dies = s.dies := rfl
@[simp] theorem updHol_blocks : (s.updHol fHol).blocks = s.blocks := rfl
@[simp] theorem updHol_clockLost : (s.updHol fHol).clockLost = s.clockLost := rfl
@[simp] theorem updHol_clockSaid : (s.updHol fHol).clockSaid = s.clockSaid := rfl
@[simp] theorem updHol_clockTold : (s.updHol fHol).clockTold = s.clockTold := rfl
@[simp] theorem updHol_byClock : (s.updHol fHol).byClock = s.byClock := rfl
@[simp] theorem updHol_readmit : (s.updHol fHol).readmit = s.readmit := rfl
@[simp] theorem updHol_miscount : (s.updHol fHol).miscount = s.miscount := rfl
@[simp] theorem updHol_probeAt : (s.updHol fHol).probeAt = s.probeAt := rfl
@[simp] theorem updHol_mach : (s.updHol fHol).mach = s.mach := rfl
@[simp] theorem updHol_gate : (s.updHol fHol).gate = s.gate := rfl
@[simp] theorem updHol_axes : (s.updHol fHol).axes = s.axes := rfl
@[simp] theorem updHol_loop : (s.updHol fHol).loop = s.loop := rfl
@[simp] theorem updHol_trace : (s.updHol fHol).trace = s.trace := rfl
@[simp] theorem updHol_dram : (s.updHol fHol).dram = s.dram := rfl
@[simp] theorem updHol_panel : (s.updHol fHol).panel = s.panel := rfl
@[simp] theorem updHol_led : (s.updHol fHol).led = s.led := rfl
@[simp] theorem updHol_net : (s.updHol fHol).net = s.net := rfl
@[simp] theorem updHol_time : (s.updHol fHol).time = s.time := rfl
@[simp] theorem updHol_sec : (s.updHol fHol).sec = s.sec := rfl
@[simp] theorem updHol_polder : (s.updHol fHol).polder = s.polder := rfl
@[simp] theorem updHol_tw : (s.updHol fHol).tw = s.tw := rfl
@[simp] theorem updHol_merged : (s.updHol fHol).merged = s.merged := rfl
@[simp] theorem updHol_faults : (s.updHol fHol).faults = s.faults := rfl
@[simp] theorem updHol_word : (s.updHol fHol).word x = s.word x := rfl
@[simp] theorem updHol_field : (s.updHol fHol).field x y z = s.field x y z := rfl
@[simp] theorem updHol_flag : (s.updHol fHol).flag x y = s.flag x y := rfl
@[simp] theorem updHol_core : (s.updHol fHol).core e = s.core e := rfl
@[simp] theorem updHol_byteAt : (s.updHol fHol).byteAt x = s.byteAt x := rfl
@[simp] theorem updHol_chan : (s.updHol fHol).chan d2 = s.chan d2 := rfl
@[simp] theorem updHol_ledCh : (s.updHol fHol).ledCh ch2 = s.ledCh ch2 := rfl
@[simp] theorem updHol_blockOut : (s.updHol fHol).blockOut blk = s.blockOut blk := rfl
@[simp] theorem updHol_feature : (s.updHol fHol).feature x = s.feature x := rfl
@[simp] theorem updHol_queue : (s.updHol fHol).queue x = s.queue x := by unfold State.queue; cases queueIx x <;> rfl
@[simp] theorem updHol_addr64 : (s.updHol fHol).addr64 x = s.addr64 x := rfl
@[simp] theorem updHol_freeVal : (s.updHol fHol).freeVal = s.freeVal := rfl

/-! ### updHolPort -/

@[simp] theorem updHolPort_pending : (s.updHolPort d fHolPort).pending = s.pending := rfl
@[simp] theorem updHolPort_clock : (s.updHolPort d fHolPort).clock = s.clock := rfl
@[simp] theorem updHolPort_free : (s.updHolPort d fHolPort).free = s.free := rfl
@[simp] theorem updHolPort_sets : (s.updHolPort d fHolPort).sets = s.sets := rfl
@[simp] theorem updHolPort_words : (s.updHolPort d fHolPort).words = s.words := rfl
@[simp] theorem updHolPort_deviceTime : (s.updHolPort d fHolPort).deviceTime = s.deviceTime := rfl
@[simp] theorem updHolPort_fuses : (s.updHolPort d fHolPort).fuses = s.fuses := rfl
@[simp] theorem updHolPort_agreed : (s.updHolPort d fHolPort).agreed = s.agreed := rfl
@[simp] theorem updHolPort_cores : (s.updHolPort d fHolPort).cores = s.cores := rfl
@[simp] theorem updHolPort_queues : (s.updHolPort d fHolPort).queues = s.queues := rfl
@[simp] theorem updHolPort_waiting : (s.updHolPort d fHolPort).waiting = s.waiting := rfl
@[simp] theorem updHolPort_assembly : (s.updHolPort d fHolPort).assembly = s.assembly := rfl
@[simp] theorem updHolPort_orderTurn : (s.updHolPort d fHolPort).orderTurn = s.orderTurn := rfl
@[simp] theorem updHolPort_tokens : (s.updHolPort d fHolPort).tokens = s.tokens := rfl
@[simp] theorem updHolPort_orders : (s.updHolPort d fHolPort).orders = s.orders := rfl
@[simp] theorem updHolPort_accepted : (s.updHolPort d fHolPort).accepted = s.accepted := rfl
@[simp] theorem updHolPort_delivered : (s.updHolPort d fHolPort).delivered = s.delivered := rfl
@[simp] theorem updHolPort_tacks : (s.updHolPort d fHolPort).tacks = s.tacks := rfl
@[simp] theorem updHolPort_fired : (s.updHolPort d fHolPort).fired = s.fired := rfl
@[simp] theorem updHolPort_launches : (s.updHolPort d fHolPort).launches = s.launches := rfl
@[simp] theorem updHolPort_banks : (s.updHolPort d fHolPort).banks = s.banks := rfl
@[simp] theorem updHolPort_cells : (s.updHolPort d fHolPort).cells = s.cells := rfl
@[simp] theorem updHolPort_badParity : (s.updHolPort d fHolPort).badParity = s.badParity := rfl
@[simp] theorem updHolPort_modes : (s.updHolPort d fHolPort).modes = s.modes := rfl
@[simp] theorem updHolPort_dies : (s.updHolPort d fHolPort).dies = s.dies := rfl
@[simp] theorem updHolPort_blocks : (s.updHolPort d fHolPort).blocks = s.blocks := rfl
@[simp] theorem updHolPort_clockLost : (s.updHolPort d fHolPort).clockLost = s.clockLost := rfl
@[simp] theorem updHolPort_clockSaid : (s.updHolPort d fHolPort).clockSaid = s.clockSaid := rfl
@[simp] theorem updHolPort_clockTold : (s.updHolPort d fHolPort).clockTold = s.clockTold := rfl
@[simp] theorem updHolPort_byClock : (s.updHolPort d fHolPort).byClock = s.byClock := rfl
@[simp] theorem updHolPort_readmit : (s.updHolPort d fHolPort).readmit = s.readmit := rfl
@[simp] theorem updHolPort_miscount : (s.updHolPort d fHolPort).miscount = s.miscount := rfl
@[simp] theorem updHolPort_probeAt : (s.updHolPort d fHolPort).probeAt = s.probeAt := rfl
@[simp] theorem updHolPort_mach : (s.updHolPort d fHolPort).mach = s.mach := rfl
@[simp] theorem updHolPort_gate : (s.updHolPort d fHolPort).gate = s.gate := rfl
@[simp] theorem updHolPort_axes : (s.updHolPort d fHolPort).axes = s.axes := rfl
@[simp] theorem updHolPort_loop : (s.updHolPort d fHolPort).loop = s.loop := rfl
@[simp] theorem updHolPort_trace : (s.updHolPort d fHolPort).trace = s.trace := rfl
@[simp] theorem updHolPort_dram : (s.updHolPort d fHolPort).dram = s.dram := rfl
@[simp] theorem updHolPort_panel : (s.updHolPort d fHolPort).panel = s.panel := rfl
@[simp] theorem updHolPort_led : (s.updHolPort d fHolPort).led = s.led := rfl
@[simp] theorem updHolPort_net : (s.updHolPort d fHolPort).net = s.net := rfl
@[simp] theorem updHolPort_time : (s.updHolPort d fHolPort).time = s.time := rfl
@[simp] theorem updHolPort_sec : (s.updHolPort d fHolPort).sec = s.sec := rfl
@[simp] theorem updHolPort_polder : (s.updHolPort d fHolPort).polder = s.polder := rfl
@[simp] theorem updHolPort_tw : (s.updHolPort d fHolPort).tw = s.tw := rfl
@[simp] theorem updHolPort_merged : (s.updHolPort d fHolPort).merged = s.merged := rfl
@[simp] theorem updHolPort_faults : (s.updHolPort d fHolPort).faults = s.faults := rfl
@[simp] theorem updHolPort_word : (s.updHolPort d fHolPort).word x = s.word x := rfl
@[simp] theorem updHolPort_field : (s.updHolPort d fHolPort).field x y z = s.field x y z := rfl
@[simp] theorem updHolPort_flag : (s.updHolPort d fHolPort).flag x y = s.flag x y := rfl
@[simp] theorem updHolPort_core : (s.updHolPort d fHolPort).core e = s.core e := rfl
@[simp] theorem updHolPort_byteAt : (s.updHolPort d fHolPort).byteAt x = s.byteAt x := rfl
@[simp] theorem updHolPort_chan : (s.updHolPort d fHolPort).chan d2 = s.chan d2 := rfl
@[simp] theorem updHolPort_ledCh : (s.updHolPort d fHolPort).ledCh ch2 = s.ledCh ch2 := rfl
@[simp] theorem updHolPort_blockOut : (s.updHolPort d fHolPort).blockOut blk = s.blockOut blk := rfl
@[simp] theorem updHolPort_feature : (s.updHolPort d fHolPort).feature x = s.feature x := rfl
@[simp] theorem updHolPort_queue : (s.updHolPort d fHolPort).queue x = s.queue x := by unfold State.queue; cases queueIx x <;> rfl
@[simp] theorem updHolPort_addr64 : (s.updHolPort d fHolPort).addr64 x = s.addr64 x := rfl
@[simp] theorem updHolPort_freeVal : (s.updHolPort d fHolPort).freeVal = s.freeVal := rfl

/-! ### updPolder -/

@[simp] theorem updPolder_pending : (s.updPolder fPolder).pending = s.pending := rfl
@[simp] theorem updPolder_clock : (s.updPolder fPolder).clock = s.clock := rfl
@[simp] theorem updPolder_free : (s.updPolder fPolder).free = s.free := rfl
@[simp] theorem updPolder_sets : (s.updPolder fPolder).sets = s.sets := rfl
@[simp] theorem updPolder_words : (s.updPolder fPolder).words = s.words := rfl
@[simp] theorem updPolder_deviceTime : (s.updPolder fPolder).deviceTime = s.deviceTime := rfl
@[simp] theorem updPolder_fuses : (s.updPolder fPolder).fuses = s.fuses := rfl
@[simp] theorem updPolder_agreed : (s.updPolder fPolder).agreed = s.agreed := rfl
@[simp] theorem updPolder_cores : (s.updPolder fPolder).cores = s.cores := rfl
@[simp] theorem updPolder_queues : (s.updPolder fPolder).queues = s.queues := rfl
@[simp] theorem updPolder_waiting : (s.updPolder fPolder).waiting = s.waiting := rfl
@[simp] theorem updPolder_assembly : (s.updPolder fPolder).assembly = s.assembly := rfl
@[simp] theorem updPolder_orderTurn : (s.updPolder fPolder).orderTurn = s.orderTurn := rfl
@[simp] theorem updPolder_tokens : (s.updPolder fPolder).tokens = s.tokens := rfl
@[simp] theorem updPolder_orders : (s.updPolder fPolder).orders = s.orders := rfl
@[simp] theorem updPolder_accepted : (s.updPolder fPolder).accepted = s.accepted := rfl
@[simp] theorem updPolder_delivered : (s.updPolder fPolder).delivered = s.delivered := rfl
@[simp] theorem updPolder_tacks : (s.updPolder fPolder).tacks = s.tacks := rfl
@[simp] theorem updPolder_fired : (s.updPolder fPolder).fired = s.fired := rfl
@[simp] theorem updPolder_launches : (s.updPolder fPolder).launches = s.launches := rfl
@[simp] theorem updPolder_banks : (s.updPolder fPolder).banks = s.banks := rfl
@[simp] theorem updPolder_cells : (s.updPolder fPolder).cells = s.cells := rfl
@[simp] theorem updPolder_badParity : (s.updPolder fPolder).badParity = s.badParity := rfl
@[simp] theorem updPolder_modes : (s.updPolder fPolder).modes = s.modes := rfl
@[simp] theorem updPolder_dies : (s.updPolder fPolder).dies = s.dies := rfl
@[simp] theorem updPolder_blocks : (s.updPolder fPolder).blocks = s.blocks := rfl
@[simp] theorem updPolder_clockLost : (s.updPolder fPolder).clockLost = s.clockLost := rfl
@[simp] theorem updPolder_clockSaid : (s.updPolder fPolder).clockSaid = s.clockSaid := rfl
@[simp] theorem updPolder_clockTold : (s.updPolder fPolder).clockTold = s.clockTold := rfl
@[simp] theorem updPolder_byClock : (s.updPolder fPolder).byClock = s.byClock := rfl
@[simp] theorem updPolder_readmit : (s.updPolder fPolder).readmit = s.readmit := rfl
@[simp] theorem updPolder_miscount : (s.updPolder fPolder).miscount = s.miscount := rfl
@[simp] theorem updPolder_probeAt : (s.updPolder fPolder).probeAt = s.probeAt := rfl
@[simp] theorem updPolder_mach : (s.updPolder fPolder).mach = s.mach := rfl
@[simp] theorem updPolder_gate : (s.updPolder fPolder).gate = s.gate := rfl
@[simp] theorem updPolder_axes : (s.updPolder fPolder).axes = s.axes := rfl
@[simp] theorem updPolder_loop : (s.updPolder fPolder).loop = s.loop := rfl
@[simp] theorem updPolder_trace : (s.updPolder fPolder).trace = s.trace := rfl
@[simp] theorem updPolder_dram : (s.updPolder fPolder).dram = s.dram := rfl
@[simp] theorem updPolder_panel : (s.updPolder fPolder).panel = s.panel := rfl
@[simp] theorem updPolder_led : (s.updPolder fPolder).led = s.led := rfl
@[simp] theorem updPolder_net : (s.updPolder fPolder).net = s.net := rfl
@[simp] theorem updPolder_time : (s.updPolder fPolder).time = s.time := rfl
@[simp] theorem updPolder_hol : (s.updPolder fPolder).hol = s.hol := rfl
@[simp] theorem updPolder_sec : (s.updPolder fPolder).sec = s.sec := rfl
@[simp] theorem updPolder_tw : (s.updPolder fPolder).tw = s.tw := rfl
@[simp] theorem updPolder_merged : (s.updPolder fPolder).merged = s.merged := rfl
@[simp] theorem updPolder_faults : (s.updPolder fPolder).faults = s.faults := rfl
@[simp] theorem updPolder_word : (s.updPolder fPolder).word x = s.word x := rfl
@[simp] theorem updPolder_field : (s.updPolder fPolder).field x y z = s.field x y z := rfl
@[simp] theorem updPolder_flag : (s.updPolder fPolder).flag x y = s.flag x y := rfl
@[simp] theorem updPolder_core : (s.updPolder fPolder).core e = s.core e := rfl
@[simp] theorem updPolder_byteAt : (s.updPolder fPolder).byteAt x = s.byteAt x := rfl
@[simp] theorem updPolder_chan : (s.updPolder fPolder).chan d2 = s.chan d2 := rfl
@[simp] theorem updPolder_ledCh : (s.updPolder fPolder).ledCh ch2 = s.ledCh ch2 := rfl
@[simp] theorem updPolder_blockOut : (s.updPolder fPolder).blockOut blk = s.blockOut blk := rfl
@[simp] theorem updPolder_feature : (s.updPolder fPolder).feature x = s.feature x := rfl
@[simp] theorem updPolder_queue : (s.updPolder fPolder).queue x = s.queue x := by unfold State.queue; cases queueIx x <;> rfl
@[simp] theorem updPolder_addr64 : (s.updPolder fPolder).addr64 x = s.addr64 x := rfl
@[simp] theorem updPolder_freeVal : (s.updPolder fPolder).freeVal = s.freeVal := rfl

/-! ### updPol -/

@[simp] theorem updPol_pending : (s.updPol ax fPol).pending = s.pending := rfl
@[simp] theorem updPol_clock : (s.updPol ax fPol).clock = s.clock := rfl
@[simp] theorem updPol_free : (s.updPol ax fPol).free = s.free := rfl
@[simp] theorem updPol_sets : (s.updPol ax fPol).sets = s.sets := rfl
@[simp] theorem updPol_words : (s.updPol ax fPol).words = s.words := rfl
@[simp] theorem updPol_deviceTime : (s.updPol ax fPol).deviceTime = s.deviceTime := rfl
@[simp] theorem updPol_fuses : (s.updPol ax fPol).fuses = s.fuses := rfl
@[simp] theorem updPol_agreed : (s.updPol ax fPol).agreed = s.agreed := rfl
@[simp] theorem updPol_cores : (s.updPol ax fPol).cores = s.cores := rfl
@[simp] theorem updPol_queues : (s.updPol ax fPol).queues = s.queues := rfl
@[simp] theorem updPol_waiting : (s.updPol ax fPol).waiting = s.waiting := rfl
@[simp] theorem updPol_assembly : (s.updPol ax fPol).assembly = s.assembly := rfl
@[simp] theorem updPol_orderTurn : (s.updPol ax fPol).orderTurn = s.orderTurn := rfl
@[simp] theorem updPol_tokens : (s.updPol ax fPol).tokens = s.tokens := rfl
@[simp] theorem updPol_orders : (s.updPol ax fPol).orders = s.orders := rfl
@[simp] theorem updPol_accepted : (s.updPol ax fPol).accepted = s.accepted := rfl
@[simp] theorem updPol_delivered : (s.updPol ax fPol).delivered = s.delivered := rfl
@[simp] theorem updPol_tacks : (s.updPol ax fPol).tacks = s.tacks := rfl
@[simp] theorem updPol_fired : (s.updPol ax fPol).fired = s.fired := rfl
@[simp] theorem updPol_launches : (s.updPol ax fPol).launches = s.launches := rfl
@[simp] theorem updPol_banks : (s.updPol ax fPol).banks = s.banks := rfl
@[simp] theorem updPol_cells : (s.updPol ax fPol).cells = s.cells := rfl
@[simp] theorem updPol_badParity : (s.updPol ax fPol).badParity = s.badParity := rfl
@[simp] theorem updPol_modes : (s.updPol ax fPol).modes = s.modes := rfl
@[simp] theorem updPol_dies : (s.updPol ax fPol).dies = s.dies := rfl
@[simp] theorem updPol_blocks : (s.updPol ax fPol).blocks = s.blocks := rfl
@[simp] theorem updPol_clockLost : (s.updPol ax fPol).clockLost = s.clockLost := rfl
@[simp] theorem updPol_clockSaid : (s.updPol ax fPol).clockSaid = s.clockSaid := rfl
@[simp] theorem updPol_clockTold : (s.updPol ax fPol).clockTold = s.clockTold := rfl
@[simp] theorem updPol_byClock : (s.updPol ax fPol).byClock = s.byClock := rfl
@[simp] theorem updPol_readmit : (s.updPol ax fPol).readmit = s.readmit := rfl
@[simp] theorem updPol_miscount : (s.updPol ax fPol).miscount = s.miscount := rfl
@[simp] theorem updPol_probeAt : (s.updPol ax fPol).probeAt = s.probeAt := rfl
@[simp] theorem updPol_mach : (s.updPol ax fPol).mach = s.mach := rfl
@[simp] theorem updPol_gate : (s.updPol ax fPol).gate = s.gate := rfl
@[simp] theorem updPol_axes : (s.updPol ax fPol).axes = s.axes := rfl
@[simp] theorem updPol_loop : (s.updPol ax fPol).loop = s.loop := rfl
@[simp] theorem updPol_trace : (s.updPol ax fPol).trace = s.trace := rfl
@[simp] theorem updPol_dram : (s.updPol ax fPol).dram = s.dram := rfl
@[simp] theorem updPol_panel : (s.updPol ax fPol).panel = s.panel := rfl
@[simp] theorem updPol_led : (s.updPol ax fPol).led = s.led := rfl
@[simp] theorem updPol_net : (s.updPol ax fPol).net = s.net := rfl
@[simp] theorem updPol_time : (s.updPol ax fPol).time = s.time := rfl
@[simp] theorem updPol_hol : (s.updPol ax fPol).hol = s.hol := rfl
@[simp] theorem updPol_sec : (s.updPol ax fPol).sec = s.sec := rfl
@[simp] theorem updPol_tw : (s.updPol ax fPol).tw = s.tw := rfl
@[simp] theorem updPol_merged : (s.updPol ax fPol).merged = s.merged := rfl
@[simp] theorem updPol_faults : (s.updPol ax fPol).faults = s.faults := rfl
@[simp] theorem updPol_word : (s.updPol ax fPol).word x = s.word x := rfl
@[simp] theorem updPol_field : (s.updPol ax fPol).field x y z = s.field x y z := rfl
@[simp] theorem updPol_flag : (s.updPol ax fPol).flag x y = s.flag x y := rfl
@[simp] theorem updPol_core : (s.updPol ax fPol).core e = s.core e := rfl
@[simp] theorem updPol_byteAt : (s.updPol ax fPol).byteAt x = s.byteAt x := rfl
@[simp] theorem updPol_chan : (s.updPol ax fPol).chan d2 = s.chan d2 := rfl
@[simp] theorem updPol_ledCh : (s.updPol ax fPol).ledCh ch2 = s.ledCh ch2 := rfl
@[simp] theorem updPol_blockOut : (s.updPol ax fPol).blockOut blk = s.blockOut blk := rfl
@[simp] theorem updPol_feature : (s.updPol ax fPol).feature x = s.feature x := rfl
@[simp] theorem updPol_queue : (s.updPol ax fPol).queue x = s.queue x := by unfold State.queue; cases queueIx x <;> rfl
@[simp] theorem updPol_addr64 : (s.updPol ax fPol).addr64 x = s.addr64 x := rfl
@[simp] theorem updPol_freeVal : (s.updPol ax fPol).freeVal = s.freeVal := rfl

/-! ### updTw -/

@[simp] theorem updTw_pending : (s.updTw k3 fTw).pending = s.pending := rfl
@[simp] theorem updTw_clock : (s.updTw k3 fTw).clock = s.clock := rfl
@[simp] theorem updTw_free : (s.updTw k3 fTw).free = s.free := rfl
@[simp] theorem updTw_sets : (s.updTw k3 fTw).sets = s.sets := rfl
@[simp] theorem updTw_words : (s.updTw k3 fTw).words = s.words := rfl
@[simp] theorem updTw_deviceTime : (s.updTw k3 fTw).deviceTime = s.deviceTime := rfl
@[simp] theorem updTw_fuses : (s.updTw k3 fTw).fuses = s.fuses := rfl
@[simp] theorem updTw_agreed : (s.updTw k3 fTw).agreed = s.agreed := rfl
@[simp] theorem updTw_cores : (s.updTw k3 fTw).cores = s.cores := rfl
@[simp] theorem updTw_queues : (s.updTw k3 fTw).queues = s.queues := rfl
@[simp] theorem updTw_waiting : (s.updTw k3 fTw).waiting = s.waiting := rfl
@[simp] theorem updTw_assembly : (s.updTw k3 fTw).assembly = s.assembly := rfl
@[simp] theorem updTw_orderTurn : (s.updTw k3 fTw).orderTurn = s.orderTurn := rfl
@[simp] theorem updTw_tokens : (s.updTw k3 fTw).tokens = s.tokens := rfl
@[simp] theorem updTw_orders : (s.updTw k3 fTw).orders = s.orders := rfl
@[simp] theorem updTw_accepted : (s.updTw k3 fTw).accepted = s.accepted := rfl
@[simp] theorem updTw_delivered : (s.updTw k3 fTw).delivered = s.delivered := rfl
@[simp] theorem updTw_tacks : (s.updTw k3 fTw).tacks = s.tacks := rfl
@[simp] theorem updTw_fired : (s.updTw k3 fTw).fired = s.fired := rfl
@[simp] theorem updTw_launches : (s.updTw k3 fTw).launches = s.launches := rfl
@[simp] theorem updTw_banks : (s.updTw k3 fTw).banks = s.banks := rfl
@[simp] theorem updTw_cells : (s.updTw k3 fTw).cells = s.cells := rfl
@[simp] theorem updTw_badParity : (s.updTw k3 fTw).badParity = s.badParity := rfl
@[simp] theorem updTw_modes : (s.updTw k3 fTw).modes = s.modes := rfl
@[simp] theorem updTw_dies : (s.updTw k3 fTw).dies = s.dies := rfl
@[simp] theorem updTw_blocks : (s.updTw k3 fTw).blocks = s.blocks := rfl
@[simp] theorem updTw_clockLost : (s.updTw k3 fTw).clockLost = s.clockLost := rfl
@[simp] theorem updTw_clockSaid : (s.updTw k3 fTw).clockSaid = s.clockSaid := rfl
@[simp] theorem updTw_clockTold : (s.updTw k3 fTw).clockTold = s.clockTold := rfl
@[simp] theorem updTw_byClock : (s.updTw k3 fTw).byClock = s.byClock := rfl
@[simp] theorem updTw_readmit : (s.updTw k3 fTw).readmit = s.readmit := rfl
@[simp] theorem updTw_miscount : (s.updTw k3 fTw).miscount = s.miscount := rfl
@[simp] theorem updTw_probeAt : (s.updTw k3 fTw).probeAt = s.probeAt := rfl
@[simp] theorem updTw_mach : (s.updTw k3 fTw).mach = s.mach := rfl
@[simp] theorem updTw_gate : (s.updTw k3 fTw).gate = s.gate := rfl
@[simp] theorem updTw_axes : (s.updTw k3 fTw).axes = s.axes := rfl
@[simp] theorem updTw_loop : (s.updTw k3 fTw).loop = s.loop := rfl
@[simp] theorem updTw_trace : (s.updTw k3 fTw).trace = s.trace := rfl
@[simp] theorem updTw_dram : (s.updTw k3 fTw).dram = s.dram := rfl
@[simp] theorem updTw_panel : (s.updTw k3 fTw).panel = s.panel := rfl
@[simp] theorem updTw_led : (s.updTw k3 fTw).led = s.led := rfl
@[simp] theorem updTw_net : (s.updTw k3 fTw).net = s.net := rfl
@[simp] theorem updTw_time : (s.updTw k3 fTw).time = s.time := rfl
@[simp] theorem updTw_hol : (s.updTw k3 fTw).hol = s.hol := rfl
@[simp] theorem updTw_sec : (s.updTw k3 fTw).sec = s.sec := rfl
@[simp] theorem updTw_polder : (s.updTw k3 fTw).polder = s.polder := rfl
@[simp] theorem updTw_merged : (s.updTw k3 fTw).merged = s.merged := rfl
@[simp] theorem updTw_faults : (s.updTw k3 fTw).faults = s.faults := rfl
@[simp] theorem updTw_word : (s.updTw k3 fTw).word x = s.word x := rfl
@[simp] theorem updTw_field : (s.updTw k3 fTw).field x y z = s.field x y z := rfl
@[simp] theorem updTw_flag : (s.updTw k3 fTw).flag x y = s.flag x y := rfl
@[simp] theorem updTw_core : (s.updTw k3 fTw).core e = s.core e := rfl
@[simp] theorem updTw_byteAt : (s.updTw k3 fTw).byteAt x = s.byteAt x := rfl
@[simp] theorem updTw_chan : (s.updTw k3 fTw).chan d2 = s.chan d2 := rfl
@[simp] theorem updTw_ledCh : (s.updTw k3 fTw).ledCh ch2 = s.ledCh ch2 := rfl
@[simp] theorem updTw_blockOut : (s.updTw k3 fTw).blockOut blk = s.blockOut blk := rfl
@[simp] theorem updTw_feature : (s.updTw k3 fTw).feature x = s.feature x := rfl
@[simp] theorem updTw_queue : (s.updTw k3 fTw).queue x = s.queue x := by unfold State.queue; cases queueIx x <;> rfl
@[simp] theorem updTw_addr64 : (s.updTw k3 fTw).addr64 x = s.addr64 x := rfl
@[simp] theorem updTw_freeVal : (s.updTw k3 fTw).freeVal = s.freeVal := rfl

/-! ### setQueue -/

@[simp] theorem setQueue_pending (l : List QEntry) : (s.setQueue a l).pending = s.pending := by unfold State.setQueue; split <;> rfl
@[simp] theorem setQueue_clock (l : List QEntry) : (s.setQueue a l).clock = s.clock := by unfold State.setQueue; split <;> rfl
@[simp] theorem setQueue_free (l : List QEntry) : (s.setQueue a l).free = s.free := by unfold State.setQueue; split <;> rfl
@[simp] theorem setQueue_sets (l : List QEntry) : (s.setQueue a l).sets = s.sets := by unfold State.setQueue; split <;> rfl
@[simp] theorem setQueue_words (l : List QEntry) : (s.setQueue a l).words = s.words := by unfold State.setQueue; split <;> rfl
@[simp] theorem setQueue_deviceTime (l : List QEntry) : (s.setQueue a l).deviceTime = s.deviceTime := by unfold State.setQueue; split <;> rfl
@[simp] theorem setQueue_fuses (l : List QEntry) : (s.setQueue a l).fuses = s.fuses := by unfold State.setQueue; split <;> rfl
@[simp] theorem setQueue_agreed (l : List QEntry) : (s.setQueue a l).agreed = s.agreed := by unfold State.setQueue; split <;> rfl
@[simp] theorem setQueue_cores (l : List QEntry) : (s.setQueue a l).cores = s.cores := by unfold State.setQueue; split <;> rfl
@[simp] theorem setQueue_waiting (l : List QEntry) : (s.setQueue a l).waiting = s.waiting := by unfold State.setQueue; split <;> rfl
@[simp] theorem setQueue_assembly (l : List QEntry) : (s.setQueue a l).assembly = s.assembly := by unfold State.setQueue; split <;> rfl
@[simp] theorem setQueue_orderTurn (l : List QEntry) : (s.setQueue a l).orderTurn = s.orderTurn := by unfold State.setQueue; split <;> rfl
@[simp] theorem setQueue_tokens (l : List QEntry) : (s.setQueue a l).tokens = s.tokens := by unfold State.setQueue; split <;> rfl
@[simp] theorem setQueue_orders (l : List QEntry) : (s.setQueue a l).orders = s.orders := by unfold State.setQueue; split <;> rfl
@[simp] theorem setQueue_accepted (l : List QEntry) : (s.setQueue a l).accepted = s.accepted := by unfold State.setQueue; split <;> rfl
@[simp] theorem setQueue_delivered (l : List QEntry) : (s.setQueue a l).delivered = s.delivered := by unfold State.setQueue; split <;> rfl
@[simp] theorem setQueue_tacks (l : List QEntry) : (s.setQueue a l).tacks = s.tacks := by unfold State.setQueue; split <;> rfl
@[simp] theorem setQueue_fired (l : List QEntry) : (s.setQueue a l).fired = s.fired := by unfold State.setQueue; split <;> rfl
@[simp] theorem setQueue_launches (l : List QEntry) : (s.setQueue a l).launches = s.launches := by unfold State.setQueue; split <;> rfl
@[simp] theorem setQueue_banks (l : List QEntry) : (s.setQueue a l).banks = s.banks := by unfold State.setQueue; split <;> rfl
@[simp] theorem setQueue_cells (l : List QEntry) : (s.setQueue a l).cells = s.cells := by unfold State.setQueue; split <;> rfl
@[simp] theorem setQueue_badParity (l : List QEntry) : (s.setQueue a l).badParity = s.badParity := by unfold State.setQueue; split <;> rfl
@[simp] theorem setQueue_modes (l : List QEntry) : (s.setQueue a l).modes = s.modes := by unfold State.setQueue; split <;> rfl
@[simp] theorem setQueue_dies (l : List QEntry) : (s.setQueue a l).dies = s.dies := by unfold State.setQueue; split <;> rfl
@[simp] theorem setQueue_blocks (l : List QEntry) : (s.setQueue a l).blocks = s.blocks := by unfold State.setQueue; split <;> rfl
@[simp] theorem setQueue_clockLost (l : List QEntry) : (s.setQueue a l).clockLost = s.clockLost := by unfold State.setQueue; split <;> rfl
@[simp] theorem setQueue_clockSaid (l : List QEntry) : (s.setQueue a l).clockSaid = s.clockSaid := by unfold State.setQueue; split <;> rfl
@[simp] theorem setQueue_clockTold (l : List QEntry) : (s.setQueue a l).clockTold = s.clockTold := by unfold State.setQueue; split <;> rfl
@[simp] theorem setQueue_byClock (l : List QEntry) : (s.setQueue a l).byClock = s.byClock := by unfold State.setQueue; split <;> rfl
@[simp] theorem setQueue_readmit (l : List QEntry) : (s.setQueue a l).readmit = s.readmit := by unfold State.setQueue; split <;> rfl
@[simp] theorem setQueue_miscount (l : List QEntry) : (s.setQueue a l).miscount = s.miscount := by unfold State.setQueue; split <;> rfl
@[simp] theorem setQueue_probeAt (l : List QEntry) : (s.setQueue a l).probeAt = s.probeAt := by unfold State.setQueue; split <;> rfl
@[simp] theorem setQueue_mach (l : List QEntry) : (s.setQueue a l).mach = s.mach := by unfold State.setQueue; split <;> rfl
@[simp] theorem setQueue_gate (l : List QEntry) : (s.setQueue a l).gate = s.gate := by unfold State.setQueue; split <;> rfl
@[simp] theorem setQueue_axes (l : List QEntry) : (s.setQueue a l).axes = s.axes := by unfold State.setQueue; split <;> rfl
@[simp] theorem setQueue_loop (l : List QEntry) : (s.setQueue a l).loop = s.loop := by unfold State.setQueue; split <;> rfl
@[simp] theorem setQueue_trace (l : List QEntry) : (s.setQueue a l).trace = s.trace := by unfold State.setQueue; split <;> rfl
@[simp] theorem setQueue_dram (l : List QEntry) : (s.setQueue a l).dram = s.dram := by unfold State.setQueue; split <;> rfl
@[simp] theorem setQueue_panel (l : List QEntry) : (s.setQueue a l).panel = s.panel := by unfold State.setQueue; split <;> rfl
@[simp] theorem setQueue_led (l : List QEntry) : (s.setQueue a l).led = s.led := by unfold State.setQueue; split <;> rfl
@[simp] theorem setQueue_net (l : List QEntry) : (s.setQueue a l).net = s.net := by unfold State.setQueue; split <;> rfl
@[simp] theorem setQueue_time (l : List QEntry) : (s.setQueue a l).time = s.time := by unfold State.setQueue; split <;> rfl
@[simp] theorem setQueue_hol (l : List QEntry) : (s.setQueue a l).hol = s.hol := by unfold State.setQueue; split <;> rfl
@[simp] theorem setQueue_sec (l : List QEntry) : (s.setQueue a l).sec = s.sec := by unfold State.setQueue; split <;> rfl
@[simp] theorem setQueue_polder (l : List QEntry) : (s.setQueue a l).polder = s.polder := by unfold State.setQueue; split <;> rfl
@[simp] theorem setQueue_tw (l : List QEntry) : (s.setQueue a l).tw = s.tw := by unfold State.setQueue; split <;> rfl
@[simp] theorem setQueue_merged (l : List QEntry) : (s.setQueue a l).merged = s.merged := by unfold State.setQueue; split <;> rfl
@[simp] theorem setQueue_faults (l : List QEntry) : (s.setQueue a l).faults = s.faults := by unfold State.setQueue; split <;> rfl
@[simp] theorem setQueue_word (l : List QEntry) : (s.setQueue a l).word x = s.word x := by unfold State.setQueue; split <;> rfl
@[simp] theorem setQueue_field (l : List QEntry) : (s.setQueue a l).field x y z = s.field x y z := by unfold State.setQueue; split <;> rfl
@[simp] theorem setQueue_flag (l : List QEntry) : (s.setQueue a l).flag x y = s.flag x y := by unfold State.setQueue; split <;> rfl
@[simp] theorem setQueue_core (l : List QEntry) : (s.setQueue a l).core e = s.core e := by unfold State.setQueue; split <;> rfl
@[simp] theorem setQueue_byteAt (l : List QEntry) : (s.setQueue a l).byteAt x = s.byteAt x := by unfold State.setQueue; split <;> rfl
@[simp] theorem setQueue_chan (l : List QEntry) : (s.setQueue a l).chan d2 = s.chan d2 := by unfold State.setQueue; split <;> rfl
@[simp] theorem setQueue_ledCh (l : List QEntry) : (s.setQueue a l).ledCh ch2 = s.ledCh ch2 := by unfold State.setQueue; split <;> rfl
@[simp] theorem setQueue_blockOut (l : List QEntry) : (s.setQueue a l).blockOut blk = s.blockOut blk := by unfold State.setQueue; split <;> rfl
@[simp] theorem setQueue_feature (l : List QEntry) : (s.setQueue a l).feature x = s.feature x := by unfold State.setQueue; split <;> rfl
@[simp] theorem setQueue_addr64 (l : List QEntry) : (s.setQueue a l).addr64 x = s.addr64 x := by unfold State.setQueue; split <;> rfl
@[simp] theorem setQueue_freeVal (l : List QEntry) : (s.setQueue a l).freeVal = s.freeVal := by unfold State.setQueue; split <;> rfl

end Sys2Proof.Machine
end

