-- ==== Sys2Proof/Laws/Words.lean ====
section
/-! SUPPORT. The stored control words: what a word, a field and a bit of it read as after a write of the same or of another word, and that
every write keeps memory in its canonical form. -/
namespace Sys2Proof.Machine

/-! ### Fields of one word -/

/-- A bit of a word whose field has been set: of the field, the value's bit; outside it, the bit as it was. -/
theorem bit_setBits (w : Word) (lo n v i : Nat) (h : lo + n ≤ 32) :
    bit (setBits w lo n v) i = if lo ≤ i ∧ i < lo + n then v.testBit (i - lo) else bit w i := by
  by_cases hi : i < 32
  · have mask : ((2 ^ n - 1) * 2 ^ lo).testBit i = decide (lo ≤ i ∧ i < lo + n) := by
      rw [Nat.mul_comm, Nat.testBit_two_pow_mul, Nat.testBit_two_pow_sub_one]
      by_cases h1 : lo ≤ i
      · simp [h1]; omega
      · simp [h1]
    have value : (v % 2 ^ n * 2 ^ lo).testBit i = (decide (lo ≤ i ∧ i < lo + n) && v.testBit (i - lo)) := by
      rw [Nat.mul_comm, Nat.testBit_two_pow_mul, Nat.testBit_mod_two_pow]
      by_cases h1 : lo ≤ i
      · have : (i - lo < n) ↔ (i < lo + n) := by omega
        simp [h1, this]
      · simp [h1]
    simp only [bit, setBits, BitVec.getLsbD_or, BitVec.getLsbD_and, BitVec.getLsbD_not, BitVec.getLsbD_ofNat, hi, decide_true, Bool.true_and, mask, value]
    by_cases h2 : lo ≤ i ∧ i < lo + n <;> simp [h2]
  · have h2 : ¬(lo ≤ i ∧ i < lo + n) := by omega
    rw [if_neg h2]
    simp only [bit, BitVec.getLsbD_of_ge _ _ (Nat.le_of_not_lt hi)]

/-- A bit of a field of a word. -/
theorem testBit_bits (w : Word) (lo n i : Nat) : (bits w lo n).testBit i = (decide (i < n) && bit w (lo + i)) := by
  simp [bits, bit, Nat.testBit_mod_two_pow, Nat.testBit_div_two_pow, BitVec.getLsbD, Nat.add_comm]

/-- A field reads below two to its width. -/
theorem bits_lt (w : Word) (lo n : Nat) : bits w lo n < 2 ^ n := Nat.mod_lt _ (Nat.two_pow_pos n)

/-- A field set reads as set, modulo its width. -/
theorem bits_setBits_same (w : Word) (lo n v : Nat) (h : lo + n ≤ 32) : bits (setBits w lo n v) lo n = v % 2 ^ n := by
  apply Nat.eq_of_testBit_eq
  intro i
  rw [testBit_bits, bit_setBits w lo n v _ h, Nat.testBit_mod_two_pow]
  by_cases hi : i < n
  · simp [hi]
  · simp [hi]

/-- A field apart from the one set reads as before. -/
theorem bits_setBits_out (w : Word) (lo n v lo' n' : Nat) (h : lo + n ≤ 32) (hd : lo' + n' ≤ lo ∨ lo + n ≤ lo') :
    bits (setBits w lo n v) lo' n' = bits w lo' n' := by
  apply Nat.eq_of_testBit_eq
  intro i
  rw [testBit_bits, testBit_bits, bit_setBits w lo n v _ h]
  by_cases hi : i < n'
  · rw [if_neg (by omega)]
  · simp [hi]

/-- A bit apart from the field set reads as before. -/
theorem bit_setBits_out (w : Word) (lo n v i : Nat) (h : lo + n ≤ 32) (hd : i < lo ∨ lo + n ≤ i) :
    bit (setBits w lo n v) i = bit w i := by
  rw [bit_setBits w lo n v i h, if_neg (by omega)]

/-- A bit set reads as set. -/
theorem bit_setBit_same (w : Word) (i : Nat) (b : Bool) (h : i < 32) : bit (setBit w i b) i = b := by
  unfold setBit
  rw [bit_setBits w i 1 _ i (by omega), if_pos (by omega), Nat.sub_self]
  cases b <;> rfl

/-- Another bit reads as before. -/
theorem bit_setBit_ne (w : Word) (i j : Nat) (b : Bool) (h : i < 32) (hne : i ≠ j) : bit (setBit w i b) j = bit w j := by
  unfold setBit
  exact bit_setBits_out w i 1 _ j (by omega) (by omega)

/-- A field apart from the bit set reads as before. -/
theorem bits_setBit_out (w : Word) (i lo n : Nat) (b : Bool) (h : i < 32) (hd : i < lo ∨ lo + n ≤ i) :
    bits (setBit w i b) lo n = bits w lo n := by
  unfold setBit
  exact bits_setBits_out w i 1 _ lo n (by omega) (by omega)

/-! ### Words of the state -/

variable (s : State)

/-- The control words are in canonical form. -/
theorem wf_words (h : Memory.wf s = true) : swf resetWord s.words = true := by
  simp only [Memory.wf, Bool.and_eq_true] at h
  exact h.1.1.1

/-- A word written reads as written. -/
theorem word_setWord_same (a : Nat) (w : Word) (h : Memory.wf s = true) : (s.setWord a w).word a = w :=
  sget_sput_same resetWord s.words a w (wf_words s h)

/-- Another word reads as before. -/
theorem word_setWord_ne (a b : Nat) (w : Word) (hne : a ≠ b) : (s.setWord a w).word b = s.word b :=
  sget_sput_ne resetWord s.words a b w hne

theorem word_setField_ne (a b lo n v : Nat) (hne : a ≠ b) : (s.setField a lo n v).word b = s.word b := word_setWord_ne s a b _ hne
theorem word_setFlag_ne (a b i : Nat) (v : Bool) (hne : a ≠ b) : (s.setFlag a i v).word b = s.word b := word_setWord_ne s a b _ hne
theorem word_countUp_ne (a b lo n : Nat) (hne : a ≠ b) : (s.countUp a lo n).word b = s.word b := word_setWord_ne s a b _ hne
theorem word_countWrap_ne (a b lo n : Nat) (hne : a ≠ b) : (s.countWrap a lo n).word b = s.word b := word_setWord_ne s a b _ hne

theorem field_setWord_ne (a b lo n : Nat) (w : Word) (hne : a ≠ b) : (s.setWord a w).field b lo n = s.field b lo n := by
  simp only [State.field, word_setWord_ne s a b w hne]
theorem flag_setWord_ne (a b i : Nat) (w : Word) (hne : a ≠ b) : (s.setWord a w).flag b i = s.flag b i := by
  simp only [State.flag, word_setWord_ne s a b w hne]
theorem field_setField_ne (a b lo n v lo' n' : Nat) (hne : a ≠ b) : (s.setField a lo n v).field b lo' n' = s.field b lo' n' :=
  field_setWord_ne s a b _ _ _ hne
theorem flag_setField_ne (a b lo n v i : Nat) (hne : a ≠ b) : (s.setField a lo n v).flag b i = s.flag b i := flag_setWord_ne s a b _ _ hne
theorem field_setFlag_ne (a b i lo n : Nat) (v : Bool) (hne : a ≠ b) : (s.setFlag a i v).field b lo n = s.field b lo n :=
  field_setWord_ne s a b _ _ _ hne
theorem flag_setFlag_word_ne (a b i j : Nat) (v : Bool) (hne : a ≠ b) : (s.setFlag a i v).flag b j = s.flag b j := flag_setWord_ne s a b _ _ hne

/-- A field written reads as written, modulo its width. -/
theorem field_setField_same (a lo n v : Nat) (hn : lo + n ≤ 32) (h : Memory.wf s = true) : (s.setField a lo n v).field a lo n = v % 2 ^ n := by
  simp only [State.field, State.setField, word_setWord_same s a _ h, bits_setBits_same _ lo n v hn]

/-- Another field of the same word reads as before. -/
theorem field_setField_out (a lo n v lo' n' : Nat) (hn : lo + n ≤ 32) (hd : lo' + n' ≤ lo ∨ lo + n ≤ lo') (h : Memory.wf s = true) :
    (s.setField a lo n v).field a lo' n' = s.field a lo' n' := by
  simp only [State.field, State.setField, word_setWord_same s a _ h, bits_setBits_out _ lo n v lo' n' hn hd]

/-- A bit of the same word outside the field reads as before. -/
theorem flag_setField_out (a lo n v i : Nat) (hn : lo + n ≤ 32) (hd : i < lo ∨ lo + n ≤ i) (h : Memory.wf s = true) :
    (s.setField a lo n v).flag a i = s.flag a i := by
  simp only [State.flag, State.setField, word_setWord_same s a _ h, bit_setBits_out _ lo n v i hn hd]

/-- A bit written reads as written. -/
theorem flag_setFlag_same (a i : Nat) (b : Bool) (hi : i < 32) (h : Memory.wf s = true) : (s.setFlag a i b).flag a i = b := by
  simp only [State.flag, State.setFlag, word_setWord_same s a _ h, bit_setBit_same _ i b hi]

/-- Another bit of the same word reads as before. -/
theorem flag_setFlag_ne (a i j : Nat) (b : Bool) (hi : i < 32) (hne : i ≠ j) (h : Memory.wf s = true) :
    (s.setFlag a i b).flag a j = s.flag a j := by
  simp only [State.flag, State.setFlag, word_setWord_same s a _ h, bit_setBit_ne _ i j b hi hne]

/-- A field of the same word apart from the bit reads as before. -/
theorem field_setFlag_out (a i lo n : Nat) (b : Bool) (hi : i < 32) (hd : i < lo ∨ lo + n ≤ i) (h : Memory.wf s = true) :
    (s.setFlag a i b).field a lo n = s.field a lo n := by
  simp only [State.field, State.setFlag, word_setWord_same s a _ h, bits_setBit_out _ i lo n b hi hd]

/-- A saturating counter field has counted one. -/
theorem field_countUp_same (a lo n : Nat) (hn : lo + n ≤ 32) (h : Memory.wf s = true) :
    (s.countUp a lo n).field a lo n = satInc n (s.field a lo n) := by
  unfold State.countUp
  rw [field_setField_same s a lo n _ hn h]
  apply Nat.mod_eq_of_lt
  unfold satInc
  split
  · assumption
  · have := Nat.two_pow_pos n
    omega

/-! ### Memory stays in canonical form -/

/-- Memory after reset is in canonical form. -/
theorem wf_reset : Memory.wf State.reset = true := by decide +kernel

/-- Memory in canonical form, part by part. -/
theorem wf_iff : Memory.wf s = true ↔ swf resetWord s.words = true ∧ swf resetWord s.panel.applied = true ∧ swf cellDefault s.cells = true ∧
    ∀ ch : Fin 2, swf (dramDefault (s.chan ch).epoch) (s.chan ch).cells = true := by
  simp only [Memory.wf, Bool.and_eq_true, List.all_eq_true]
  constructor
  · intro h
    exact ⟨h.1.1.1, h.1.1.2, h.1.2, fun ch => h.2 ch (List.mem_finRange ch)⟩
  · intro h
    exact ⟨⟨⟨h.1, h.2.1⟩, h.2.2.1⟩, fun ch _ => h.2.2.2 ch⟩

/-- A change that touches no memory keeps the form. -/
theorem wf_congr (t : State) (h1 : t.words = s.words) (h2 : t.panel.applied = s.panel.applied) (h3 : t.cells = s.cells)
    (h4 : t.dram = s.dram) : Memory.wf t = Memory.wf s := by
  simp only [Memory.wf, State.chan, h1, h2, h3, h4]

/-- A control word written keeps the form. -/
theorem wf_setWord (a : Nat) (w : Word) (h : Memory.wf s = true) : Memory.wf (s.setWord a w) = true := by
  rw [wf_iff] at h ⊢
  exact ⟨swf_sput resetWord s.words a w h.1, h.2⟩

theorem wf_setField (a lo n v : Nat) (h : Memory.wf s = true) : Memory.wf (s.setField a lo n v) = true := wf_setWord s a _ h
theorem wf_setFlag (a i : Nat) (b : Bool) (h : Memory.wf s = true) : Memory.wf (s.setFlag a i b) = true := wf_setWord s a _ h
theorem wf_countUp (a lo n : Nat) (h : Memory.wf s = true) : Memory.wf (s.countUp a lo n) = true := wf_setWord s a _ h
theorem wf_countWrap (a lo n : Nat) (h : Memory.wf s = true) : Memory.wf (s.countWrap a lo n) = true := wf_setWord s a _ h

/-- Control words that take their reset values keep the form. -/
theorem wf_resetWords (lo hi : Nat) (h : Memory.wf s = true) : Memory.wf (s.resetWords lo hi) = true := by
  rw [wf_iff] at h ⊢
  exact ⟨swf_sclear resetWord s.words lo hi h.1, h.2⟩

/-- Bytes stored to banks keep the form. -/
theorem wf_storeBytes (a : Nat) (bs : Bytes) (h : Memory.wf s = true) : Memory.wf (s.storeBytes a bs) = true := by
  rw [wf_iff] at h ⊢
  exact ⟨h.1, h.2.1, swf_sputs cellDefault bs s.cells a h.2.2.1, h.2.2.2⟩

/-- A bank filled with zeros keeps the form. -/
theorem wf_zeroFill (b : BankId) (h : Memory.wf s = true) : Memory.wf (zeroFill b s) = true := by
  rw [wf_iff] at h ⊢
  exact ⟨h.1, h.2.1, swf_sclear cellDefault s.cells _ _ h.2.2.1, h.2.2.2⟩

/-- A word left undefined keeps the form. -/
theorem wf_undefineWord (a : Nat) (h : Memory.wf s = true) : Memory.wf (undefineWord a s) = true := by
  unfold undefineWord
  dsimp only
  split
  · exact h
  · exact (wf_congr _ _ rfl rfl rfl rfl).trans (wf_setWord s a _ h)

/-- A change of one DRAM channel keeps the form where that channel's bytes keep it. -/
theorem wf_updChan (ch : Fin 2) (f : DramChan → DramChan) (h : Memory.wf s = true)
    (hf : swf (dramDefault (f (s.chan ch)).epoch) (f (s.chan ch)).cells = true) : Memory.wf (s.updChan ch f) = true := by
  rw [wf_iff] at h ⊢
  refine ⟨h.1, h.2.1, h.2.2.1, fun k => ?_⟩
  by_cases hk : ch = k
  · subst hk
    have : (s.updChan ch f).chan ch = f (s.chan ch) := by simp [State.updChan, State.chan]
    rw [this]; exact hf
  · have : (s.updChan ch f).chan k = s.chan k := by simp only [State.updChan, State.chan]; exact modAt_ne _ _ _ _ hk
    rw [this]; exact h.2.2.2 k

/-- Bytes stored to a DRAM channel keep the form. -/
theorem wf_writeCells (ch : Fin 2) (key : Nat) (bs : Bytes) (h : Memory.wf s = true) : Memory.wf (writeCells ch key bs s) = true :=
  wf_updChan s ch _ h (swf_sputs _ bs _ key (((wf_iff s).1 h).2.2.2 ch))

/-- A channel whose contents are lost keeps the form. -/
theorem wf_loseContents (ch : Fin 2) (h : Memory.wf s = true) : Memory.wf (loseContents ch s) = true := by
  have : Memory.wf (loseContents ch s) = Memory.wf (s.updChan ch fun x => { x with cells := [], poisoned := [], mended := [], errs := [], epoch := some s.free }) := rfl
  rw [this]
  exact wf_updChan s ch _ h rfl

/-! ### Bytes of banks -/

/-- A byte outside the run stored reads as before. -/
theorem byteAt_storeBytes_out (a b : Nat) (bs : Bytes) (h : b < a ∨ a + bs.length ≤ b) : (s.storeBytes a bs).byteAt b = s.byteAt b :=
  sget_sputs_out cellDefault bs s.cells a b h

/-- A byte of the run stored reads as stored. -/
theorem byteAt_storeBytes_in (a i : Nat) (bs : Bytes) (h : Memory.wf s = true) (hi : i < bs.length) :
    (s.storeBytes a bs).byteAt (a + i) = bs[i] :=
  sget_sputs_in cellDefault bs s.cells a i ((wf_iff s).1 h).2.2.1 hi

/-- Bytes read back as many as were stored. -/
theorem sgets_length {α : Type} (dflt : Nat → α) (l : List (Nat × α)) (a n : Nat) : (sgets dflt l a n).length = n := by
  induction n generalizing a with
  | zero => rfl
  | succ n ih => simp [sgets, ih]

/-- The i-th of the values read from a key on. -/
theorem sgets_get {α : Type} (dflt : Nat → α) (l : List (Nat × α)) (a n i : Nat) (h : i < (sgets dflt l a n).length) :
    (sgets dflt l a n)[i] = sget dflt l (a + i) := by
  induction n generalizing a i with
  | zero => simp [sgets] at h
  | succ n ih =>
    cases i with
    | zero => simp [sgets]
    | succ j =>
      simp only [sgets, List.getElem_cons_succ]
      rw [ih (a + 1) j (by simpa [sgets] using h)]
      congr 1
      omega

/-- A run of bytes stored to banks is loaded back. -/
theorem loadBytes_storeBytes (a : Nat) (bs : Bytes) (h : Memory.wf s = true) : (s.storeBytes a bs).loadBytes a bs.length = bs := by
  apply List.ext_getElem
  · simp [State.loadBytes, sgets_length]
  · intro i h1 h2
    exact (sgets_get _ _ _ _ i h1).trans (byteAt_storeBytes_in s a i bs h h2)

/-- A run of bytes written to a DRAM channel is read back. -/
theorem readCells_writeCells (ch : Fin 2) (key : Nat) (bs : Bytes) (h : Memory.wf s = true) :
    readCells ch key bs.length (writeCells ch key bs s) = bs := by
  have hc : (writeCells ch key bs s).chan ch =
      { s.chan ch with cells := sputs (dramDefault (s.chan ch).epoch) (s.chan ch).cells key bs } := by
    simp [writeCells, State.updChan, State.chan]
  apply List.ext_getElem
  · simp [readCells, sgets_length]
  · intro i h1 h2
    refine (sgets_get _ _ _ _ i h1).trans ?_
    rw [hc]
    exact sget_sputs_in _ bs _ key i (((wf_iff s).1 h).2.2.2 ch) h2

/-- A byte of a DRAM channel outside the run written reads as before. -/
theorem readCells_writeCells_out (ch : Fin 2) (key b : Nat) (bs : Bytes) (h : b < key ∨ key + bs.length ≤ b) :
    readCells ch b 1 (writeCells ch key bs s) = readCells ch b 1 s := by
  have hc : (writeCells ch key bs s).chan ch =
      { s.chan ch with cells := sputs (dramDefault (s.chan ch).epoch) (s.chan ch).cells key bs } := by
    simp [writeCells, State.updChan, State.chan]
  simp only [readCells, sgets, hc]
  rw [sget_sputs_out _ bs _ key b h]

end Sys2Proof.Machine
end

