-- ==== Sys2Proof/Laws/Dram.lean ====
section
/-! SUPPORT. What the shared operations on the lines of a DRAM channel do: bytes stored and read back, what is kept of a poisoned or bad
line, how a read is judged, and that each keeps the canonical form of the memories. -/
set_option Elab.async false

namespace Sys2Proof.Machine

variable (s : State) (ch : Fin 2) (key : Nat)

/-- A changed channel reads as changed. -/
@[simp] theorem chan_updChan (f : DramChan → DramChan) : (s.updChan ch f).chan ch = f (s.chan ch) := by simp [State.updChan, State.chan]

/-- The other channel stays as it was. -/
theorem chan_updChan_ne (d : Fin 2) (f : DramChan → DramChan) (h : ch ≠ d) : (s.updChan ch f).chan d = s.chan d := by
  simp only [State.updChan, State.chan]; exact modAt_ne _ _ _ _ h

/-! ### The canonical form -/

/-- A change of a channel that leaves its bytes keeps the form. -/
theorem wf_updChan_bytes (f : DramChan → DramChan) (h : Memory.wf s = true) (hc : (f (s.chan ch)).cells = (s.chan ch).cells)
    (he : (f (s.chan ch)).epoch = (s.chan ch).epoch) : Memory.wf (s.updChan ch f) = true := by
  refine wf_updChan s ch f h ?_
  rw [hc, he]; exact ((wf_iff s).1 h).2.2.2 ch

theorem wf_poisonLine (h : Memory.wf s = true) : Memory.wf (poisonLine ch key s) = true := by
  refine wf_updChan_bytes s ch _ h ?_ ?_ <;> split <;> rfl

theorem wf_cleanLine (h : Memory.wf s = true) : Memory.wf (cleanLine ch key s) = true := wf_updChan_bytes s ch _ h rfl rfl

theorem wf_setLineError (e : Ecc) (h : Memory.wf s = true) : Memory.wf (setLineError ch key e s) = true := wf_updChan_bytes s ch _ h rfl rfl

theorem wf_mendWords (n : Nat) (h : Memory.wf s = true) : Memory.wf (mendWords ch key n s) = true := by
  unfold mendWords
  dsimp only
  split
  · split
    · exact wf_cleanLine s ch key h
    · exact wf_updChan_bytes s ch _ h rfl rfl
  · exact h

theorem wf_storeLine (bs : Bytes) (h : Memory.wf s = true) : Memory.wf (storeLine ch key bs s) = true := by
  unfold storeLine
  dsimp only
  split
  · exact wf_writeCells s ch key bs h
  · exact wf_updChan_bytes _ ch _ (wf_writeCells _ ch key bs (wf_writeCells s ch _ _ h)) rfl rfl

theorem wf_undefineBytes (a n : Nat) (h : Memory.wf s = true) : Memory.wf (undefineBytes ch a n s) = true := by
  unfold undefineBytes
  split
  · exact (wf_congr _ _ rfl rfl rfl rfl).trans (wf_writeCells s ch _ _ h)
  · exact h

/-! ### Lines -/

/-- Bytes stored to a line read back. -/
theorem readCells_storeLine (bs : Bytes) (h : Memory.wf s = true) : readCells ch key bs.length (storeLine ch key bs s) = bs := by
  unfold storeLine
  dsimp only
  split
  · exact readCells_writeCells s ch key bs h
  · have := readCells_writeCells _ ch key bs (wf_writeCells s ch (key / 64 * 64) (List.replicate 64 0) h)
    simpa [readCells] using this

/-- A line marked poisoned is poisoned. -/
theorem linePoisoned_poisonLine : linePoisoned ch key (poisonLine ch key s) = true := by
  unfold linePoisoned poisonLine
  rw [chan_updChan]
  split
  · assumption
  · simp

/-- A line written whole is good. -/
theorem linePoisoned_cleanLine : linePoisoned ch key (cleanLine ch key s) = false := by
  simp [linePoisoned, cleanLine]

/-- The stored check bits of a line keep what was noted of them. -/
theorem lineError_setLineError (e : Ecc) (h : e ≠ .clean) : lineError ch key (setLineError ch key e s) = e := by
  simp [lineError, setLineError, h]

/-! ### The judgement of a read (R228) -/

section Judge
variable (wb : Bool) (a cs rank : Nat) (ecc : Ecc)

theorem judgeRead_poisoned (h : linePoisoned ch key s = true) : judgeRead wb ch a key cs rank ecc s = (.poison, s) := by
  simp [judgeRead, h]

theorem judgeRead_clean (h : linePoisoned ch key s = false) (hf : foundError ch key ecc s = .clean) :
    judgeRead wb ch a key cs rank ecc s = (.ok, s) := by
  simp [judgeRead, h, hf]

theorem judgeRead_single (syn : Byte) (h : linePoisoned ch key s = false) (hf : foundError ch key ecc s = .single syn) :
    judgeRead wb ch a key cs rank ecc s =
      (.ok, correctedError ch a syn.toNat cs (setLineError ch key (if wb then .clean else .single syn) s)) := by
  simp [judgeRead, h, hf]

theorem judgeRead_double (syn : Byte) (h : linePoisoned ch key s = false) (hf : foundError ch key ecc s = .double syn) :
    judgeRead wb ch a key cs rank ecc s = (.poison, uncorrectable ch a syn.toNat cs rank (setLineError ch key (.double syn) s)) := by
  simp [judgeRead, h, hf]

end Judge

/-- A core's reply arrives among its far replies, and nothing else changes. -/
theorem replyDram_core (r : DramReq) (c : CoreId) (q : FarReq) (st : Status) (data : Bytes) (h : r.from_ = .core c q) :
    replyDram r st data s = s.updCore c fun k => { k with farReplies := k.farReplies ++ [⟨q, st, data⟩] } := by
  simp [replyDram, h]

/-- An engine's reply counts a POISON. -/
theorem replyDram_engine (r : DramReq) (st : Status) (data : Bytes) (h : r.from_ = .engine) :
    replyDram r st data s = onlyIf (decide (st = .poison)) poisonReply s := by
  simp [replyDram, h]

end Sys2Proof.Machine
end

