-- ==== Sys2Proof/Laws/Ops.lean ====
section
/-! SUPPORT. What each shared operation can do, said once: lists of changes, the fault record, bits that hardware sets, banks, program queues, traps, and the one
path of every write of a control word. -/
namespace Sys2Proof.Machine

variable {s : State}

/-! ### Lists of changes -/

section Changes
variable {α β : Type}

@[simp] theorem forAll_nil (f : α → State → State) : forAll f [] s = s := rfl
@[simp] theorem forAll_cons (f : α → State → State) (x : α) (l : List α) : forAll f (x :: l) s = forAll f l (f x s) := rfl

theorem forAll_append (f : α → State → State) (l m : List α) : ∀ s, forAll f (l ++ m) s = forAll f m (forAll f l s) := by
  induction l with
  | nil => intro s; rfl
  | cons x l ih => intro s; exact ih (f x s)

/-- What every change of a list keeps, the list keeps. -/
theorem forAll_induct (P : State → Prop) (f : α → State → State) (l : List α) (hf : ∀ x ∈ l, ∀ s, P s → P (f x s)) :
    ∀ s, P s → P (forAll f l s) := by
  induction l with
  | nil => exact fun s h => h
  | cons x l ih =>
    exact fun s h => ih (fun y hy => hf y (List.mem_cons_of_mem _ hy)) _ (hf x (List.mem_cons_self ..) s h)

/-- A part of the state that no change of a list touches reads as before. -/
theorem forAll_keeps (g : State → β) (f : α → State → State) (l : List α) (hf : ∀ x ∈ l, ∀ s, g (f x s) = g s) :
    ∀ s, g (forAll f l s) = g s := by
  induction l with
  | nil => exact fun s => rfl
  | cons x l ih =>
    exact fun s => (ih (fun y hy => hf y (List.mem_cons_of_mem _ hy)) _).trans (hf x (List.mem_cons_self ..) s)

@[simp] theorem onlyIf_true (f : State → State) : onlyIf true f s = f s := rfl
@[simp] theorem onlyIf_false (f : State → State) : onlyIf false f s = s := rfl

theorem onlyIf_induct (P : State → Prop) (b : Bool) (f : State → State) (hf : P s → P (f s)) (h : P s) : P (onlyIf b f s) := by
  cases b
  · exact h
  · exact hf h

theorem onlyIf_keeps (g : State → β) (b : Bool) (f : State → State) (hf : g (f s) = g s) : g (onlyIf b f s) = g s := by
  cases b
  · rfl
  · exact hf

end Changes

/-! ### Events and the fault record -/

/-- Every core takes the event, and changes in nothing else (R83). -/
theorem core_raiseAll (n : Nat) (c : CoreId) : (raiseAll n s).core c = { s.core c with events := setBit (s.core c).events n true } := by
  simp [raiseAll, State.core]

/-- The newest entry of the record (R534). -/
theorem record_head (code unit data : Nat) :
    (record code unit data s).faults.ring.head? = some ⟨BitVec.ofNat 16 code, BitVec.ofNat 16 unit, BitVec.ofNat 32 data, s.deviceTime⟩ := by
  simp [record, raiseAll]

/-- The record counts the fault and moves its head; the ring holds the newest 256 entries (R534, R535). -/
theorem record_faults (code unit data : Nat) :
    (record code unit data s).faults = { s.faults with
      count := satInc 32 s.faults.count, head := (s.faults.head + 1) % 256
      ring := ((⟨BitVec.ofNat 16 code, BitVec.ofNat 16 unit, BitVec.ofNat 32 data, s.deviceTime⟩ : FaultEntry) :: s.faults.ring).take 256 } := rfl

/-- A recorded fault raises event 23 on every core (R535). -/
theorem core_record (code unit data : Nat) (c : CoreId) :
    (record code unit data s).core c = { s.core c with events := setBit (s.core c).events 23 true } := by
  simp [record, raiseAll, State.core]

/-- A limited report is recorded where none of its code and unit was recorded within the last second, and else only counted (R536). -/
theorem recordLimited_spec (code unit data : Nat) :
    ((∀ t, s.faults.limited.lookup (code, unit) = some t → t + 1000000000 ≤ s.clock) ∧
      recordLimited code unit data s = { record code unit data s with faults := { (record code unit data s).faults with
        limited := ((code, unit), s.clock) :: s.faults.limited.filter (fun e => decide (e.1 ≠ (code, unit))) } }) ∨
    (∃ t, s.faults.limited.lookup (code, unit) = some t ∧ s.clock < t + 1000000000 ∧
      recordLimited code unit data s = { s with faults := { s.faults with suppressed := satInc 32 s.faults.suppressed } }) := by
  cases h : s.faults.limited.lookup (code, unit) with
  | none => exact .inl ⟨by simp, by simp only [recordLimited, h, if_true]; rfl⟩
  | some t =>
    by_cases ht : t + 1000000000 ≤ s.clock
    · exact .inl ⟨by simp [ht], by simp only [recordLimited, h, ht, decide_true, if_true]; rfl⟩
    · exact .inr ⟨t, rfl, by omega, by simp [recordLimited, h, ht]⟩

/-! ### Bits that hardware sets -/

/-- A bit that hardware sets is one set in the present update (R9). -/
theorem justSet_latch (a i : Nat) : (s.latch a i).justSet a i = true := by
  by_cases h : s.sets.at_ = s.clock <;> simp [State.justSet, State.latch, h] <;> split <;> simp_all

/-- Of an update later than the last that is kept, hardware has set nothing. -/
theorem justSet_later (a i : Nat) (h : s.sets.at_ ≠ s.clock) : s.justSet a i = false := by simp [State.justSet, h]

/-! ### Banks -/

theorem bankOf_lt (a : Nat) (h : a < 0x400000) : bankOf a = some ⟨a / 0x20000, by omega⟩ := by
  have : a / 0x20000 < 32 := by omega
  simp [bankOf, this]

theorem bankOf_ge (a : Nat) (h : 0x400000 ≤ a) : bankOf a = none := by
  have : ¬a / 0x20000 < 32 := by omega
  simp [bankOf, this]

/-- The owner of a bank reads its bytes where their parity is right (R254, R259). -/
theorem bankRead_ok (receiver a n : Nat) (h : s.owns receiver a = true) (hp : s.parityError a n = none) :
    bankRead receiver a n s = (.ok (s.loadBytes a n), s) := by
  simp [bankRead, h, hp]

/-- A byte of wrong parity: counted, recorded and raised (R259). -/
theorem bankRead_parity (receiver a n p : Nat) (h : s.owns receiver a = true) (hp : s.parityError a n = some p) :
    bankRead receiver a n s = (.parity, bankParity receiver p s) := by
  simp [bankRead, h, hp]

/-- Another than the owner is refused (R254). -/
theorem bankRead_refused (receiver a n : Nat) (h : s.owns receiver a = false) :
    bankRead receiver a n s = (.refused, bankRefused receiver a s) := by
  simp [bankRead, h]

theorem bankRefused_in (receiver a : Nat) (b : BankId) (h : bankOf a = some b) :
    bankRefused receiver a s = record 0x2011 b receiver (s.countUp 0x1024 0 32) := by
  simp [bankRefused, h]

theorem bankRefused_out (receiver a : Nat) (h : bankOf a = none) : bankRefused receiver a s = s := by
  simp [bankRefused, h]

/-- After the fill a byte of the bank reads 0, and every other byte as before (R260). -/
theorem byteAt_zeroFill (b : BankId) (a : Nat) :
    (zeroFill b s).byteAt a = if b.val * 0x20000 ≤ a ∧ a < b.val * 0x20000 + 0x20000 then 0 else s.byteAt a := by
  split
  · next h => exact sget_sclear_in _ _ _ _ _ h.1 h.2
  · next h => exact sget_sclear_out _ _ _ _ _ (by omega)

/-! ### Program queues -/

theorem queueIx_some (q : Nat) (h1 : 192 ≤ q) (h2 : q < 256) : queueIx q = some ⟨q - 192, by omega⟩ := by
  have : q - 192 < 64 := by omega
  simp [queueIx, h1, this]

/-- The queue at a place. -/
theorem queue_at (q : Nat) (i : Fin 64) (e : queueIx q = some i) : s.queue q = s.queues[i] := by
  unfold State.queue; rw [e]

/-- The queue at a place replaced. -/
theorem setQueue_at (q : Nat) (i : Fin 64) (l : List QEntry) (e : queueIx q = some i) :
    s.setQueue q l = { s with queues := modAt s.queues i fun _ => l } := by
  unfold State.setQueue; rw [e]

theorem queue_setQueue_same (q : Nat) (l : List QEntry) (h1 : 192 ≤ q) (h2 : q < 256) : (s.setQueue q l).queue q = l := by
  obtain ⟨i, e⟩ : ∃ i, queueIx q = some i := ⟨_, queueIx_some q h1 h2⟩
  rw [queue_at q i e, setQueue_at q i l e]
  exact modAt_same ..

/-- Two queues in one place are one queue. -/
theorem queueIx_inj (q r : Nat) (i : Fin 64) (hq : queueIx q = some i) (hr : queueIx r = some i) : q = r := by
  unfold queueIx at hq hr
  split at hq
  · split at hr
    · have := congrArg Fin.val (Option.some.inj (hq.trans hr.symm))
      simp only at this
      omega
    · cases hr
  · cases hq

theorem queue_setQueue_ne (q r : Nat) (l : List QEntry) (h : q ≠ r) : (s.setQueue q l).queue r = s.queue r := by
  cases hq : queueIx q with
  | none => unfold State.setQueue; rw [hq]
  | some i =>
    rw [setQueue_at q i l hq]
    cases hr : queueIx r with
    | none => unfold State.queue; rw [hr]
    | some j =>
      rw [queue_at r j hr, queue_at r j hr]
      exact modAt_ne _ _ _ _ fun e => h (queueIx_inj q r i hq (e ▸ hr))

/-- Without the probe on the queue, a push is the entry at its end (R26). -/
theorem pushQueue_plain (q sender : Nat) (v : Word) (h : s.field 0x0409 0 8 ≠ q) :
    pushQueue q sender v s = s.setQueue q (s.queue q ++ [⟨sender, v⟩]) := by
  have : (s.setQueue q (s.queue q ++ [⟨sender, v⟩])).field 0x0409 0 8 = s.field 0x0409 0 8 := by
    unfold State.setQueue; split <;> rfl
  simp only [pushQueue, probeHandshake, this, beq_eq_false_iff_ne.mpr h, onlyIf_false]

/-- Without the probe on the queue, a pop is the queue without its head (R26). -/
theorem popQueue_plain (q : Nat) (h : s.field 0x0409 0 8 ≠ q) : popQueue q s = s.setQueue q (s.queue q).tail := by
  have : (s.setQueue q (s.queue q).tail).field 0x0409 0 8 = s.field 0x0409 0 8 := by
    unfold State.setQueue; split <;> rfl
  simp only [popQueue, probeHandshake, this, beq_eq_false_iff_ne.mpr h, onlyIf_false]

theorem queue_countWrap (q a lo n : Nat) : (s.countWrap a lo n).queue q = s.queue q := by
  unfold State.queue; cases queueIx q <;> rfl

theorem queue_probeHandshake (q r : Nat) : (probeHandshake r s).queue q = s.queue q := by
  unfold probeHandshake onlyIf
  split
  · exact queue_countWrap q _ _ _
  · rfl

theorem queue_pushQueue (q sender : Nat) (v : Word) (h1 : 192 ≤ q) (h2 : q < 256) :
    (pushQueue q sender v s).queue q = s.queue q ++ [⟨sender, v⟩] := by
  unfold pushQueue
  rw [queue_probeHandshake, queue_setQueue_same q _ h1 h2]

theorem queue_popQueue (q : Nat) (h1 : 192 ≤ q) (h2 : q < 256) : (popQueue q s).queue q = (s.queue q).tail := by
  unfold popQueue
  rw [queue_probeHandshake, queue_setQueue_same q _ h1 h2]

/-! ### Traps -/

/-- A synchronous cause outside a handler enters the trap (R96). -/
theorem syncTrap_enters (c : CoreId) (cause : Nat) (pc lo hi : Word) (h : (s.core c).f.t = false) :
    syncTrap c cause pc lo hi s = enterTrap c cause pc lo hi s := by
  simp [syncTrap, h]

/-- A synchronous cause within a handler halts the core with CORE_DOUBLE_TRAP (R97). -/
theorem syncTrap_halts (c : CoreId) (cause : Nat) (pc lo hi : Word) (h : (s.core c).f.t = true) :
    syncTrap c cause pc lo hi s =
      record 0x1010 c (cause % 16 * 2 ^ 28 + pc.toNat % 2 ^ 22) (s.updCore c fun k => { k with status := .doubleTrap }) := by
  simp [syncTrap, h]

/-- Entering a trap changes its core alone: what it saves and where it goes on (R96, R133). -/
theorem core_enterTrap (c : CoreId) (cause : Nat) (pc lo hi : Word) :
    (enterTrap c cause pc lo hi s).core c = { s.core c with
      trapCause := BitVec.ofNat 4 cause, trapPc := pc, trapF := (s.core c).f.toWord, trapLo := lo, trapHi := hi
      f := { (s.core c).f with t := true }, pc := codeAddr (s.word (coreAddr c 3)), status := .running, entryWait := false } :=
  core_updCore ..

theorem core_enterTrap_ne (c d : CoreId) (cause : Nat) (pc lo hi : Word) (h : c ≠ d) :
    (enterTrap c cause pc lo hi s).core d = s.core d := core_updCore_ne _ _ _ _ h

/-- An asynchronous cause is taken where the core can take it (R97). -/
theorem asyncTrap_enters (c : CoreId) (cause : Nat) (addr : DWord) (h : canTrap (s.core c) = true) :
    asyncTrap c cause addr s = enterAsync c (cause, addr) s := by
  simp [asyncTrap, h]

/-- An asynchronous cause is else held in cause order (R97). -/
theorem asyncTrap_holds (c : CoreId) (cause : Nat) (addr : DWord) (h : canTrap (s.core c) = false) :
    asyncTrap c cause addr s = s.updCore c fun k => { k with held := holdCause (cause, addr) k.held } := by
  simp [asyncTrap, h]

theorem takeHeld_none (c : CoreId) (h : (s.core c).held = []) : takeHeld c s = s := by simp [takeHeld, h]

/-- A return with no cause held restores F and the PC (R96, R132). -/
theorem returnTrap_none (c : CoreId) (skip : Bool) (h : (s.core c).held = []) :
    returnTrap c skip s = s.updCore c fun k => { k with f := Flags.ofWord k.trapF, pc := k.trapPc + (if skip then 4 else 0) } :=
  takeHeld_none c (by simp [h])

/-- What is saved in a handler's word F comes back from it (R96). -/
theorem ofWord_toWord (f : Flags) : Flags.ofWord f.toWord = f := by
  obtain ⟨z, n, c, v, t, l⟩ := f
  cases z <;> cases n <;> cases c <;> cases v <;> cases t <;> cases l <;> rfl

/-! ### Writes of control words -/

section Writes
variable (rule : Word → State → Rule) (w : Writer) (k : WriteKind) (addr : Nat) (val : Word)

/-- A write to a block that takes no requests, which leaves the word undefined (R31, R37, R547): a core's own once its grant is found
(R128), a tack's before (R85). -/
theorem ctlWriteBy_aborts (h : w.tack = false → granted w addr = true) (hb : blockAborts (addrBlock addr) s = true) :
    ctlWriteBy rule w k addr val s = (.resetAbort, abortReply w.core.val (addrBlock addr).val (undefineWord addr s)) := by
  rcases ht : w.tack <;> simp_all [ctlWriteBy]

/-- A write without the grant of its row (R82, R85): a tack's where its block takes requests. -/
theorem ctlWriteBy_ungranted (hb : w.tack = true → blockAborts (addrBlock addr) s = false) (h : granted w addr = false) :
    ctlWriteBy rule w k addr val s = (.refused, accessFault w addr s) := by
  by_cases ht : w.tack = true
  · simp [ctlWriteBy, h, hb ht]
  · simp [ctlWriteBy, h, ht]

/-- A write of a word with nothing to write (R543). -/
theorem ctlWriteBy_readOnly (h : granted w addr = true) (hb : blockAborts (addrBlock addr) s = false)
    (hm : maskNow (· != .ro) addr s = 0) : ctlWriteBy rule w k addr val s = (.refused, accessFault w addr s) := by
  simp [ctlWriteBy, h, hb, hm]

/-- A write judged by the rule of its block, which refuses it (R545). -/
theorem ctlWriteBy_refused (raises : State → State) (h : granted w addr = true) (hb : blockAborts (addrBlock addr) s = false)
    (hm : maskNow (· != .ro) addr s ≠ 0) (hc : clearsNothing k addr s = false) (hr : rule (operand k addr val s) s = .refuse raises) :
    ctlWriteBy rule w k addr val s = (.refused, raises s) := by
  simp only [ctlWriteBy, h, hb, hc, hr, if_neg hm, Bool.not_true, Bool.and_false, Bool.false_eq_true, if_false]

/-- A write that the rule of its block accepts: the fields take the value, and the rule's effect follows (R544). -/
theorem ctlWriteBy_accepted (v : Word) (next : State → State) (h : granted w addr = true)
    (hb : blockAborts (addrBlock addr) s = false) (hm : maskNow (· != .ro) addr s ≠ 0) (hc : clearsNothing k addr s = false)
    (hr : rule (operand k addr val s) s = .accept v next) :
    ctlWriteBy rule w k addr val s = (.ok, next (s.setWord addr (storedWord addr v s))) := by
  simp only [ctlWriteBy, h, hb, hc, hr, if_neg hm, Bool.not_true, Bool.and_false, Bool.false_eq_true, if_false]

end Writes

section CoreWrites
variable (rule : Word → State → Rule) (c : CoreId) (addr : Nat) (val : Word)

/-- No PUT clears nothing. -/
theorem clearsNothing_put : clearsNothing .put addr s = false := rfl

/-- A write by a core that its block accepts. -/
theorem coreWriteBy_accepted (v : Word) (next : State → State) (h : Writes c addr s) (hm : maskNow (· != .ro) addr s ≠ 0)
    (hr : rule (operand .put addr val s) s = .accept v next)
    (hp : trapReply c addr .ok (next (s.setWord addr (storedWord addr v s))) = next (s.setWord addr (storedWord addr v s))) :
    coreWriteBy rule c .put addr val s = next (s.setWord addr (storedWord addr v s)) := by
  obtain ⟨h1, h2, h3, -⟩ := h
  simp only [coreWriteBy, h1, if_true, ctlWriteBy_accepted rule _ .put addr val v next h2 h3 hm rfl hr, hp]

/-- A write by a core that its block refuses: what the block raises, and CS_REFUSED where the core runs (R129, R545). -/
theorem coreWriteBy_refused (raises : State → State) (h : Writes c addr s) (hm : maskNow (· != .ro) addr s ≠ 0)
    (hr : rule (operand .put addr val s) s = .refuse raises) :
    coreWriteBy rule c .put addr val s = (raises s).refused c addr := by
  obtain ⟨h1, h2, h3, -⟩ := h
  simp only [coreWriteBy, h1, if_true, ctlWriteBy_refused rule _ .put addr val raises h2 h3 hm rfl hr]
  simp only [trapReply, State.refused]
  split <;> simp_all

/-- A write by a core without the grant: CONTROL_ACCESS_FAULT, and CS_REFUSED where the core runs (R82, R129). -/
theorem coreWriteBy_ungranted (k : WriteKind) (h : coreMay s = true)
    (hg : granted (coreWriter c s) addr = false) : coreWriteBy rule c k addr val s = trapReply c addr .refused (record 0x1016 c.val addr s) := by
  simp only [coreWriteBy, h, if_true, ctlWriteBy_ungranted rule (coreWriter c s) k addr val (by simp [coreWriter]) hg]
  simp [accessFault, coreWriter, b2n]

/-- A reply with status OK traps nobody. -/
@[simp] theorem trapReply_ok : trapReply c addr .ok s = s := by
  simp [trapReply]

end CoreWrites

end Sys2Proof.Machine
end

