-- ==== Sys2Proof/Laws/Machinery.lean ====
section
/-! SUPPORT. What turning the machinery off can do: the fault record stands where no axis is in a start, and no axis is in one after it. -/
namespace Sys2Proof.Machine

variable {s : State}

/-- The axes after the gates of one go off: the others stand. -/
theorem axisGatesOff_axes_ne (a b : AxisId) (h : b ≠ a) : (axisGatesOff a s).axes[b] = s.axes[b] := by
  have ha : ∀ t : State, (forAll (fun r => clearSlot (axisSlot a r)) (List.finRange 4) t).axes = t.axes :=
    forAll_keeps (·.axes) _ _ fun x _ t => rfl
  have ho : ∀ (f : State → State) (b : Bool) (t : State), (f t).axes = t.axes → (onlyIf b f t).axes = t.axes :=
    fun f b t h => onlyIf_keeps (·.axes) b f h
  simp only [axisGatesOff, State.updAxis]
  have hv : (a : Nat) ≠ b := fun e => h (Fin.ext e.symm)
  show (modAt (onlyIf _ _ _).axes a _)[b] = _
  rw [ho _ _ _ rfl, ho _ _ _ rfl, ha]
  simp [modAt, hv]

/-- Turning the gates of an axis off records nothing where it is not in a start (Table 15.3). -/
theorem axisGatesOff_faults (a : AxisId) (h : starting s.axes[a] = false) : (axisGatesOff a s).faults = s.faults := by
  have hf : ∀ t : State, (forAll (fun r => clearSlot (axisSlot a r)) (List.finRange 4) t).faults = t.faults :=
    forAll_keeps (·.faults) _ _ fun x _ t => rfl
  have ha : ∀ t : State, (forAll (fun r => clearSlot (axisSlot a r)) (List.finRange 4) t).axes = t.axes :=
    forAll_keeps (·.axes) _ _ fun x _ t => rfl
  have ho : ∀ (f : State → State) (b : Bool) (t : State), (f t).faults = t.faults → (onlyIf b f t).faults = t.faults :=
    fun f b t h => onlyIf_keeps (·.faults) b f h
  simp only [axisGatesOff, ha, State.setFlag, State.setField, setWord_axes, h, onlyIf_false]
  show (onlyIf _ _ _).faults = _
  rw [ho _ _ _ rfl, hf]
  rfl

/-- What noStart says of one axis. -/
theorem noStart_axis (h : noStart s = true) (a : AxisId) : starting s.axes[a] = false := by
  have := List.all_eq_true.mp h a (List.mem_finRange a)
  simpa using this

/-- The gates of several axes go off: the fault record stands where none of them is in a start. -/
theorem gatesOff_faults (l : List AxisId) (hl : l.Nodup) :
    ∀ s : State, (∀ a ∈ l, starting s.axes[a] = false) → (forAll axisGatesOff l s).faults = s.faults := by
  induction l with
  | nil => exact fun s _ => rfl
  | cons a l ih =>
    intro s h
    have hn := List.nodup_cons.mp hl
    refine (ih hn.2 (axisGatesOff a s) fun b hb => ?_).trans (axisGatesOff_faults a (h a (List.mem_cons_self ..)))
    rw [axisGatesOff_axes_ne a b fun e => hn.1 (e ▸ hb)]
    exact h b (List.mem_cons_of_mem _ hb)

/-- A brake that goes off leaves the fault record. -/
theorem allBrakesOff_faults : (allBrakesOff s).faults = s.faults := forAll_keeps (·.faults) brakeOff allAxes (fun _ _ _ => rfl) s

/-- Gates and brakes off leave the fault record where no axis is in a start. -/
theorem machineryOff_faults (h : noStart s = true) : (machineryOff s).faults = s.faults :=
  allBrakesOff_faults.trans (gatesOff_faults _ (by decide) s fun a _ => noStart_axis h a)

/-- The same of the hardware trip path. -/
theorem hardOff_faults (h : noStart s = true) : (hardOff s).faults = s.faults :=
  machineryOff_faults (s := { s with gate := { s.gate with soft := 0 } }) h

end Sys2Proof.Machine
end

