-- ==== Sys2Proof/WellFormed.lean ====
section
/-! DEFINITION. The operands that the spec admits: what the outside world can send and what a program can name. A command that is not
well-formed still has a meaning; no statement needs to speak of it. -/
namespace Sys2Proof

/-- A datagram: a payload of 0 to 1,400 bytes, and a tag of 16 bytes where it is authenticated (R144, R150). -/
def Datagram.wf (d : Datagram) : Bool := decide (d.payload.length ≤ 1400) && (d.tag.isEmpty || decide (d.tag.length = 16))

/-- A frame of the cycle: 16 entries of the emergency field and 16 node slots; a claim has neither (R195, R198). -/
def SyncFrame.wf (f : SyncFrame) : Bool :=
  decide (f.type = 3) || (decide (f.emerg.length = 16) && decide (f.slots.length = 16))

/-- A bulk packet: 1 to 8,192 payload bytes (R197). -/
def BulkPacket.wf (p : BulkPacket) : Bool := decide (1 ≤ p.payload.length) && decide (p.payload.length ≤ 8192)

/-- A block of pixels: the component values of 16 pixels, three a pixel at 4:4:4 and two at 4:2:2 (R268, Table 11.3). -/
def blockWf (is444 : Bool) (b : Nat × Nat × List Nat) : Bool := decide (b.2.2.length = if is444 then 48 else 32)

/-- A slice: the ranges of Table 8.5, in a packet's payload. -/
def Slice.wf (x : Slice) : Bool :=
  decide (x.coder.toNat ≤ 2) && decide (1 ≤ x.lines) && decide (x.lines ≤ 2048) && decide (1 ≤ x.width) && decide (x.width ≤ 4096) &&
    decide (x.line < 2 ^ 16) && decide (x.column < 2 ^ 16) && decide (x.data.length + 24 ≤ 8192)

/-- The well-formedness of a command. -/
def Instr.wf : Instr → Bool
  | .hello d | .bye d | .keepalive d | .order d | .query d | .sleep d | .knpFragment d | .imageBegin d | .imageData d
  | .imageEnd d | .updateCommit d | .reopenPassword d | .challengeReq d | .reopenResponse d | .seal d => d.wf
  | .featureCheck words => decide (words.length = 25)
  | .jtagFuseProgram pub secret => decide (pub.length = 64) && decide (secret.length = 32)
  | .ethFrameRx _ f => decide (0 < f.len)
  | .ptpSync _ _ interval => decide (0 < interval)
  | .st2110Packet _ p => p.blocks.all (blockWf p.is444)
  | .e131Data p => decide (p.slots.length ≤ 512)
  | .holFrameForward _ f | .holCycleSyncRx _ f | .holCascadeResetRx ⟨_, f⟩ => f.wf
  | .holSlotTableRx _ f slots => SyncFrame.wf { f with slots := slots }
  | .holBulkRx ⟨_, p⟩ | .holBootPacket ⟨_, p⟩ => p.wf
  | .holBulkSend ⟨_, handed⟩ => handed.all fun h => h.1.wf
  | .holSliceRx ⟨_, x⟩ => x.wf
  | .dramRequest (.engineRead _ _ len) => decide (0 < len)
  | .dramRequest (.engineWrite _ _ data) => decide (0 < data.length)
  | .polderBlock a b c d => [a, b, c, d].all fun x => decide (x.length = 800)
  | .twTargetWrite _ bytes _ => decide (0 < bytes.length)
  | _ => true

end Sys2Proof
end

