-- ==== Sys2Proof/Tests/Slice0.lean ====
section
/-! SUPPORT. The author's tests: commands that are refused as ill-formed, single commands with the results that the rules give, and for
every statement a witness of its hypotheses, clause by clause. -/

open Sys2Proof Sys2Proof.Machine

set_option maxRecDepth 10000
set_option Elab.async false

namespace Sys2Proof.Tests

/-- Words written one after another. -/
def put (ws : List (Nat × Word)) (s : State) : State := ws.foldl (fun s w => s.setWord w.1 w.2) s

/-- Registers of core 0. -/
def regs (rs : List (Reg × Word)) (s : State) : State := rs.foldl (fun s r => s.updCore 0 fun k => k.setReg r.1 r.2) s

/-- The device in Run with every block admitted; core 0 runs at 0 in its bank 0 and holds every grant; the agreed set holds every feature;
device time and elapsed time are 1 s. -/
def base : State :=
  { put [(0x080B, 0x7FFFFF)] State.reset with
    clock := 1000000000, deviceTime := 1000000000, agreed := 0x1FFFFF
    modes := { mode := .run }, blocks := Vector.replicate 25 .admitted
    cores := modAt State.reset.cores 0 fun k => { k with status := .running }
    banks := modAt State.reset.banks 0 fun b => { b with owner := 0 } }

/-- No bit is left out of all ones. -/
theorem and_not_ones (a b : BitVec 64) (h : b = BitVec.allOnes 64) : a &&& ~~~b = 0 := by subst h; simp

/-- A word at a known address that takes any value takes any value. -/
theorem plain_word (a n : Nat) (h : a = n) (hn : ∀ w v t, blockRule w n v t = .plain v) : ∀ w v t, blockRule w a v t = .plain v := by
  subst h; exact hn

/-- The state after a command. -/
def after (o : Host.Outcome State Fault Refusal) : State := match o with | .next t => t | _ => State.reset

/-- The command answers a next state. -/
def goesOn (o : Host.Outcome State Fault Refusal) : Bool := match o with | .next _ => true | _ => false

theorem next_after (o : Host.Outcome State Fault Refusal) (h : goesOn o = true) : o = .next (after o) := by
  cases o <;> simp_all [goesOn, after]

/-! ### Commands that are not well-formed are refused -/

/-- A datagram with a payload and a tag. -/
def gram (n t : Nat) : Datagram := ⟨false, 0, 0x4B4E, 1, 1, 0, 0, 0, BitVec.ofNat 16 n, 0, List.replicate n 0, List.replicate t 0⟩

theorem test_wf_datagram_payload : (Instr.hello (gram 1401 16)).wf = false ∧ (Instr.hello (gram 1400 16)).wf = true := by decide +kernel
theorem test_wf_datagram_tag : (Instr.seal (gram 0 15)).wf = false ∧ (Instr.seal (gram 0 0)).wf = true := by decide +kernel
theorem test_wf_featureCheck : (Instr.featureCheck (List.replicate 24 0)).wf = false ∧ (Instr.featureCheck (List.replicate 25 0)).wf = true := by
  decide +kernel
theorem test_wf_fuses : (Instr.jtagFuseProgram (List.replicate 63 0) (List.replicate 32 0)).wf = false ∧
    (Instr.jtagFuseProgram (List.replicate 64 0) (List.replicate 31 0)).wf = false := by decide +kernel
theorem test_wf_frame : ∀ f : EthFrame, f.len = 0 → (Instr.ethFrameRx 0 f).wf = false := by
  intro f h; simp [Instr.wf, h]
theorem test_wf_ptpSync : (Instr.ptpSync 0 ⟨true, 5⟩ 0).wf = false := by decide +kernel
theorem test_wf_video : ∀ p : VideoPacket, p.is444 = false → p.blocks = [(0, 0, List.replicate 48 0)] →
    (Instr.st2110Packet 0 p).wf = false := by
  intro p h h'; simp [Instr.wf, blockWf, h, h']
theorem test_wf_slots : ∀ p : E131Packet, p.slots.length = 513 → (Instr.e131Data p).wf = false := by
  intro p h; simp [Instr.wf, h]
theorem test_wf_slotTable : ∀ p f, f.type = 2 → f.slots = [] → (Instr.holSlotTableRx p f []).wf = false ∧ (Instr.holFrameForward p f).wf = false := by
  intro p f h h'; simp [Instr.wf, SyncFrame.wf, h, h']
theorem test_wf_bulk : ∀ (port : Fin 2) (p : BulkPacket), p.payload = [] ∨ p.payload.length = 8193 →
    (Instr.holBulkRx ⟨port, p⟩).wf = false ∧ (Instr.holBootPacket ⟨port, p⟩).wf = false ∧
    (Instr.holBulkSend ⟨port, [(p, none)]⟩).wf = false := by
  intro port p h; rcases h with h | h <;> simp [Instr.wf, BulkPacket.wf, h]
theorem test_wf_slice : ∀ (port : Fin 2) (x : Slice), x.lines = 0 ∨ x.width = 4097 → (Instr.holSliceRx ⟨port, x⟩).wf = false := by
  intro port x h; rcases h with h | h <;> simp [Instr.wf, Slice.wf, h]
theorem test_wf_dram : (Instr.dramRequest (.engineRead 0 0 0)).wf = false ∧ (Instr.dramRequest (.engineWrite 0 0 [])).wf = false := by decide +kernel
theorem test_wf_polder : ∀ a b c d : PolderSamples, d = [] → (Instr.polderBlock a b c d).wf = false := by
  intro a b c d h; simp [Instr.wf, h]
theorem test_wf_twoWire : (Instr.twTargetWrite 0 [] false).wf = false := by decide +kernel

/-! ### Single commands, with the results that the rules give -/

/-- Register 6 and the flags Z, N, C, V of core 0 after a command. -/
def result (i : Instr) (s : State) : Word × List Bool :=
  let k := (after (exec i s)).core 0
  (k.reg 6, [k.f.z, k.f.n, k.f.c, k.f.v])

/-- Core 0 runs with two values in registers 2 and 3. -/
def two (a b : Word) : State := regs [(2, a), (3, b)] base

/-- A trap of core 0: cause, operand and the address of the trapped word. -/
def trapOf (s : State) : Nat × Word × Word := (((s.core 0).trapCause).toNat, (s.core 0).trapLo, (s.core 0).trapPc)

-- Table 5.4 and R117: ADD carries out of bit 31 and overflows; SUB sets C where there is no borrow.
theorem test_add_wraps : result (.add 0 6 2 3) (two 0x80000000 0x80000000) = (0, [true, false, true, true]) := by decide +kernel
theorem test_sub_borrows : result (.sub 0 6 2 3) (two 1 2) = (0xFFFFFFFF, [false, true, false, false]) := by decide +kernel
theorem test_register0 : ((after (exec (.add 0 0 2 3) (two 1 2))).core 0).reg 0 = 0 := by decide +kernel
-- R117: the count of a shift is its low 6 bits; 32 and more shift every bit out.
theorem test_shl_all_out : (result (.shl 0 6 2 3) (two 0x80000001 33)).1 = 0 ∧ (result (.shl 0 6 2 3) (two 3 64)).1 = 3 := by decide +kernel
theorem test_sar_sign : result (.sar 0 6 2 3) (two 0x80000003 1) = (0xC0000001, [false, true, true, false]) := by decide +kernel
theorem test_mulq_saturates : (result (.mulq 0 6 2 3) (two 0x80000000 0x80000000)).1 = 0x7FFFFFFF := by decide +kernel
theorem test_lui : (result (.lui 0 6 1) base).1 = 0x4000 := by decide +kernel
theorem test_cmp_equal : (result (.cmp 0 2 3) (two 7 7)).2 = [true, false, true, false] := by decide +kernel
theorem test_bcc_back : ((after (exec (.bcc 0 14 0x3FFFFE) { base with cores := modAt base.cores 0 fun k => { k with pc := 64 } })).core 0).pc = 56 := by
  decide +kernel
theorem test_jr_misaligned : trapOf (after (exec (.jr 0 2) (two 6 0))) = (4, 6, 0) := by decide +kernel
-- R120: little-endian words, bytes extended.
theorem test_stw_order : ((after (exec (.stw 0 3 2 4) (two 0x100 0x11223344))).byteAt 0x104) = 0x44 ∧
    ((after (exec (.stw 0 3 2 4) (two 0x100 0x11223344))).byteAt 0x107) = 0x11 := by decide +kernel
theorem test_ldb_sign : (result (.ldb 0 6 2 0) { two 0x100 0 with cells := [(0x100, 0x80)] }).1 = 0xFFFFFF80 := by decide +kernel
theorem test_ldw_refused : trapOf (after (exec (.ldw 0 6 2 0) (two 0x20000 0))) = (2, 0x20000, 0) := by decide +kernel
theorem test_swap : (result (.swap 0 6 2 3) { two 0x100 5 with cells := [(0x100, 9)] }).1 = 9 ∧
    (after (exec (.swap 0 6 2 3) { two 0x100 5 with cells := [(0x100, 9)] })).byteAt 0x100 = 5 := by decide +kernel
theorem test_trap : trapOf (after (exec (.trap 0 77) base)) = (9, 77, 0) := by decide +kernel
-- R112: OP 0x00 and 0x3F are illegal; the word of ADD G6, G2, G3 (Table 5.11, format A) is not.
theorem test_illegal_words : illegalWord 0 = true ∧ illegalWord 0xFFFFFFFF = true ∧ illegalWord 0x0588C000 = false ∧
    illegalWord 0x0588C001 = true := by decide +kernel
theorem test_illegal : trapOf (after (exec (.illegalOpcode 0 0xFFFFFFFF) base)) = (1, 0xFFFFFFFF, 0) := by decide +kernel
-- R82: a word of a block that the core holds no grant for.
theorem test_write_refused : (after (exec (.controlWrite 0 0x0A00 3) (put [(0x080B, 0)] base))).word 0x0A00 = resetWord 0x0A00 ∧
    trapOf (after (exec (.controlWrite 0 0x0A00 3) (put [(0x080B, 0)] base))) = (5, 0x0A00, 0) := by decide +kernel
theorem test_write_taken : (after (exec (.controlWrite 0 0x0A00 3) base)).field 0x0A00 0 3 = 3 := by decide +kernel
-- R130: BGIVE to the free owner; R131: CLAIM of a free token.
theorem test_bgive : ((after (exec (.bgive 0 2 31) (two 0 0))).banks[(0 : BankId)]).owner = 31 := by decide +kernel
theorem test_claim_free : (after (exec (.claim 0 6 2) (two 5 0))).tokens = [(5, 0)] := by decide +kernel
theorem test_halt : ((after (exec (.halt 0) base)).core 0).status = .halted := by decide +kernel
-- Table 6.7: the IDCODE.
theorem test_idcode : (after (exec .jtagIdcode base)).sec.jtagDr = 0x116404D3 := by decide +kernel
-- R60: nothing is admitted and the machinery is safe after reset.
theorem test_reset_safe : machinerySafe State.reset = true ∧ State.reset.modes.mode = .boot := by decide +kernel
-- R534, R535: the newest entry stands first and every core has event 23.
theorem test_record : ((record 0x1010 3 7 base).faults.ring.head?.map fun e => (e.code, e.unit)) = some (0x1010, 3) ∧
    ((record 0x1010 3 7 base).core 5).events.getLsbD 23 = true := by decide +kernel
-- A command of the queue's front is taken out of it.
theorem test_step_takes_front : (after (step { base with pending := [.halt 0, .nop 1] })).pending = [.nop 1] := by decide +kernel
theorem test_idle_step : (after (step base)).clock = 1000000008 := by decide +kernel

/-! ### Witnesses of the statements about every command -/

/-- The hypotheses of the statement StepRunsFront are met. -/
theorem witness_StepRunsFront : ({ base with pending := [.nop 0] } : State).pending = .nop 0 :: [] := by decide +kernel
/-- The hypotheses of the statement ExecKeepsQueue are met. -/
theorem witness_ExecKeepsQueue : exec (.nop 0) base = .next (after (exec (.nop 0) base)) := next_after _ (by decide +kernel)

/-- The device with a store at the front of its queue, sealed, with its polder in the state of failure. -/
def sealedDevice : State :=
  { two 0x100 7 with
    pending := [.stw 0 3 2 0], fuses := { base.fuses with life := .sealed }, polder := { base.polder with phase := .fail } }

/-- The hypotheses of the statement EveryStepKeepsMemory are met. -/
theorem witness_EveryStepKeepsMemory : Memory.wf sealedDevice = true ∧ step sealedDevice = .next (after (step sealedDevice)) :=
  ⟨by decide +kernel, next_after _ (by decide +kernel)⟩

/-- The hypotheses of the statement FusesStand are met. -/
theorem witness_FusesStand : step sealedDevice = .next (after (step sealedDevice)) ∧ sealedDevice.fuses.life = .sealed ∧
    sealedDevice.fuses.life ≠ .blank := ⟨next_after _ (by decide +kernel), by decide +kernel, by decide +kernel⟩

/-- The hypotheses of the statement LegalSealStands are met. -/
theorem witness_LegalSealStands : step sealedDevice = .next (after (step sealedDevice)) ∧ sealedDevice.polder.phase = .fail ∧
    sealedDevice.polder.phase ≠ .unsealed := ⟨next_after _ (by decide +kernel), by decide +kernel, by decide +kernel⟩

/-- The hypotheses of the statement ResetState are met. -/
theorem witness_ResetState : (0x0803 : Nat) ≠ 0x0013 ∧ State.reset.word 0x0803 = resetWord 0x0803 := by decide +kernel

/-- The check value of the CRC-8 of the SMBus PEC (polynomial 0x07, initial value 0) over the digits 1 to 9. -/
theorem test_smbus_pec : smbusPec [0x31, 0x32, 0x33, 0x34, 0x35, 0x36, 0x37, 0x38, 0x39] = 0xF4 := by decide

end Sys2Proof.Tests

namespace Sys2Proof.Tests.A

def farQ (n : Nat) : FarReq := ⟨n, false, false, 9, 8, []⟩
def fr (wide : Bool) : FarReply := ⟨⟨3, false, wide, 6, 8, []⟩, .ok, [1, 2, 3, 4, 5, 6, 7, 8]⟩
def upd0 (f : Core → Core) (s : State) : State := s.updCore 0 f
def bound (send : Bool) (q : Nat) (s : State) : State := s.setWord 0x0811 (BitVec.ofNat 32 (2 ^ 31 + (if send then 2 ^ 8 else 0) + q))
def inTrap : State := upd0 (fun k => { k with f := { k.f with t := true }, trapPc := 64, trapF := 0x15 }) base

/-- The hypotheses of the statement DataInstructions are met. -/
theorem witness_DataInstructions :
    (let c : CoreId := 0; let rd : Reg := 6; let ra : Reg := 2; let rb : Reg := 4; let imm : BitVec 18 := 31; let s : State := (regs [(2, 0x80000000), (3, 5), (4, 63), (6, 7), (7, 0x12345678)] base)
     Runs c [rd, ra, rb] s ∧ Runs c [rd, ra] s ∧ imm.toNat < 32 ∧ Runs c [rd, 0] s ∧ Runs c [rd, rd + 1, ra, rb] s ∧ rd.val % 2 = 0 ∧
     Runs c [rd, ra, ra + 1] s ∧ ra.val % 2 = 0 ∧ imm.toNat < 64) := by
  intros; simp only [Runs]; decide +kernel +zetaReduce

/-- The hypotheses of the statement CompareAndBranch are met. -/
theorem witness_CompareAndBranch :
    (let c : CoreId := 0; let rd : Reg := 3; let ra : Reg := 2; let rb : Reg := 4; let s : State := (regs [(2, 8), (4, 9)] base)
     let k := s.core c
     let a := k.reg ra
     Runs c [ra, rb] s ∧ Runs c [] s ∧ Runs c [rd] s ∧ Runs c [ra] s ∧ a.toNat % 4 = 0) ∧
    (let c : CoreId := 0; let ra : Reg := 2; let s : State := (regs [(2, 7), (4, 9)] base)
     let k := s.core c
     let a := k.reg ra
     Runs c [ra] s ∧ k.f.t = false ∧ a.toNat % 4 ≠ 0) := by
  refine ⟨?_, ?_⟩
  · intros; simp only [Runs]; decide +kernel +zetaReduce
  · intros; simp only [Runs]; decide +kernel +zetaReduce

/-- The hypotheses of the statement BankAccess are met. -/
theorem witness_BankAccess :
    (let c : CoreId := 0; let rd : Reg := 6; let ra : Reg := 2; let imm : BitVec 18 := 4; let s : State := (regs [(2, 4), (3, 12), (6, 0x12345678)] base)
     let k := s.core c
     let addr := k.reg ra + imm.signExtend 32
     let a := addr.toNat
     Runs c [rd, ra] s ∧ s.owns c a = true ∧ swf cellDefault s.cells = true ∧ a % 4 = 0 ∧ s.parityError a 4 = none ∧ s.parityError a 1 = none) ∧
    (let c : CoreId := 0; let rd : Reg := 6; let ra : Reg := 2; let rb : Reg := 3; let s : State := (regs [(2, 4), (3, 12), (6, 0x12345678)] base)
     let k := s.core c
     let a := (k.reg ra).toNat
     Runs c [rd, ra, rb] s ∧ a % 4 = 0 ∧ s.owns c a = true ∧ s.parityError a 4 = none ∧ swf cellDefault s.cells = true) ∧
    (let c : CoreId := 0; let rd : Reg := 6; let ra : Reg := 2; let imm : BitVec 18 := 3; let s : State := (regs [(2, 131070)] base)
     let k := s.core c
     let addr := k.reg ra + imm.signExtend 32
     let at_ : Word := addr
     let n : Nat := 4
     Runs c [rd, ra] s ∧ k.f.t = false ∧ at_.toNat % n ≠ 0) ∧
    (let c : CoreId := 0; let rd : Reg := 6; let ra : Reg := 2; let imm : BitVec 18 := 3; let s : State := (regs [(2, 131070)] base)
     let k := s.core c
     let addr := k.reg ra + imm.signExtend 32
     let at_ : Word := addr
     let n : Nat := 1
     Runs c [rd, ra] s ∧ k.f.t = false ∧ at_.toNat % n = 0 ∧ s.owns c at_.toNat = false) ∧
    (let c : CoreId := 0; let rd : Reg := 6; let ra : Reg := 2; let rb : Reg := 3; let s : State := (regs [(2, 131070)] base)
     let k := s.core c
     let at_ : Word := (k.reg ra)
     let n : Nat := 4
     Runs c [rd, ra, rb] s ∧ k.f.t = false ∧ at_.toNat % n ≠ 0) ∧
    (let c : CoreId := 0; let rd : Reg := 6; let ra : Reg := 2; let imm : BitVec 18 := 0; let s : State := { regs [(2, 131068)] base with badParity := [131071, 131068] }
     let k := s.core c
     let addr := k.reg ra + imm.signExtend 32
     let at_ : Word := addr
     let n : Nat := 4
     let reads : Bool := true
     let p : Nat := (s.parityError at_.toNat n).getD 0
     Runs c [rd, ra] s ∧ k.f.t = false ∧ reads = true ∧ at_.toNat % n = 0 ∧ s.owns c at_.toNat = true ∧ s.parityError at_.toNat n = some p) ∧
    (let c : CoreId := 0; let rd : Reg := 6; let ra : Reg := 2; let imm : BitVec 18 := 0; let s : State := { regs [(2, 131068)] base with badParity := [131071, 131068] }
     let k := s.core c
     let addr := k.reg ra + imm.signExtend 32
     let at_ : Word := addr
     let n : Nat := 1
     let reads : Bool := true
     let p : Nat := (s.parityError at_.toNat n).getD 0
     Runs c [rd, ra] s ∧ k.f.t = false ∧ reads = true ∧ at_.toNat % n = 0 ∧ s.owns c at_.toNat = true ∧ s.parityError at_.toNat n = some p) ∧
    (let c : CoreId := 0; let rd : Reg := 6; let ra : Reg := 2; let rb : Reg := 3; let s : State := { regs [(2, 131068)] base with badParity := [131071, 131068] }
     let k := s.core c
     let at_ : Word := (k.reg ra)
     let n : Nat := 4
     let reads : Bool := true
     let p : Nat := (s.parityError at_.toNat n).getD 0
     Runs c [rd, ra, rb] s ∧ k.f.t = false ∧ reads = true ∧ at_.toNat % n = 0 ∧ s.owns c at_.toNat = true ∧ s.parityError at_.toNat n = some p) ∧
    (let c : CoreId := 0; let rd : Reg := 6; let ra : Reg := 2; let imm : BitVec 18 := 0; let s : State := (regs [(2, 131072)] base)
     let k := s.core c
     let addr := k.reg ra + imm.signExtend 32
     let at_ : Word := addr
     let n : Nat := 4
     Runs c [rd, ra] s ∧ k.f.t = false ∧ at_.toNat % n = 0 ∧ s.owns c at_.toNat = false) ∧
    (let c : CoreId := 0; let rd : Reg := 6; let ra : Reg := 2; let rb : Reg := 3; let s : State := (regs [(2, 131072)] base)
     let k := s.core c
     let at_ : Word := (k.reg ra)
     let n : Nat := 4
     Runs c [rd, ra, rb] s ∧ k.f.t = false ∧ at_.toNat % n = 0 ∧ s.owns c at_.toNat = false) := by
  refine ⟨?_, ?_, ?_, ?_, ?_, ?_, ?_, ?_, ?_, ?_⟩
  · intros; simp only [Runs]; decide +kernel +zetaReduce
  · intros; simp only [Runs]; decide +kernel +zetaReduce
  · intros; simp only [Runs]; decide +kernel +zetaReduce
  · intros; simp only [Runs]; decide +kernel +zetaReduce
  · intros; simp only [Runs]; decide +kernel +zetaReduce
  · intros; simp only [Runs]; decide +kernel +zetaReduce
  · intros; simp only [Runs]; decide +kernel +zetaReduce
  · intros; simp only [Runs]; decide +kernel +zetaReduce
  · intros; simp only [Runs]; decide +kernel +zetaReduce
  · intros; simp only [Runs]; decide +kernel +zetaReduce

/-- The hypotheses of the statement FarAccessIssue are met. -/
theorem witness_FarAccessIssue :
    (let c : CoreId := 0; let rd : Reg := 6; let ra : Reg := 2; let imm : BitVec 16 := 8; let s : State := (regs [(2, 8), (6, 77), (7, 9)] base)
     let k := s.core c
     let a : DWord := k.pair ra + imm.signExtend 64
     let room : Prop := inflight s < 1472
     ra.val % 2 = 0 ∧ Runs c [rd, ra, ra + 1] s ∧ a.toNat % 4 = 0 ∧ k.farOut.length < 16 ∧ room ∧ Runs c [rd, rd + 1, ra, ra + 1] s ∧
     a.toNat % 8 = 0 ∧ rd.val % 2 = 0) ∧
    (let c : CoreId := 0; let rd : Reg := 6; let ra : Reg := 2; let imm : BitVec 16 := 8; let s : State := (regs [(2, 8), (6, 77), (7, 9)] { base with cores := modAt base.cores 3 fun k => { k with farReplies := List.replicate 1472 (fr false) } })
     let k := s.core c
     let a : DWord := k.pair ra + imm.signExtend 64
     let room : Prop := inflight s < 1472
     ra.val % 2 = 0 ∧ Runs c [rd, ra, ra + 1] s ∧ a.toNat % 4 = 0 ∧ (16 ≤ k.farOut.length ∨ ¬room) ∧ ¬room) := by
  refine ⟨?_, ?_⟩
  · intros; simp only [Runs]; decide +kernel +zetaReduce
  · intros; simp only [Runs]; decide +kernel +zetaReduce

/-- The hypotheses of the statement FarReplies are met. -/
theorem witness_FarReplies :
    (let c : CoreId := 0; let i : Nat := 0; let r : FarReply := (fr false); let s : State := (upd0 (fun k => { k with farReplies := [fr false], farOut := [(fr false).req] }) base)
     (s.core c).farReplies[i]? = some r ∧ r.status = .ok ∧ r.req.store = false ∧ r.req.wide = false) ∧
    (let c : CoreId := 0; let i : Nat := 1; let r : FarReply := (fr true); let s : State := (upd0 (fun k => { k with farReplies := [fr false, fr true], farOut := [(fr true).req, farQ 9] }) base)
     (s.core c).farReplies[i]? = some r ∧ r.status = .ok ∧ r.req.store = false ∧ r.req.wide = true) := by
  refine ⟨?_, ?_⟩
  · intros; decide +kernel +zetaReduce
  · intros; decide +kernel +zetaReduce

/-- The hypotheses of the statement QueuePorts are met. -/
theorem witness_QueuePorts :
    (let c : CoreId := 0; let rd : Reg := 6; let port : Fin 8 := 1; let q : Nat := 192; let s : State := (regs [(6, 77)] (bound true 192 base))
     Runs c [rd] s ∧ q ≠ (s.word 0x0409).toNat % 256 ∧ boundQueue c port true s = some q ∧ 0 < s.credits q c) ∧
    (let c : CoreId := 0; let rd : Reg := 6; let port : Fin 8 := 1; let q : Nat := 192; let s : State := ((bound true 192 base).setQueue 192 (List.replicate 16 ⟨1, 2⟩))
     Runs c [rd] s ∧ q ≠ (s.word 0x0409).toNat % 256 ∧ boundQueue c port true s = some q ∧ s.credits q c = 0) ∧
    (let c : CoreId := 0; let rd : Reg := 6; let port : Fin 8 := 1; let q : Nat := 232; let s : State := ((bound false 232 base).setQueue 232 [⟨1, 2⟩, ⟨3, 4⟩])
     let e : QEntry := (s.queue q).headD ⟨0, 0⟩
     let rest : List QEntry := (s.queue q).tail
     Runs c [rd] s ∧ q ≠ (s.word 0x0409).toNat % 256 ∧ boundQueue c port false s = some q ∧ s.queue q = e :: rest ∧ (∀ w ∈ s.waiting, w.1 ≠ q) ∧
     (∀ x : Fin 8, q = 232 + x.val → (s.sec.sessions[x]).held = [])) ∧
    (let c : CoreId := 0; let rd : Reg := 6; let port : Fin 8 := 1; let q : Nat := 223; let s : State := (bound false 223 base)
     Runs c [rd] s ∧ q ≠ (s.word 0x0409).toNat % 256 ∧ boundQueue c port false s = some q ∧ s.queue q = []) := by
  refine ⟨?_, ?_, ?_, ?_⟩
  · intros; simp only [Runs]; decide +kernel +zetaReduce
  · intros; simp only [Runs]; decide +kernel +zetaReduce
  · intros; simp only [Runs]; decide +kernel +zetaReduce
  · intros; simp only [Runs]; decide +kernel +zetaReduce

/-- The hypotheses of the statement UnboundPortTraps are met. -/
theorem witness_UnboundPortTraps :
    (let c : CoreId := 0; let rd : Reg := 6; let port : Fin 8 := 7; let s : State := base
     Runs c [rd] s ∧ (s.core c).f.t = false ∧ boundQueue c port true s = none ∧ boundQueue c port false s = none) := by
  intros; simp only [Runs]; decide +kernel +zetaReduce

/-- The hypotheses of the statement WaitAndEvent_1 are met. -/
theorem witness_WaitAndEvent_1 :
    (let c : CoreId := 0; let rd : Reg := 6; let ra : Reg := 2; let s : State := (upd0 (fun k => { k with events := 0x900000 }) (regs [(2, 0x1900000)] base)); let n : Nat := 20
     let mask := (s.core c).reg ra
     Runs c [rd, ra] s ∧ mask.toNat ≠ 0 ∧ mask.toNat < 2 ^ 25 ∧ firstEvent c mask s = some n) := by
  intros; simp only [Runs]; decide +kernel +zetaReduce

/-- The hypotheses of the statement WaitAndEvent_2 are met. -/
theorem witness_WaitAndEvent_2 :
    (let c : CoreId := 0; let rd : Reg := 6; let ra : Reg := 2; let s : State := (regs [(2, 0x1000000)] base)
     let mask := (s.core c).reg ra
     Runs c [rd, ra] s ∧ mask.toNat ≠ 0 ∧ mask.toNat < 2 ^ 25 ∧ firstEvent c mask s = none) := by
  intros; simp only [Runs]; decide +kernel +zetaReduce

/-- The hypotheses of the statement WaitAndEvent_3 are met. -/
theorem witness_WaitAndEvent_3 :
    (let c : CoreId := 0; let rd : Reg := 6; let mask : Word := 0x1000000; let s : State := (upd0 (fun k => { k with status := .waiting 0x1000000 6, events := 0x1000000 }) base); let n : Nat := 24
     (s.core c).status = .waiting mask rd ∧ firstEvent c mask s = some n) := by
  intros; decide +kernel +zetaReduce

/-- The hypotheses of the statement WaitAndEvent_4 are met. -/
theorem witness_WaitAndEvent_4 :
    (let c : CoreId := 0; let target : CoreId := 7; let s : State := base
     Runs c [] s ∧ s.blocks[target.castLE (by decide : 8 ≤ 25)] = .admitted) := by
  intros; simp only [Runs]; decide +kernel +zetaReduce

/-- The hypotheses of the statement TimeRegisters are met. -/
theorem witness_TimeRegisters :
    (let c : CoreId := 0; let rd : Reg := 6; let ra : Reg := 2; let s : State := { regs [(2, 0xFFFFFFFF), (3, 1)] base with deviceTime := 1000000007 }
     Runs c [] s ∧ Runs c [ra] s ∧ Runs c [rd, rd + 1] s ∧ rd.val % 2 = 0 ∧ Runs c [ra, ra + 1] s ∧ ra.val % 2 = 0) := by
  intros; simp only [Runs]; decide +kernel +zetaReduce

/-- The hypotheses of the statement TrapsAndControl are met. -/
theorem witness_TrapsAndControl :
    (let c : CoreId := 0; let code : BitVec 22 := 0x3FFFFF; let s : State := inTrap
     let k := s.core c
     Runs c [] s ∧ k.f.t = true ∧ k.held = [] ∧ 2 ≤ code.toNat) ∧
    (let c : CoreId := 0; let s : State := base
     let k := s.core c
     Runs c [] s ∧ k.f.t = false) ∧
    (let c : CoreId := 0; let next : Nat × DWord := (4, 0x123456789); let xs : List (Nat × DWord) := [(3, 5)]; let s : State := (upd0 (fun k => { k with trapF := 5, held := [(4, 0x123456789), (3, 5)] }) inTrap)
     let k := s.core c
     Runs c [] s ∧ k.f.t = true ∧ k.held = next :: xs ∧ (Flags.ofWord k.trapF).t = false) := by
  refine ⟨?_, ?_, ?_⟩
  · intros; simp only [Runs]; decide +kernel +zetaReduce
  · intros; simp only [Runs]; decide +kernel +zetaReduce
  · intros; simp only [Runs]; decide +kernel +zetaReduce

/-- The hypotheses of the statement DoubleTrapHalts are met. -/
theorem witness_DoubleTrapHalts :
    (let c : CoreId := 0; let s : State := inTrap
     Runs c [] s ∧ (s.core c).f.t = true) := by
  intros; simp only [Runs]; decide +kernel +zetaReduce

/-- The hypotheses of the statement IllegalWordsTrap are met. -/
theorem witness_IllegalWordsTrap :
    (let c : CoreId := 0; let imm : BitVec 18 := 32; let off : BitVec 16 := 8; let word : Word := 0xFFFFFFFF; let s : State := base
     Runs c [] s ∧ (s.core c).f.t = false ∧ (word.toNat / 2 ^ 26 = 0 ∨ word.toNat / 2 ^ 26 = 0x3F) ∧ 0x3D ≤ word.toNat / 2 ^ 26 ∧
     word.toNat % 2 ^ 26 ≠ 0 ∧ illegalWord word = true ∧ 32 ≤ imm.toNat ∧ 8 ≤ off.toNat) ∧
    (let c : CoreId := 0; let rd : Reg := 7; let ra : Reg := 3; let s : State := base
     Runs c [] s ∧ (s.core c).f.t = false ∧ rd.val % 2 = 1 ∧ ra.val % 2 = 1) ∧
    (let c : CoreId := 0; let word : Word := 0x1C002001; let s : State := base
     Runs c [] s ∧ (s.core c).f.t = false ∧ 1 ≤ word.toNat / 2 ^ 26 ∧ word.toNat / 2 ^ 26 ≤ 8 ∧ word.toNat % 2 ^ 14 ≠ 0) := by
  refine ⟨?_, ?_, ?_⟩
  · intros; simp only [Runs]; decide +kernel +zetaReduce
  · intros; simp only [Runs]; decide +kernel +zetaReduce
  · intros; simp only [Runs]; decide +kernel +zetaReduce

end Sys2Proof.Tests.A

namespace Sys2Proof.Tests.B

def upd0 (f : Core → Core) (s : State) : State := s.updCore 0 f
def out (b : Fin 25) (s : State) : State := { s with blocks := modAt s.blocks b fun _ => .out }
def run (l : List RunEntry) (s : State) : State := upd0 (fun k => { k with csRun := l }) s
def bank (b : BankId) (x : Bank) (s : State) : State := { s with banks := modAt s.banks b fun _ => x }
def named (w : Word) : State := regs [(2, w), (6, w)] base
def tok (obj : BitVec 16) (source : Nat) : State := { put [(0x0A00, 3), (0x0A01, 2), (0x0A08, 2), (0x0A09, 3)] (regs [(2, BitVec.ofNat 32 (0x10005 % 0x10000))] base) with tokens := [(4, 2), (obj, source)] }
def ord (k : Nat) (src : Nat) (snd : Option CoreId) (obj : BitVec 16) : Order := ⟨k, src, snd, obj, 7, [], 0, 7999, 0, 0⟩
def q240 (w : Word) (asm : List Word) (s : State) : State := { s.setQueue 240 [⟨0, w⟩] with assembly := modAt s.assembly 0 fun _ => asm }
def tk (n : Nat) (c : CoreId) (kind target : Nat) (time : DWord) (p : Option Nat) : Tack := ⟨n, c, kind, 0, 0, target, 5, time, p, 0x7FFFFF, false⟩
def bnd (q : Nat) (s : State) : State := s.setWord 0x0811 (BitVec.ofNat 32 (2 ^ 31 + q))
def fld (s : State) (t : List Tack) : State := { s with tacks := t }
def full (s : State) : State := { s with cores := modAt s.cores 3 fun k => { k with farReplies := List.replicate 1472 ⟨⟨3, false, false, 6, 8, []⟩, .ok, []⟩ } }

/-- The hypotheses of the statement ControlWrites are met. -/
theorem witness_ControlWrites :
    (let c : CoreId := 0; let addr : BitVec 16 := 0x4007; let s : State := base
     let a := addr.toNat
     (coreMay s = true ∧ Writes c a s ∧ maskNow (· != .ro) a s ≠ 0 ∧
     ((∃ n : Fin 24, a = 0x4000 + 0x10 * n.val + 7) ∨ ∃ x : AxisId, a = machAddr x 0xA)) ∧ (∀ v t, blockRule (coreWriter c s) a v t = .plain v)) ∧
    (let c : CoreId := 0; let addr : BitVec 16 := 0x0803; let s : State := (put [(0x080B, 0)] base)
     let a := addr.toNat
     coreMay s = true ∧ granted (coreWriter c s) a = false) ∧
    (let c : CoreId := 0; let addr : BitVec 16 := 0x2801; let s : State := (out 13 base)
     let a := addr.toNat
     coreMay s = true ∧ granted (coreWriter c s) a = true ∧ blockAborts (addrBlock a) s = true) ∧
    (let c : CoreId := 0; let addr : BitVec 16 := 0x0000; let s : State := base
     let a := addr.toNat
     coreMay s = true ∧ Writes c a s ∧ (∀ f ∈ fieldsAt a, f.acc = .ro)) := by
  refine ⟨?_, ?_, ?_, ?_⟩
  · intros; exact ⟨by simp only [Writes]; decide +kernel +zetaReduce, fun v t => (plain_word _ 0x4007 (by decide +kernel +zetaReduce) fun _ _ _ => rfl) _ v t⟩
  · intros; decide +kernel +zetaReduce
  · intros; decide +kernel +zetaReduce
  · intros; simp only [Writes]; decide +kernel +zetaReduce

/-- The hypotheses of the statement ControlSpaceAccess are met. -/
theorem witness_ControlSpaceAccess :
    (let c : CoreId := 0; let rd : Reg := 6; let ra : Reg := 2; let imm : BitVec 16 := 0x0803; let s : State := (regs [(6, 0x10), (2, 0)] (put [(0x0803, 0x134)] base))
     let a := (imm.toNat + ((s.core c).reg ra).toNat) % 65536
     (Issues c [rd, ra] [ra] s ∧ blockAborts (addrBlock a) s = false ∧ Issues c [rd, ra] [ra, rd] s ∧ Writes c a s ∧
     (∀ f ∈ fieldsAt a, f.acc = .rw) ∧ maskNow (· == .rw) a s ≠ 0 ∧ modeAllows a s = true) ∧ (∀ w x t, blockRule w a x t = .plain x)) := by
  intros; exact ⟨by refine ⟨?_, ?_, ?_, ?_, ?_, ?_, ?_⟩ <;> (try simp only [Writes, Issues]) <;> decide +kernel +zetaReduce, plain_word _ 0x0803 (by decide +kernel +zetaReduce) fun _ _ _ => rfl⟩

/-- The hypotheses of the statement ControlSpaceReplies are met. -/
theorem witness_ControlSpaceReplies :
    (let c : CoreId := 0; let s : State := (run [⟨0, 3, .ok, none⟩, ⟨4, 5, .poison, none⟩] base)
     (s.core c).csRun ≠ [] ∧ (s.core c).held = [] ∧ (∀ e ∈ (s.core c).csRun, e.status = .ok ∨ e.status = .poison)) ∧
    (let c : CoreId := 0; let s : State := (run [⟨0, 3, .ok, none⟩, ⟨4, 5, .refused, none⟩, ⟨8, 5, .resetAbort, none⟩] base)
     let ok : List RunEntry := (s.core c).csRun.takeWhile (fun x => decide (x.status = .ok))
     let rest : List RunEntry := ((s.core c).csRun.dropWhile (fun x => decide (x.status = .ok))).tail
     let e : RunEntry := ((s.core c).csRun.dropWhile (fun x => decide (x.status = .ok))).headD ⟨0, 0, .ok, none⟩
     (s.core c).csRun ≠ [] ∧ (s.core c).held = [] ∧ (s.core c).csRun = ok ++ e :: rest ∧ (∀ x ∈ ok, x.status = .ok) ∧
     (s.core c).status = .running ∧ (s.core c).f.t = false ∧ e.status = .refused) ∧
    (let c : CoreId := 0; let s : State := (run [⟨0, 3, .resetAbort, none⟩, ⟨4, 5, .refused, none⟩] base)
     let ok : List RunEntry := (s.core c).csRun.takeWhile (fun x => decide (x.status = .ok))
     let rest : List RunEntry := ((s.core c).csRun.dropWhile (fun x => decide (x.status = .ok))).tail
     let e : RunEntry := ((s.core c).csRun.dropWhile (fun x => decide (x.status = .ok))).headD ⟨0, 0, .ok, none⟩
     (s.core c).csRun ≠ [] ∧ (s.core c).held = [] ∧ (s.core c).csRun = ok ++ e :: rest ∧ (∀ x ∈ ok, x.status = .ok) ∧
     (s.core c).status = .running ∧ (s.core c).f.t = false ∧ e.status = .resetAbort) := by
  refine ⟨?_, ?_, ?_⟩
  · intros; decide +kernel +zetaReduce
  · intros; decide +kernel +zetaReduce
  · intros; decide +kernel +zetaReduce

/-- The hypotheses of the statement BankHandover are met. -/
theorem witness_BankHandover :
    (let c : CoreId := 0; let rd : Reg := 6; let ra : Reg := 2; let code : BitVec 16 := 14; let b : BankId := 5; let s : State := (B.bank 5 ⟨31, false, true, []⟩ { B.named 5 with cells := [(655360, 3)] })
     let bank := s.banks[b]
     let named : Word := BitVec.ofNat 32 b.val
     let room : Prop := inflight s < 1472
     Runs c [rd] s ∧ (s.core c).reg rd = named ∧ granted (coreWriter c s) (0x1000 + b.val) = true ∧ bank.owner ≠ c.val ∧ code.toNat < 32 ∧
     (s.core c).f.t = false ∧ Runs c [rd, ra] s ∧ (s.core c).reg ra = named ∧ room ∧ bank.owner = 31 ∧ bank.powered = false ∧
     bank.filling = true ∧ bank.takers = [] ∧ Writes c 0x1021 s ∧ 8 ≤ bank.owner ∧ bank.owner ≠ 11 ∧ Writes c 0x1020 s ∧ mayPowerDown b s = true ∧
     s.flag 0x1020 b.val = true) ∧
    (let c : CoreId := 0; let rd : Reg := 6; let ra : Reg := 2; let code : BitVec 16 := 13; let b : BankId := 5; let s : State := (B.bank 5 ⟨0, true, false, []⟩ (B.named 5))
     let bank := s.banks[b]
     let named : Word := BitVec.ofNat 32 b.val
     let room : Prop := inflight s < 1472
     Runs c [rd] s ∧ (s.core c).reg rd = named ∧ granted (coreWriter c s) (0x1000 + b.val) = true ∧ bank.owner = c.val ∧
     (code.toNat < 14 ∨ code.toNat = 31) ∧ room ∧ Runs c [rd, ra] s ∧ (s.core c).reg ra = named ∧ bank.owner ≠ 31) ∧
    (let c : CoreId := 0; let rd : Reg := 6; let ra : Reg := 2; let code : BitVec 16 := 13; let b : BankId := 5; let s : State := (full (B.bank 5 ⟨0, true, false, []⟩ (B.named 5)))
     let bank := s.banks[b]
     let named : Word := BitVec.ofNat 32 b.val
     let room : Prop := inflight s < 1472
     Runs c [rd] s ∧ (s.core c).reg rd = named ∧ granted (coreWriter c s) (0x1000 + b.val) = true ∧ bank.owner = c.val ∧
     (code.toNat < 14 ∨ code.toNat = 31) ∧ ¬room ∧ Runs c [rd, ra] s ∧ (s.core c).reg ra = named) ∧
    (let c : CoreId := 0; let rd : Reg := 6; let ra : Reg := 2; let b : BankId := 5; let s : State := (B.bank 5 ⟨31, true, false, []⟩ (B.named 5))
     let bank := s.banks[b]
     let named : Word := BitVec.ofNat 32 b.val
     let room : Prop := inflight s < 1472
     Runs c [rd, ra] s ∧ (s.core c).reg ra = named ∧ granted (coreWriter c s) (0x1000 + b.val) = true ∧ room ∧ bank.owner = 31 ∧
     bank.powered = true) ∧
    (let c : CoreId := 0; let rd : Reg := 6; let b : BankId := 5; let s : State := (upd0 (fun k => { k with status := .filling 5 6 }) (B.bank 5 ⟨31, false, true, [0]⟩ { named 5 with cells := [(3, 2), (655360, 3)] }))
     let bank := s.banks[b]
     bank.filling = true ∧ (s.core c).status = .filling b rd ∧ (s.core c).held = [] ∧ (s.core c).step = false ∧ bank.takers.head? = some c ∧
     bank.owner = 31 ∧ rd ≠ 0) := by
  refine ⟨?_, ?_, ?_, ?_, ?_⟩
  · intros; simp only [Runs, Writes]; decide +kernel +zetaReduce
  · intros; simp only [Runs]; decide +kernel +zetaReduce
  · intros; simp only [Runs]; decide +kernel +zetaReduce
  · intros; simp only [Runs]; decide +kernel +zetaReduce
  · intros; decide +kernel +zetaReduce

/-- The hypotheses of the statement TokenClaims are met. -/
theorem witness_TokenClaims :
    (let c : CoreId := 0; let rd : Reg := 6; let ra : Reg := 2; let obj : BitVec 16 := 5; let source : Nat := 0; let s : State := (tok 6 0)
     let room : Prop := inflight s < 1472
     Runs c [rd, ra] s ∧ (s.core c).reg ra = BitVec.ofNat 32 (source * 2 ^ 16 + obj.toNat) ∧ (source = c.val ∨ 8 ≤ source ∧ source < 16) ∧ room ∧
     s.tokens.lookup obj = none) ∧
    (let c : CoreId := 0; let rd : Reg := 6; let ra : Reg := 2; let obj : BitVec 16 := 5; let source : Nat := 0; let s : State := (tok 5 0)
     let room : Prop := inflight s < 1472
     Runs c [rd, ra] s ∧ (s.core c).reg ra = BitVec.ofNat 32 (source * 2 ^ 16 + obj.toNat) ∧ (source = c.val ∨ 8 ≤ source ∧ source < 16) ∧ room ∧
     s.tokens.lookup obj = some source) ∧
    (let c : CoreId := 0; let rd : Reg := 6; let ra : Reg := 2; let obj : BitVec 16 := 5; let source : Nat := 0; let s : State := (tok 5 9)
     let level (n : Nat) := s.field (0x0A00 + n) 0 3
     let room : Prop := inflight s < 1472
     let h : Nat := (s.tokens.lookup obj).getD 0
     Runs c [rd, ra] s ∧ (s.core c).reg ra = BitVec.ofNat 32 (source * 2 ^ 16 + obj.toNat) ∧ (source = c.val ∨ 8 ≤ source ∧ source < 16) ∧ room ∧
     s.tokens.lookup obj = some h ∧ h ≠ source ∧ level source ≤ level h) ∧
    (let c : CoreId := 0; let rd : Reg := 6; let ra : Reg := 2; let obj : BitVec 16 := 5; let source : Nat := 0; let s : State := (tok 5 8)
     let level (n : Nat) := s.field (0x0A00 + n) 0 3
     let room : Prop := inflight s < 1472
     let h : Nat := (s.tokens.lookup obj).getD 0
     Runs c [rd, ra] s ∧ (s.core c).reg ra = BitVec.ofNat 32 (source * 2 ^ 16 + obj.toNat) ∧ (source = c.val ∨ 8 ≤ source ∧ source < 16) ∧ room ∧
     s.tokens.lookup obj = some h ∧ h ≠ source ∧ level h < level source ∧ 8 ≤ h) ∧
    (let c : CoreId := 0; let rd : Reg := 6; let ra : Reg := 2; let obj : BitVec 16 := 5; let source : Nat := 0; let s : State := (tok 5 1)
     let level (n : Nat) := s.field (0x0A00 + n) 0 3
     let room : Prop := inflight s < 1472
     let h : Nat := (s.tokens.lookup obj).getD 0
     let d : CoreId := Fin.ofNat 8 h
     Runs c [rd, ra] s ∧ (s.core c).reg ra = BitVec.ofNat 32 (source * 2 ^ 16 + obj.toNat) ∧ (source = c.val ∨ 8 ≤ source ∧ source < 16) ∧ room ∧
     s.tokens.lookup obj = some h ∧ h ≠ source ∧ d.val = h ∧ level h < level source) ∧
    (let c : CoreId := 0; let rd : Reg := 6; let ra : Reg := 2; let s : State := (regs [(2, 0x00030005)] (tok 5 1))
     Runs c [rd, ra] s ∧ (s.core c).f.t = false ∧ (bits ((s.core c).reg ra) 21 11 ≠ 0 ∨ ¬(bits ((s.core c).reg ra) 16 5 = c.val ∨
         8 ≤ bits ((s.core c).reg ra) 16 5 ∧ bits ((s.core c).reg ra) 16 5 < 16))) ∧
    (let c : CoreId := 0; let rd : Reg := 6; let ra : Reg := 2; let obj : BitVec 16 := 5; let source : Nat := 0; let s : State := (full (tok 6 0))
     let room : Prop := inflight s < 1472
     Runs c [rd, ra] s ∧ (s.core c).reg ra = BitVec.ofNat 32 (source * 2 ^ 16 + obj.toNat) ∧ (source = c.val ∨ 8 ≤ source ∧ source < 16) ∧
     ¬room) := by
  refine ⟨?_, ?_, ?_, ?_, ?_, ?_, ?_⟩
  · intros; simp only [Runs]; decide +kernel +zetaReduce
  · intros; simp only [Runs]; decide +kernel +zetaReduce
  · intros; simp only [Runs]; decide +kernel +zetaReduce
  · intros; simp only [Runs]; decide +kernel +zetaReduce
  · intros; simp only [Runs]; decide +kernel +zetaReduce
  · intros; simp only [Runs]; decide +kernel +zetaReduce
  · intros; simp only [Runs]; decide +kernel +zetaReduce

/-- The hypotheses of the statement OrderAdmission are met. -/
theorem witness_OrderAdmission :
    (let c : CoreId := 0; let w : Word := 7; let h : Word := 0x10001005; let v : Word := 7; let payload : List Word := []; let s : State := (q240 7 [0x10001005] base)
     let o : Order := ⟨bits h 28 4, c.val, some c, h.setWidth 16, v, payload, s.clock, s.deviceTime.toNat / 125000, 0, 0⟩
     s.queue 240 = [⟨c.val, w⟩] ∧ s.assembly[c] ++ [w] = h :: v :: payload ∧ payload.length = bits h 16 7 ∧ payload.length ≤ 64 ∧
     bits h 23 5 = c.val ∧ s.field 0x0409 0 8 < 240 ∧ (objectFits o.obj = false ∨ 4 ≤ o.kind ∨ o.kind ≠ 2 ∧ v ≠ 0)) ∧
    (let c : CoreId := 0; let w : Word := 9; let h : Word := 0x20011005; let v : Word := 7; let payload : List Word := [9]; let s : State := (q240 9 [0x20011005, 7] { tok 0x1005 0 with agreed := 0 })
     let o : Order := ⟨bits h 28 4, c.val, some c, h.setWidth 16, v, payload, s.clock, s.deviceTime.toNat / 125000, 0, 0⟩
     s.queue 240 = [⟨c.val, w⟩] ∧ s.assembly[c] ++ [w] = h :: v :: payload ∧ payload.length = bits h 16 7 ∧ payload.length ≤ 64 ∧
     bits h 23 5 = c.val ∧ s.field 0x0409 0 8 < 240 ∧ objectFits o.obj = true ∧ 0 < o.kind ∧ o.kind < 4 ∧ (o.kind = 2 ∨ v = 0) ∧
     s.agreed.getLsbD 2 = false ∧ tokenHolder o.obj s = some c.val) ∧
    (let c : CoreId := 0; let w : Word := 9; let h : Word := 0x10011005; let v : Word := 0; let payload : List Word := [9]; let s : State := (q240 9 [0x10011005, 0] base)
     let o : Order := ⟨bits h 28 4, c.val, some c, h.setWidth 16, v, payload, s.clock, s.deviceTime.toNat / 125000, 0, 0⟩
     s.queue 240 = [⟨c.val, w⟩] ∧ s.assembly[c] ++ [w] = h :: v :: payload ∧ payload.length = bits h 16 7 ∧ payload.length ≤ 64 ∧
     bits h 23 5 = c.val ∧ s.field 0x0409 0 8 < 240 ∧ objectFits o.obj = true ∧ 0 < o.kind ∧ o.kind < 4 ∧ (o.kind = 2 ∨ v = 0) ∧
     s.agreed.getLsbD 2 = true) := by
  refine ⟨?_, ?_, ?_⟩
  · intros; decide +kernel +zetaReduce
  · intros; decide +kernel +zetaReduce
  · intros; decide +kernel +zetaReduce

/-- The hypotheses of the statement MergeCycles are met. -/
theorem witness_MergeCycles :
    (let s : State := { base with merged := 3, accepted := [ord 2 3 (some 3) 6] }
     s.deviceTime.toNat / 125000 ≠ s.merged ∧ s.orders = [] ∧ (∀ x ∈ s.accepted, x.sender.isSome)) ∧
    (let o : Order := (ord 1 0 (some 0) 5); let p : Order := (ord 2 1 (some 1) 5); let s : State := { base with merged := 3, orders := [ord 1 0 (some 0) 5, ord 2 1 (some 1) 5] }
     s.deviceTime.toNat / 125000 ≠ s.merged ∧ s.accepted = [] ∧ (s.orders = [o, p] ∨ s.orders = [p, o]) ∧ o.obj = p.obj ∧ o.kind = 1 ∧
     (p.kind = 2 ∨ p.kind = 1 ∧ s.field (0x0A00 + p.source) 0 3 = s.field (0x0A00 + o.source) 0 3 ∧ s.tokens.lookup o.obj = none ∧
       o.time = p.time ∧ o.source < p.source) ∧ o.sender.isSome ∧ p.sender.isSome) := by
  refine ⟨?_, ?_⟩
  · intros; decide +kernel +zetaReduce
  · intros; decide +kernel +zetaReduce

/-- The hypotheses of the statement TackPlacing are met. -/
theorem witness_TackPlacing :
    (let c : CoreId := 0; let rd : Reg := 6; let ra : Reg := 2; let rb : Reg := 4; let rc : Reg := 7; let tn : TReg := 1; let s : State := (upd0 (fun k => { k with t := k.t.set 1 1000002007 }) (regs [(2, 0x0A00), (4, 9), (7, 125)] base))
     let k := s.core c
     let desc := k.reg ra
     let p := some (k.reg rc).toNat
     let period : Option Nat := p
     let n : Nat := (freeSlot c s).getD 0
     Runs c [rd, ra, rb] s ∧ Runs c [rd, ra, rb, rc] s ∧ inflight s < 1472 ∧ tackRefused desc period = false ∧ freeSlot c s = some n ∧
     s.deviceTime.toNat + 2000 ≤ (k.t[tn] &&& ~~~7 : DWord).toNat) ∧
    (let c : CoreId := 0; let rd : Reg := 6; let ra : Reg := 2; let rb : Reg := 4; let rc : Reg := 7; let tn : TReg := 1; let s : State := (upd0 (fun k => { k with t := k.t.set 1 1000001999 }) (regs [(2, 0x20000A00), (4, 9), (7, 125)] base))
     let k := s.core c
     let desc := k.reg ra
     let p := some (k.reg rc).toNat
     let period : Option Nat := p
     Runs c [rd, ra, rb, rc] s ∧ inflight s < 1472 ∧ tackRefused desc period = false ∧ (freeSlot c s).isSome ∧
     (k.t[tn] &&& ~~~7 : DWord).toNat < s.deviceTime.toNat + 2000 ∧ (s.feature 1 = true → bits desc 28 2 = 2)) ∧
    (let c : CoreId := 0; let rd : Reg := 6; let ra : Reg := 2; let rb : Reg := 4; let rc : Reg := 7; let s : State := (upd0 (fun k => { k with t := k.t.set 1 1000002008 }) (regs [(2, 0x20010A00), (4, 9), (7, 124)] base))
     let k := s.core c
     let desc := k.reg ra
     let p := some (k.reg rc).toNat
     let period : Option Nat := p
     Runs c [rd, ra, rb, rc] s ∧ tackRefused desc period = true ∧ k.f.t = false) ∧
    (let c : CoreId := 0; let rd : Reg := 6; let ra : Reg := 2; let rb : Reg := 4; let rc : Reg := 7; let s : State := (upd0 (fun k => { k with t := k.t.set 1 1000002008 }) (regs [(2, 0x0A00), (4, 9), (7, 125)] (fld base ((List.range 64).map fun n => tk n 0 0 5 6 none))))
     let k := s.core c
     let desc := k.reg ra
     let p := some (k.reg rc).toNat
     let period : Option Nat := p
     Runs c [rd, ra, rb, rc] s ∧ tackRefused desc period = false ∧ (freeSlot c s = none ∨ 1472 ≤ inflight s)) := by
  refine ⟨?_, ?_, ?_, ?_⟩
  · intros; simp only [Runs]; decide +kernel +zetaReduce
  · intros; simp only [Runs]; decide +kernel +zetaReduce
  · intros; simp only [Runs]; decide +kernel +zetaReduce
  · intros; simp only [Runs]; decide +kernel +zetaReduce

/-- The hypotheses of the statement TackRemoval are met. -/
theorem witness_TackRemoval :
    (let c : CoreId := 0; let rd : Reg := 6; let ra : Reg := 2; let s : State := (regs [(2, 512)] base)
     let h := (s.core c).reg ra
     Runs c [rd, ra] s ∧ (s.core c).f.t = false ∧ 512 ≤ h.toNat) ∧
    (let c : CoreId := 0; let rd : Reg := 6; let ra : Reg := 2; let s : State := (regs [(2, 511)] (fld base [tk 511 0 0 5 6 none, tk 3 1 0 5 6 none]))
     let h := (s.core c).reg ra
     let mine (t : Tack) : Bool := t.slot == h.toNat && decide (t.core = c)
     Runs c [rd, ra] s ∧ h.toNat < 512 ∧ inflight s < 1472 ∧ s.tacks.any mine = true) ∧
    (let c : CoreId := 0; let rd : Reg := 6; let ra : Reg := 2; let s : State := (regs [(2, 3)] { fld base [tk 511 0 0 5 6 none, tk 3 1 0 5 6 none] with fired := [(3, 0)] })
     let h := (s.core c).reg ra
     let mine (t : Tack) : Bool := t.slot == h.toNat && decide (t.core = c)
     Runs c [rd, ra] s ∧ h.toNat < 512 ∧ inflight s < 1472 ∧ s.tacks.any mine = false ∧ s.fired.contains (h.toNat, c) = true) ∧
    (let c : CoreId := 0; let rd : Reg := 6; let ra : Reg := 2; let s : State := (regs [(2, 3)] (fld base [tk 511 0 0 5 6 none, tk 3 1 0 5 6 none]))
     let h := (s.core c).reg ra
     let mine (t : Tack) : Bool := t.slot == h.toNat && decide (t.core = c)
     Runs c [rd, ra] s ∧ h.toNat < 512 ∧ inflight s < 1472 ∧ s.tacks.any mine = false ∧ s.fired.contains (h.toNat, c) = false) ∧
    (let c : CoreId := 0; let rd : Reg := 6; let ra : Reg := 2; let s : State := (full (regs [(2, 511)] base))
     let h := (s.core c).reg ra
     Runs c [rd, ra] s ∧ h.toNat < 512 ∧ 1472 ≤ inflight s) := by
  refine ⟨?_, ?_, ?_, ?_, ?_⟩
  · intros; simp only [Runs]; decide +kernel +zetaReduce
  · intros; simp only [Runs]; decide +kernel +zetaReduce
  · intros; simp only [Runs]; decide +kernel +zetaReduce
  · intros; simp only [Runs]; decide +kernel +zetaReduce
  · intros; simp only [Runs]; decide +kernel +zetaReduce

/-- The hypotheses of the statement TackActions are met. -/
theorem witness_TackActions :
    (let handle : Fin 512 := 3; let t : Tack := (tk 3 0 0 0x0A00 1000000000 none); let s : State := (fld base [tk 3 0 0 0x0A00 1000000000 none, tk 511 0 0 5 6 none])
     s.tacks.find? (fun u => u.slot == handle.val) = some t ∧ tackDue t s = true ∧ (∀ u ∈ s.tacks, u.slot = t.slot → u.handed = false) ∧
     t.period = none ∧ t.kind = 0) ∧
    (let handle : Fin 512 := 3; let t : Tack := (tk 3 0 1 0x0A00 1000000000 none); let s : State := (fld base [tk 3 0 1 0x0A00 1000000000 none])
     s.tacks.find? (fun u => u.slot == handle.val) = some t ∧ tackDue t s = true ∧ (∀ u ∈ s.tacks, u.slot = t.slot → u.handed = false) ∧
     t.period = none ∧ t.kind = 1) ∧
    (let handle : Fin 512 := 3; let t : Tack := (tk 3 0 2 0x0A00 1000000000 none); let s : State := (fld base [tk 3 0 2 0x0A00 1000000000 none])
     s.tacks.find? (fun u => u.slot == handle.val) = some t ∧ tackDue t s = true ∧ (∀ u ∈ s.tacks, u.slot = t.slot → u.handed = false) ∧
     t.period = none ∧ t.kind = 2) ∧
    (let handle : Fin 512 := 3; let t : Tack := (tk 3 0 3 0x0706 1000000000 none); let s : State := (fld base [tk 3 0 3 0x0706 1000000000 none])
     let target : CoreId := Fin.ofNat 8 (t.target / 256)
     s.tacks.find? (fun u => u.slot == handle.val) = some t ∧ tackDue t s = true ∧ (∀ u ∈ s.tacks, u.slot = t.slot → u.handed = false) ∧
     t.period = none ∧ t.kind = 3 ∧ s.blockOut (target.castLE (by decide : 8 ≤ 25)) = false) ∧
    (let handle : Fin 512 := 3; let t : Tack := (tk 3 0 3 0x0706 1000000000 (some 125)); let s : State := (fld base [tk 2 0 3 0x0706 5000000000 (some 125), tk 3 0 3 0x0706 1000000000 (some 125)])
     let target : CoreId := Fin.ofNat 8 (t.target / 256)
     let p : Nat := t.period.getD 0
     s.tacks.find? (fun u => u.slot == handle.val) = some t ∧ tackDue t s = true ∧ (∀ u ∈ s.tacks, u.slot = t.slot → u.handed = false) ∧
     t.period = some p ∧ t.kind = 3 ∧ s.blockOut (target.castLE (by decide : 8 ≤ 25)) = false) ∧
    (let handle : Fin 512 := 3; let t : Tack := (tk 3 0 0 0x3002 1000001000 none); let s : State := (fld base [tk 3 0 0 0x3002 1000001000 none])
     s.tacks.find? (fun u => u.slot == handle.val) = some t ∧ timeClocked s = true ∧ t.handed = false ∧ t.kind < 3 ∧
     drivesPins (blockOfAddr t.target) = true ∧ blockAborts (addrBlock t.target) s = false ∧ t.time.toNat ≤ s.deviceTime.toNat + 1000) ∧
    (let handle : Fin 512 := 3; let t : Tack := { tk 3 0 0 0x3002 1000000000 none with handed := true }; let s : State := { fld base [{ tk 3 0 0 0x3002 1000000000 none with handed := true }] with launches := [⟨5, 0, 0, 0x0A00, 4, 1000000000, 0x7FFFFF⟩, ⟨3, 0, 0, 0x3002, 4, 1000000000, 0x7FFFFF⟩] }
     s.tacks.find? (fun u => u.slot == handle.val && u.handed) = some t ∧ tackDue t s = true ∧ s.launches.any (fun l => l.slot == t.slot) = true ∧
     t.kind = 0) := by
  refine ⟨?_, ?_, ?_, ?_, ?_, ?_, ?_⟩
  · intros; decide +kernel +zetaReduce
  · intros; decide +kernel +zetaReduce
  · intros; decide +kernel +zetaReduce
  · intros; decide +kernel +zetaReduce
  · intros; decide +kernel +zetaReduce
  · intros; decide +kernel +zetaReduce
  · intros; decide +kernel +zetaReduce

/-- The hypotheses of the statement Watchdogs are met. -/
theorem witness_Watchdogs :
    (let c : CoreId := 0; let s : State := (upd0 (fun k => { k with kickAt := 999999000 }) (put [(0x0809, 1), (0x0803, 0x44)] base))
     let k := s.core c
     let limit := s.field (coreAddr c 9) 0 16 * 1000
     let age := s.deviceTime.toNat - k.kickAt
     0 < limit ∧ limit ≤ age ∧ k.wdogFired = false ∧ canTrap k = true) ∧
    (let c : CoreId := 0; let s : State := (upd0 (fun k => { k with kickAt := 999999000, f := { k.f with t := true } }) (put [(0x0809, 1), (0x0803, 0x44)] base))
     let k := s.core c
     let limit := s.field (coreAddr c 9) 0 16 * 1000
     let age := s.deviceTime.toNat - k.kickAt
     0 < limit ∧ limit ≤ age ∧ k.wdogFired = false ∧ canTrap k = false) ∧
    (let c : CoreId := 0; let s : State := (upd0 (fun k => { k with kickAt := 999998000, wdogFired := true }) (put [(0x0809, 1), (0x0803, 0x44), (0x0810, 0x800000C1)] (tok 5 0)))
     let k := s.core c
     let b : Fin 25 := c.castLE (by decide)
     let limit := s.field (coreAddr c 9) 0 16 * 1000
     let age := s.deviceTime.toNat - k.kickAt
     0 < limit ∧ 2 * limit ≤ age ∧ k.wdogFired = true ∧ s.blocks[b] = .admitted ∧ (∀ e ∈ s.miscount, e.1 ≠ b) ∧
     s.assembly[c].length + ((s.queue 240).filter (·.core == c.val)).length < 2) := by
  refine ⟨?_, ?_, ?_⟩
  · intros; decide +kernel +zetaReduce
  · intros; decide +kernel +zetaReduce
  · intros; decide +kernel +zetaReduce

/-- The hypotheses of the statement CoreCommands are met. -/
theorem witness_CoreCommands :
    (let c : CoreId := 0; let target : CoreId := 1; let port : Fin 8 := 7; let val : Word := 0x800000C0; let s : State := (put [(0x0842, 0x44)] base)
     let k := s.core target
     let q := bits val 0 8
     let send := bit val 8
     Writes c (coreAddr target 0xA) s ∧ Writes c (coreAddr target 1) s ∧ k.status = .halted ∧ k.held = [] ∧
     s.blockOut (target.castLE (by decide : 8 ≤ 25)) = false ∧ Writes c (qbindAddr target port) s ∧ bit val 31 = true ∧ unitEnd q send = false ∧
     endHeld target port q send s = false) ∧
    (let c : CoreId := 0; let target : CoreId := 0; let port : Fin 8 := 7; let val : Word := 5; let s : State := base
     let k := s.core target
     Writes c (coreAddr target 1) s ∧ k.status = .running ∧ k.csRun = [] ∧ Writes c (qbindAddr target port) s ∧ bit val 31 = false) ∧
    (let c : CoreId := 0; let target : CoreId := 0; let port : Fin 8 := 7; let val : Word := 0x800000F0; let s : State := base
     let q := bits val 0 8
     let send := bit val 8
     Writes c (qbindAddr target port) s ∧ bit val 31 = true ∧ (unitEnd q send = true ∨ endHeld target port q send s = true) ∧
     (s.core c).status = .running ∧ (s.core c).f.t = false) := by
  refine ⟨?_, ?_, ?_⟩
  · intros; simp only [Writes]; decide +kernel +zetaReduce
  · intros; simp only [Writes]; decide +kernel +zetaReduce
  · intros; simp only [Writes]; decide +kernel +zetaReduce

end Sys2Proof.Tests.B

namespace Sys2Proof.Tests.C

def halt0 (s : State) : State := s.updCore 0 fun k => { k with status := .halted }
def out (b : Fin 25) (s : State) : State := { s with blocks := modAt s.blocks b fun _ => .out }
def md (m : Mode) (s : State) : State := { s with modes := { s.modes with mode := m } }
def lnch (t : Nat) (s : State) : State := { s with launches := [⟨3, 0, 0, t, 4, 1000000000, 0⟩] }
def still (s : State) : State := { s with mach := { s.mach with axes := s.mach.axes.map fun x => { x with stillAt := some 0 } } }
def ses (f : DWord) (s : State) : State := { s with sec := { s.sec with sessions := modAt s.sec.sessions 2 fun x => { x with phase := .opened, agreed := f } } }
def leB (n : Nat) (v : Nat) : Bytes := (List.range n).map fun i => BitVec.ofNat 8 (v / 256 ^ i)
def img : Bytes := leB 4 0x4B494D47 ++ leB 2 1 ++ leB 2 0 ++ leB 4 8 ++ leB 4 1 ++ leB 8 5 ++ leB 2 0x4201 ++ leB 1 3 ++ leB 1 0 ++ leB 4 4 ++ leB 4 77 ++ leB 28 0 ++ [1, 2, 3, 4, 0, 6, 7, 8]
def bootSt (f : Option Bytes) : State := { State.reset with modes := { mode := .boot }, sec := { State.reset.sec with flash := modAt State.reset.sec.flash 0 fun _ => f }, cells := [(5, 9), (131072, 4)] }
def adm : State := put [(0x0008, 3), (0x080B, 0x7FFFFF)] { State.reset with clock := 1000000000, modes := { mode := .admission, entryCores := 1, loadBanks := 1 } }
def hot (v : Int) : BitVec 16 := BitVec.ofInt 16 v

/-- The hypotheses of the statement BlockCommands are met. -/
theorem witness_BlockCommands :
    (let c : CoreId := 0; let block : Fin 32 := 12; let b : Fin 25 := 12; let s : State := (lnch 0x0A00 (md .hold base))
     Writes c 0x0403 s ∧ b.val = block.val ∧ b.val ≠ 11 ∧ b.val ≠ 23 ∧ b.val ≠ c.val ∧ aloneIn b s = true ∧ s.blocks[b] = .admitted ∧
     (s.blocks[b] ≠ .out ∨ s.readmit.getLsbD b.val = false ∨ s.byClock.getLsbD b.val = true ∨ (b.val < 8 ∧ s.sec.update.isSome))) ∧
    (let c : CoreId := 0; let block : Fin 32 := 3; let b : Fin 25 := 3; let feature : DWord := 0xFFFFFFFFFFFFFFFF; let s : State := { out 3 base with readmit := 0xFFFFFFF }
     Writes c 0x0403 s ∧ b.val = block.val ∧ b.val ≠ 11 ∧ b.val ≠ 23 ∧ b.val ≠ c.val ∧ s.blocks[b] = .out ∧ aloneIn b s = true ∧
     s.readmit.getLsbD b.val = true ∧ s.byClock.getLsbD b.val = false ∧ (b.val < 8 → s.sec.update = none) ∧
     openFeatures s &&& blockFeatures b.val &&& ~~~feature = 0 ∧ b.val < 10) ∧
    (let c : CoreId := 0; let block : Fin 32 := 0; let s : State := base
     Writes c 0x0403 s ∧ (block.val = 11 ∨ block.val = 23 ∨ block.val = c.val ∨ 25 ≤ block.val)) ∧
    (let b : Fin 25 := 13; let feature : DWord := 0xFFFFFFFFFFFFFFFF; let s : State := { out 13 base with readmit := 0xFFFFFFF }
     s.blocks[b] = .out ∧ s.readmit.getLsbD b.val = true ∧ s.byClock.getLsbD b.val = false ∧ (b.val < 8 → s.sec.update = none) ∧
     openFeatures s &&& blockFeatures b.val &&& ~~~feature = 0 ∧ 10 ≤ b.val ∧ s.word 0x4809 = 0 ∧ s.word 0x4C09 = 0) ∧
    (let b : Fin 25 := 13; let feature : DWord := 0xFFFFFFFFFFFFFFFE; let s : State := (ses 0xF { out 13 base with readmit := 0xFFFFFFF })
     let n : Nat := ((List.range 64).find? fun n => (openFeatures s &&& blockFeatures b.val &&& ~~~feature).getLsbD n).getD 0
     s.blocks[b] = .out ∧ s.readmit.getLsbD b.val = true ∧ s.byClock.getLsbD b.val = false ∧ (b.val < 8 → s.sec.update = none) ∧ n < 64 ∧
     openFeatures s &&& blockFeatures b.val &&& ~~~feature = BitVec.ofNat 64 (2 ^ n)) := by
  refine ⟨?_, ?_, ?_, ?_, ?_⟩
  · intros; simp only [Writes]; decide +kernel +zetaReduce
  · intros; simp only [Writes]; decide +kernel +zetaReduce
  · intros; simp only [Writes]; decide +kernel +zetaReduce
  · intros; decide +kernel +zetaReduce
  · intros; decide +kernel +zetaReduce

/-- The hypotheses of the statement FabricObservation are met. -/
theorem witness_FabricObservation :
    (let c : CoreId := 0; let age : Nat := 11; let s : State := (put [(0x0402, 10)] base)
     coresPowered s = true ∧ max 10 (s.field 0x0402 0 16) < age ∧ Writes c 0x040C s ∧ Writes c 0x0409 s) ∧
    (let age : Nat := 10; let s : State := (md .standby base)
     (coresPowered s = false ∨ age ≤ max 10 (s.field 0x0402 0 16)) ∧ coresPowered s = false) := by
  refine ⟨?_, ?_⟩
  · intros; simp only [Writes]; decide +kernel +zetaReduce
  · intros; decide +kernel +zetaReduce

/-- The hypotheses of the statement DomainClocks are met. -/
theorem witness_DomainClocks :
    (let d : Fin 25 := 23; let s : State := { base with sec := { base.sec with writing := some (0, [], false) } }
     let armed : Prop := clockArmed d s = true ∧ s.clockTold.getLsbD d.val = false
     d = 23 ∧ armed ∧ 2 ≤ d.val ∧ clockHolds d = []) ∧
    (let d : Fin 25 := 1; let s : State := { base with clockSaid := 2, clockLost := 2 }
     let armed : Prop := clockArmed d s = true ∧ s.clockTold.getLsbD d.val = false
     d.val < 2 ∧ armed ∧ s.modes.mode = .run ∧ Memory.wf s = true ∧ s.clockSaid.getLsbD d.val = true) ∧
    (let d : Fin 25 := 13; let s : State := { base with clockTold := 0x2000, clockSaid := 0x2000, clockLost := 0x2000, byClock := 0x2000, blocks := modAt base.blocks 13 fun _ => .out }
     let mask : BitVec 25 := BitVec.ofNat 25 (2 ^ d.val)
     clockArmed d s = false ∧ 12 ≤ d.val ∧ d.val ≤ 14 ∧ s.byClock.getLsbD 13 = true ∧ s.clockSaid &&& ~~~mask = 0) ∧
    (let d : Fin 25 := 8; let s : State := base
     let armed : Prop := clockArmed d s = true ∧ s.clockTold.getLsbD d.val = false
     8 ≤ d.val ∧ d.val ≤ 11 ∧ armed) ∧
    (let d : Fin 25 := 1; let s : State := { base with clockTold := 2, clockSaid := 2, clockLost := 2 }
     clockArmed d s = true ∧ s.clockTold.getLsbD d.val = true) := by
  refine ⟨?_, ?_, ?_, ?_, ?_⟩
  · intros; decide +kernel +zetaReduce
  · intros; decide +kernel +zetaReduce
  · intros; decide +kernel +zetaReduce
  · intros; decide +kernel +zetaReduce
  · intros; decide +kernel +zetaReduce

/-- The hypotheses of the statement ModeRequests are met. -/
theorem witness_ModeRequests :
    (let c : CoreId := 0; let s : State := (md .hold base)
     let m := s.modes.mode
     let to_ : Mode := (if s.modes.degraded then .degraded else .run)
     Writes c 0x0011 s ∧ s.modes.entering = none ∧ m = .hold ∧ mayRun s = true ∧ (to_ ≠ .hold ∧ to_ ≠ .trip ∨ noStart s = true) ∧
     (m = .hold ∨ m = .quiet) ∧ maintenanceAllowed s = false) ∧
    (let c : CoreId := 0; let s : State := (md .hold base)
     let m := s.modes.mode
     let to_ : Mode := .quiet
     Writes c 0x0011 s ∧ s.modes.entering = none ∧ m = .hold ∧ panelAsleep s = true ∧ (to_ ≠ .hold ∧ to_ ≠ .trip ∨ noStart s = true)) ∧
    (let c : CoreId := 0; let s : State := (md .hold base)
     let m := s.modes.mode
     let to_ : Mode := .trip
     Writes c 0x0011 s ∧ s.modes.entering = none ∧ (m = .run ∨ m = .hold ∨ m = .quiet ∨ m = .stop ∨ m = .maintenance) ∧ (to_ ≠ .hold ∧
     to_ ≠ .trip ∨ noStart s = true)) ∧
    (let c : CoreId := 0; let s : State := (put [(0x4800, 0x0F000000), (0x2405, 8)] (md .hold base))
     let m := s.modes.mode
     Writes c 0x0011 s ∧ s.modes.entering = none ∧ m = .hold ∧ mayRun s = false) ∧
    (let c : CoreId := 0; let s : State := (md .hold { base with fuses := { base.fuses with life := .opened }, modes := { base.modes with degraded := true } })
     let m := s.modes.mode
     let to_ : Mode := .maintenance
     Writes c 0x0011 s ∧ s.modes.entering = none ∧ m = .hold ∧ maintenanceAllowed s = true ∧ (to_ ≠ .hold ∧ to_ ≠ .trip ∨ noStart s = true)) ∧
    (let c : CoreId := 0; let s : State := (still base)
     let m := s.modes.mode
     let to_ : Mode := .hold
     Writes c 0x0011 s ∧ s.modes.entering = none ∧ m = .run ∧ allStill s = true ∧ (to_ ≠ .hold ∧ to_ ≠ .trip ∨ noStart s = true)) ∧
    (let c : CoreId := 0; let s : State := (put [(0x2810, 0x80000000)] (md .hold base))
     let m := s.modes.mode
     Writes c 0x0011 s ∧ s.modes.entering = none ∧ m = .hold ∧ panelAsleep s = false) ∧
    (let c : CoreId := 0; let s : State := { base with axes := base.axes, mach := { base.mach with axes := base.mach.axes.map fun x => { x with stillAt := none } } }
     let m := s.modes.mode
     let to_ : Mode := .stop
     Writes c 0x0011 s ∧ s.modes.entering = none ∧ m = .run ∧ allStill s = false ∧ (to_ ≠ .hold ∧ to_ ≠ .trip ∨ noStart s = true)) := by
  refine ⟨?_, ?_, ?_, ?_, ?_, ?_, ?_, ?_⟩
  · intros; simp only [Writes]; decide +kernel +zetaReduce
  · intros; simp only [Writes]; decide +kernel +zetaReduce
  · intros; simp only [Writes]; decide +kernel +zetaReduce
  · intros; simp only [Writes]; decide +kernel +zetaReduce
  · intros; simp only [Writes]; decide +kernel +zetaReduce
  · intros; simp only [Writes]; decide +kernel +zetaReduce
  · intros; simp only [Writes]; decide +kernel +zetaReduce
  · intros; simp only [Writes]; decide +kernel +zetaReduce

/-- The hypotheses of the statement StartUp are met. -/
theorem witness_StartUp :
    (let c : CoreId := 0; let failed : List (WiringCheck × Fin 64) := []; let s : State := adm
     let m := s.modes
     m.mode = .admission ∧ m.wired = false ∧ failed = [] ∧ m.started = false ∧ m.entryCores.getLsbD c.val = true ∧
     (∀ d : CoreId, d < c → m.entryCores.getLsbD d.val = false) ∧ m.lateRaised = false ∧ m.entryCores &&& ~~~m.ready ≠ 0 ∧
     m.released + max 200 (s.field 0x0019 0 16) * 1000000 ≤ s.clock) ∧
    (let secondary : Bool := false; let img : Bytes := img; let s : State := (bootSt (some img))
     let m := s.modes
     m.mode = .boot ∧ m.held = false ∧ s.field 0x0014 0 2 = 0 ∧ s.clockLost.getLsbD 23 = false ∧ m.slotsEnded = false ∧
     (secondary = true → m.slotFailed = true) ∧ Memory.wf s = true ∧ (s.sec.flash[if secondary then (1 : Fin 2) else 0]).getD [] = img ∧
     rejectCode img s = 0) ∧
    (let secondary : Bool := false; let img : Bytes := []; let s : State := (bootSt none)
     let m := s.modes
     m.mode = .boot ∧ m.held = false ∧ s.field 0x0014 0 2 = 0 ∧ s.clockLost.getLsbD 23 = false ∧ m.slotsEnded = false ∧
     (secondary = true → m.slotFailed = true) ∧ Memory.wf s = true ∧ (s.sec.flash[if secondary then (1 : Fin 2) else 0]).getD [] = img ∧
     rejectCode img s ≠ 0 ∧ secondary = false) ∧
    (let secondary : Bool := true; let img : Bytes := []; let s : State := { bootSt none with modes := { mode := .boot, slotFailed := true } }
     let m := s.modes
     m.mode = .boot ∧ m.held = false ∧ s.field 0x0014 0 2 = 0 ∧ s.clockLost.getLsbD 23 = false ∧ m.slotsEnded = false ∧
     (secondary = true → m.slotFailed = true) ∧ Memory.wf s = true ∧ (s.sec.flash[if secondary then (1 : Fin 2) else 0]).getD [] = img ∧
     rejectCode img s ≠ 0 ∧ secondary = true) ∧
    (let c : CoreId := 0; let s : State := (put [(0x1411, 8), (0x1811, 8)] { adm with modes := { adm.modes with started := true, wired := true } })
     let m := s.modes
     let isReady := m.ready ||| BitVec.ofNat 8 (2 ^ c.val)
     m.mode = .admission ∧ m.started = true ∧ m.entryCores.getLsbD c.val = true ∧ m.wired = true ∧ m.entryCores &&& ~~~isReady = 0 ∧
     chanState 0 s ≠ 0 ∧ chanState 1 s ≠ 0 ∧ Memory.wf s = true) ∧
    (let c : CoreId := 0; let s : State := { adm with modes := { adm.modes with started := true, wired := true, entryCores := 3 } }
     let m := s.modes
     let isReady := m.ready ||| BitVec.ofNat 8 (2 ^ c.val)
     m.mode = .admission ∧ m.started = true ∧ m.entryCores.getLsbD c.val = true ∧ m.entryCores &&& ~~~isReady ≠ 0) := by
  refine ⟨?_, ?_, ?_, ?_, ?_, ?_⟩
  · intros; decide +kernel +zetaReduce
  · intros; decide +kernel +zetaReduce
  · intros; decide +kernel +zetaReduce
  · intros; decide +kernel +zetaReduce
  · intros; decide +kernel +zetaReduce
  · intros; decide +kernel +zetaReduce

/-- The hypotheses of the statement RailsAndResets are met. -/
theorem witness_RailsAndResets :
    (let r : Rail := .vio; let boot : Fin 4 := 2; let mstr : Bool := true; let s : State := base
     let m := s.modes
     m.held = false ∧ m.mode ≠ .dormant ∧ railDie r = none ∧ swf resetWord s.words = true ∧ noStart s = true ∧ m.porEnded = true ∧
     railGood r s = false ∧ s.sec.writing = none ∧ m.railHold = false ∧ m.strapped = false ∧ s.sec.lockNext = false ∧ s.field 0x2002 0 2 = 0 ∧
     (mstr = true → boot ≠ 3) ∧ s.word 0x4809 = 0 ∧ s.word 0x4C09 = 0 ∧ Memory.wf s = true) ∧
    (let s : State := (put [(0x0018, 0x7F)] { base with modes := { base.modes with railHold := true, railsInAt := 998000000, held := true } })
     let m := s.modes
     coreRailsGood s = true ∧ m.railsInAt + 2000000 ≤ s.clock ∧ (m.porEnded = false ∨ m.railHold = true ∧ m.holdHot = false) ∧
     (m.porEnded = false ∨ m.railHold = true ∨ m.strapped = true)) ∧
    (let r : Rail := .vdrvE
     railDie r ≠ none) ∧
    (let s : State := { base with modes := { base.modes with railHold := true, railsInAt := 998000001, held := true } }
     s.polder.vpol = true ∧ coreUnpowered s = true) := by
  refine ⟨?_, ?_, ?_, ?_⟩
  · intros; decide +kernel +zetaReduce
  · intros; decide +kernel +zetaReduce
  · intros; decide +kernel +zetaReduce
  · intros; decide +kernel +zetaReduce

/-- The hypotheses of the statement EdgeDies are met. -/
theorem witness_EdgeDies :
    (let die : Die := .west; let s : State := (put [(0x0008, 1), (0x4801, 0)] base)
     let d := dieIx die
     swf resetWord s.words = true ∧ dieUp d s = true ∧ s.dies[d].lost = false ∧ noStart s = true ∧ s.modes.mode = .run ∧ s.modes.held = false ∧
     s.modes.mode ≠ .dormant ∧ s.dies[d].safe = false) ∧
    (let die : Die := .west; let s : State := (md .boot (put [(0x0018, 0x7FF)] base))
     let d := dieIx die
     swf resetWord s.words = true ∧ s.modes.mode = .boot ∧ s.modes.held = false ∧ s.dies[d].lost = false ∧ s.dies[d].safe = false ∧
     s.field 0x0018 (7 + 2 * d.val) 2 = 3) ∧
    (let die : Die := .east; let s : State := (md .boot (put [(0x0018, 0x5FF)] base))
     let d := dieIx die
     swf resetWord s.words = true ∧ s.modes.mode = .boot ∧ s.modes.held = false ∧ s.dies[d].lost = false ∧ s.dies[d].safe = false ∧
     s.field 0x0018 (7 + 2 * d.val) 2 ≠ 3) ∧
    (let die : Die := .east; let s : State := { base with dies := modAt base.dies 1 fun d => { d with safe := true, safeAt := 990000000 } }
     let d := dieIx die
     swf resetWord s.words = true ∧ s.dies[d].safe = true ∧ s.dies[d].ledsOff = false ∧ s.dies[d].safeAt + 10000000 ≤ s.clock) := by
  refine ⟨?_, ?_, ?_, ?_⟩
  · intros; decide +kernel +zetaReduce
  · intros; decide +kernel +zetaReduce
  · intros; decide +kernel +zetaReduce
  · intros; decide +kernel +zetaReduce

/-- The hypotheses of the statement StandbyAndWake are met. -/
theorem witness_StandbyAndWake :
    (let s : State := (put [(0x0015, 7), (0x0017, 1000)] (md .standby { base with polder := { base.polder with wake := true } }))
     Memory.wf s = true ∧ s.faults.count < 2 ^ 32 ∧ s.modes.entering = none ∧ s.modes.mode = .standby ∧ s.flag 0x0015 0 = true ∧
     s.flag 0x0015 2 = true ∧ s.word 0x0017 ≠ 0 ∧ s.modes.standbyAt + (s.word 0x0017).toNat * 1000000 ≤ s.clock ∧ s.flag 0x0015 1 = true ∧
     s.polder.wake = true) ∧
    (let s : State := (put [(0x1411, 16), (0x1811, 32)] { base with modes := { base.modes with entering := some .hold }, tacks := [⟨3, 0, 0, 0, 0, 5, 5, 6, none, 0, false⟩, ⟨4, 0, 0, 0, 0, 5, 5, 6, none, 0, false⟩] })
     let rests : Prop := chanRests 0 s = true ∧ chanRests 1 s = true
     Memory.wf s = true ∧ s.faults.count < 2 ^ 32 ∧ s.modes.entering.isSome ∧ rests ∧ noStart s = true ∧ s.flag 0x0015 0 = true) ∧
    (let s : State := (put [(0x0015, 6), (0x0017, 1001)] (md .standby base))
     Memory.wf s = true ∧ s.faults.count < 2 ^ 32 ∧ s.flag 0x0015 0 = false ∧ s.modes.standbyAt + (s.word 0x0017).toNat * 1000000 > s.clock) ∧
    (let s : State := (put [(0x1411, 8), (0x1811, 24), (0x0015, 1)] { base with modes := { base.modes with entering := some .hold } })
     let rests : Prop := chanRests 0 s = true ∧ chanRests 1 s = true
     Memory.wf s = true ∧ s.faults.count < 2 ^ 32 ∧ s.flag 0x0015 0 = true ∧ s.modes.entering.isSome ∧ ¬rests) := by
  refine ⟨?_, ?_, ?_, ?_⟩
  · intros; decide +kernel +zetaReduce
  · intros; decide +kernel +zetaReduce
  · intros; decide +kernel +zetaReduce
  · intros; decide +kernel +zetaReduce

/-- The hypotheses of the statement ThermalSupervision are met. -/
theorem witness_ThermalSupervision :
    (let c : CoreId := 0; let core : BitVec 16 := (hot 1099); let temp : BitVec 16 := (hot 1350); let s : State := base
     let m := s.modes
     let powered : Prop := m.mode ≠ .dormant ∧ m.mode ≠ .standby
     let shut : Prop := 1250 ≤ core.toInt ∧ m.held = false ∧ m.porEnded = true
     swf resetWord s.words = true ∧ powered ∧ ¬shut ∧ coresPowered s = true ∧ 1350 ≤ temp.toInt ∧
     (m.mode = .run ∨ m.mode = .hold ∨ m.mode = .quiet ∨ m.mode = .degraded ∨ m.mode = .stop ∨ m.mode = .maintenance) ∧ noStart s = true ∧
     Writes c 0x0023 s) ∧
    (let core : BitVec 16 := (hot 1250); let temp : BitVec 16 := (hot 1349); let s : State := base
     let m := s.modes
     let powered : Prop := m.mode ≠ .dormant ∧ m.mode ≠ .standby
     let shut : Prop := 1250 ≤ core.toInt ∧ m.held = false ∧ m.porEnded = true
     swf resetWord s.words = true ∧ powered ∧ shut ∧ (coresPowered s = false ∨ temp.toInt < 1350)) ∧
    (let temp : BitVec 16 := (hot 1350); let s : State := (md .boot { base with modes := { base.modes with porEnded := true } })
     let m := s.modes
     swf resetWord s.words = true ∧ coresPowered s = true ∧ 1350 ≤ temp.toInt ∧ (m.mode = .boot ∨ m.mode = .admission) ∧ noStart s = true) ∧
    (let s : State := (md .standby base)
     let m := s.modes
     let powered : Prop := m.mode ≠ .dormant ∧ m.mode ≠ .standby
     swf resetWord s.words = true ∧ ¬powered) ∧
    (let temp : BitVec 16 := (hot 1350); let s : State := (md .update base)
     let m := s.modes
     swf resetWord s.words = true ∧ coresPowered s = true ∧ 1350 ≤ temp.toInt ∧ (m.mode = .trip ∨ m.mode = .update)) := by
  refine ⟨?_, ?_, ?_, ?_, ?_⟩
  · intros; simp only [Writes]; decide +kernel +zetaReduce
  · intros; decide +kernel +zetaReduce
  · intros; decide +kernel +zetaReduce
  · intros; decide +kernel +zetaReduce
  · intros; decide +kernel +zetaReduce

end Sys2Proof.Tests.C

namespace Sys2Proof.Tests.D

def halt0 (s : State) : State := s.updCore 0 fun k => { k with status := .halted }
def md (m : Mode) (s : State) : State := { s with modes := { s.modes with mode := m } }
def leB (n : Nat) (v : Nat) : Bytes := (List.range n).map fun i => BitVec.ofNat 8 (v / 256 ^ i)
def img : Bytes := leB 4 0x4B494D47 ++ leB 2 1 ++ leB 2 0 ++ leB 4 8 ++ leB 4 1 ++ leB 8 5 ++ leB 2 0x4201 ++ leB 1 3 ++ leB 1 0 ++ leB 4 4 ++ leB 4 77 ++ leB 28 0 ++ [1, 2, 3, 4, 0, 6, 7, 8]
def dg (ty : Byte) (p : Bytes) : Datagram := ⟨false, (resetWord 0x6008).setWidth 16, 0x4B4E, 1, ty, 0x12, 0, 70, BitVec.ofNat 16 p.length, 0, p, []⟩
def knp (f : Session → Session) (s : State) : State :=
  { put [(0x1C00, 0x100)] s with sec := { s.sec with sessions := modAt s.sec.sessions 2 fun x => f { x with phase := .opened, id := 0x12, agreed := 0xFFFFF, since := 5, top := 69, got := [69, 7] } } }
def ks : State := knp id base
def sec (f : Sec → Sec) : State := { ks with sec := f ks.sec }
def hello (agreed : Nat) : Datagram := { dg 1 (beBytes 8 agreed ++ List.replicate 16 7) with session := 0 }
def allOpen (s : State) : State := { s with sec := { s.sec with sessions := s.sec.sessions.map fun x => { x with phase := .opened } } }
def life (l : LifeCycle) (s : State) : State := { s with fuses := { s.fuses with life := l } }
def tr (target n : Nat) (ch : List (Nat × Bytes)) : Transfer := ⟨2, target, n, ch⟩
def stg : Staged := ⟨2, img, 7, none⟩
def full (s : State) : State := { s with cores := modAt s.cores 3 fun k => { k with farReplies := List.replicate 1472 ⟨⟨3, false, false, 6, 8, []⟩, .ok, []⟩ } }

/-- The hypotheses of the statement Sessions are met. -/
theorem witness_Sessions :
    (let d : Datagram := (dg 4 []); let k : Fin 8 := 2; let s : State := { ks with tokens := [(5, 10), (6, 3)] }
     let x := s.sec.sessions[k]
     Arrives d k s ∧ Whole d ∧ d.type = 4 ∧ s.clock < x.since + 1000000000) ∧
    (let d : Datagram := (dg 3 []); let k : Fin 8 := 2; let s : State := { knp (fun x => { x with phase := .offered, since := 0, agreed := 5 }) base with tokens := [(5, 10), (6, 3)], clock := 2000000000 }
     let x := s.sec.sessions[k]
     Arrives d k s ∧ Whole d ∧ d.type = 3 ∧ x.phase = .offered ∧ x.since + 2000000000 ≤ s.clock) ∧
    (let d : Datagram := (hello 0xF); let k : Fin 8 := 0; let s : State := ks
     let x := s.sec.sessions[k]
     d.type = 1 ∧ knpReceives d s = true ∧ wellFormed d = true ∧ d.payload.length = 24 ∧ Whole d ∧ (fromBe (d.payload.take 8)) % 2 = 1 ∧
     x.phase = .closed ∧ (∀ j : Fin 8, j < k → (s.sec.sessions[j]).phase ≠ .closed)) ∧
    (let d : Datagram := (hello 0xF); let s : State := (knp id (allOpen ks))
     d.type = 1 ∧ knpReceives d s = true ∧ wellFormed d = true ∧ d.payload.length = 24 ∧ Whole d ∧ (fromBe (d.payload.take 8)) % 2 = 1 ∧
     (∀ j : Fin 8, (s.sec.sessions[j]).phase ≠ .closed)) ∧
    (let d : Datagram := (hello 0xE); let s : State := ks
     d.type = 1 ∧ knpReceives d s = true ∧ wellFormed d = true ∧ d.payload.length = 24 ∧ Whole d ∧ (fromBe (d.payload.take 8)) % 2 = 0) ∧
    (let k : Fin 8 := 2; let s : State := { knp (fun x => { x with since := 0 }) base with tokens := [(5, 10), (6, 3)], clock := 99999000000 }
     let x := s.sec.sessions[k]
     x.phase = .opened ∧ x.since + max 1000 (s.field 0x6009 0 16) * 1000000 ≤ s.clock) := by
  refine ⟨?_, ?_, ?_, ?_, ?_, ?_⟩
  · intros; simp only [Arrives, Whole]; decide +kernel +zetaReduce
  · intros; simp only [Arrives, Whole]; decide +kernel +zetaReduce
  · intros; simp only [Whole]; decide +kernel +zetaReduce
  · intros; simp only [Whole]; decide +kernel +zetaReduce
  · intros; simp only [Whole]; decide +kernel +zetaReduce
  · intros; decide +kernel +zetaReduce

/-- The hypotheses of the statement DatagramChecks are met. -/
theorem witness_DatagramChecks :
    (let d : Datagram := (dg 0x11 [1]); let s : State := (put [(0x1C00, 0)] ks)
     (knpListens d.port s = false ∨ d.dport.toNat ≠ s.field 0x6008 0 16)) ∧
    (let d : Datagram := (dg 0x11 [1]); let k : Fin 8 := 2; let s : State := (knp (fun x => { x with held := List.replicate 64 (1, []) }) base)
     knpReceives d s = true ∧ wellFormed d = true ∧ d.type ≠ 1 ∧ findSession d.session s = some k ∧ tagPasses k d s = true ∧
     seqFresh s.sec.sessions[k] d.seq = true ∧ 64 ≤ (s.sec.sessions[k].held.map (·.1)).sum) ∧
    (let d : Datagram := { dg 0x11 [1] with magic := 4 }; let s : State := ks
     knpReceives d s = true ∧ wellFormed d = false) ∧
    (let d : Datagram := { dg 0x11 [1] with session := 4 }; let s : State := ks
     knpReceives d s = true ∧ wellFormed d = true ∧ d.type ≠ 1 ∧ findSession d.session s = none) ∧
    (let d : Datagram := (dg 0x11 [1]); let k : Fin 8 := 2; let s : State := (life .sealed ks)
     knpReceives d s = true ∧ wellFormed d = true ∧ d.type ≠ 1 ∧ findSession d.session s = some k ∧ tagPasses k d s = false) ∧
    (let d : Datagram := { dg 0x11 [1] with seq := 69 }; let k : Fin 8 := 2; let s : State := ks
     knpReceives d s = true ∧ wellFormed d = true ∧ d.type ≠ 1 ∧ findSession d.session s = some k ∧ tagPasses k d s = true ∧
     seqFresh s.sec.sessions[k] d.seq = false) := by
  refine ⟨?_, ?_, ?_, ?_, ?_, ?_⟩
  · intros; decide +kernel +zetaReduce
  · intros; decide +kernel +zetaReduce
  · intros; decide +kernel +zetaReduce
  · intros; decide +kernel +zetaReduce
  · intros; decide +kernel +zetaReduce
  · intros; decide +kernel +zetaReduce

/-- The hypotheses of the statement ProgramMessages are met. -/
theorem witness_ProgramMessages :
    (let d : Datagram := (dg 0x11 [1]); let k : Fin 8 := 2; let r : Reassembly := ⟨9, 0x11, 0, [(0, [1])], none⟩; let s : State := (knp (fun x => { x with parts := [⟨9, 0x11, 0, [(0, [1])], none⟩], agreed := -1 }) base)
     let x := s.sec.sessions[k]
     let agreed : Prop := BitVec.ofNat 64 (Config.messageNeeds d.type.toNat (d.payload.map (·.toNat))) &&& ~~~x.agreed = 0
     (Arrives d k s ∧ Whole d ∧ d.type = 0x11 ∧ x.held = [] ∧ s.queue (232 + k.val) = [] ∧ d.payload.length ≤ 252 ∧ x.parts = [r] ∧
     r.since + 1000000000 ≤ s.clock) ∧ agreed) ∧
    (let d : Datagram := (dg 0x10 (beBytes 4 0x20001005 ++ beBytes 4 77)); let k : Fin 8 := 2; let h : Word := 0x20001005; let v : Word := 77; let s : State := (knp (fun x => { x with agreed := -1 }) base)
     let x := s.sec.sessions[k]
     let agreed : Prop := BitVec.ofNat 64 (Config.messageNeeds d.type.toNat (d.payload.map (·.toNat))) &&& ~~~x.agreed = 0
     let o : Order := ⟨bits h 28 4, 8 + k.val, none, h.setWidth 16, v, [], s.clock, s.deviceTime.toNat / 125000, x.id.toNat, 1⟩
     (Arrives d k s ∧ Whole d ∧ d.type = 0x10 ∧ inflight s < 1472 ∧ d.payload = beBytes 4 h.toNat ++ beBytes 4 v.toNat ∧ bits h 16 7 = 0 ∧
     objectFits o.obj = true ∧ 0 < o.kind ∧ o.kind < 4 ∧ (o.kind = 2 ∨ v = 0) ∧ s.agreed.getLsbD 2 = true) ∧ agreed) ∧
    (let d : Datagram := (dg 0x14 [1]); let k : Fin 8 := 2; let n : Fin 2 := 1; let s : State := (put [(0x2820, 0x80000001)] (knp (fun x => { x with agreed := -1 }) base))
     let x := s.sec.sessions[k]
     let agreed : Prop := BitVec.ofNat 64 (Config.messageNeeds d.type.toNat (d.payload.map (·.toNat))) &&& ~~~x.agreed = 0
     (Arrives d k s ∧ Whole d ∧ d.type = 0x14 ∧ inflight s < 1472 ∧ d.payload = [BitVec.ofNat 8 n.val] ∧ panelOn n s = true ∧
     s.blockOut 13 = false ∧ slotSrc n s = n.val ∧ (s.panel.slots[n]).asleep = false) ∧ agreed) ∧
    (let d : Datagram := { dg 0x11 [1, 2, 3, 4, 5] with flags := 2 }; let k : Fin 8 := 2; let s : State := ks
     let x := s.sec.sessions[k]
     Arrives d k s ∧ d.type = 0x11 ∧ d.frag = 0 ∧ moreParts d = true ∧ x.parts = [] ∧ x.gone = []) ∧
    (let k : Fin 8 := 2; let r : Reassembly := ⟨9, 0x11, 1, [(0, [1])], none⟩; let s : State := (knp (fun x => { x with parts := [⟨9, 0x11, 1, [(0, [1])], none⟩] }) base)
     let x := s.sec.sessions[k]
     x.parts = [r] ∧ s.clock < r.since + 1000000000) ∧
    (let k : Fin 8 := 2; let c : CoreId := 0; let h : Word := 0x12200000; let s : State := (ks.setQueue 249 [⟨0, 0x12200000⟩])
     let x := s.sec.sessions[k]
     s.queue 249 = [⟨c.val, h⟩] ∧ s.sec.asm[c] = [] ∧ bits h 0 20 = 0 ∧ bits h 20 4 = k.val ∧ x.phase = .opened ∧ bits h 24 8 = 0x12) ∧
    (let k : Fin 8 := 2; let c : CoreId := 0; let h : Word := 0x13200000; let s : State := (ks.setQueue 249 [⟨0, 0x13200000⟩])
     let x := s.sec.sessions[k]
     s.queue 249 = [⟨c.val, h⟩] ∧ s.sec.asm[c] = [] ∧ bits h 0 20 = 0 ∧ bits h 20 4 = k.val ∧ x.phase = .opened ∧ bits h 24 8 = 0x13) ∧
    (let d : Datagram := (dg 0x10 (beBytes 4 0x20001005 ++ beBytes 4 77)); let k : Fin 8 := 2; let s : State := (full (knp (fun x => { x with agreed := -1 }) base))
     let x := s.sec.sessions[k]
     let agreed : Prop := BitVec.ofNat 64 (Config.messageNeeds d.type.toNat (d.payload.map (·.toNat))) &&& ~~~x.agreed = 0
     (Arrives d k s ∧ Whole d ∧ (d.type = 0x10 ∨ d.type = 0x14) ∧ 1472 ≤ inflight s) ∧ agreed) := by
  refine ⟨?_, ?_, ?_, ?_, ?_, ?_, ?_, ?_⟩
  · intros; exact ⟨by simp only [Arrives, Whole]; decide +kernel +zetaReduce, and_not_ones _ _ (by decide +kernel +zetaReduce)⟩
  · intros; exact ⟨by simp only [Arrives, Whole]; decide +kernel +zetaReduce, and_not_ones _ _ (by decide +kernel +zetaReduce)⟩
  · intros; exact ⟨by simp only [Arrives, Whole]; decide +kernel +zetaReduce, and_not_ones _ _ (by decide +kernel +zetaReduce)⟩
  · intros; simp only [Arrives]; decide +kernel +zetaReduce
  · intros; decide +kernel +zetaReduce
  · intros; decide +kernel +zetaReduce
  · intros; decide +kernel +zetaReduce
  · intros; exact ⟨by simp only [Arrives, Whole]; decide +kernel +zetaReduce, and_not_ones _ _ (by decide +kernel +zetaReduce)⟩

/-- The hypotheses of the statement ImageTransfers are met. -/
theorem witness_ImageTransfers :
    (let k : Fin 8 := 2; let img : Bytes := img; let s : State := (sec fun x => { x with writing := some (2, img, false) })
     s.clockLost.getLsbD 23 = false ∧ s.sec.writing = some (k, img, false) ∧ (s.sec.sessions[k]).phase = .opened) ∧
    (let d : Datagram := (dg 0x20 (beBytes 4 2097280 ++ [0])); let k : Fin 8 := 2; let s : State := ks
     Arrives d k s ∧ Whole d ∧ d.type = 0x20 ∧ s.sec.transfer = none ∧ s.sec.writing = none ∧ d.payload.length = 5 ∧
     fromBe (d.payload.drop 4) = 0 ∧ fromBe (d.payload.take 4) ≤ 2097280) ∧
    (let d : Datagram := (dg 0x20 (beBytes 4 80 ++ [0])); let k : Fin 8 := 2; let tr : Transfer := (D.tr 0 9 []); let s : State := (sec fun x => { x with transfer := some (D.tr 0 9 []) })
     Arrives d k s ∧ Whole d ∧ d.type = 0x20 ∧ s.sec.transfer = some tr) ∧
    (let d : Datagram := (dg 0x21 (beBytes 4 8 ++ [6])); let k : Fin 8 := 2; let tr : Transfer := (D.tr 0 9 []); let s : State := (sec fun x => { x with transfer := some (D.tr 0 9 []) })
     Arrives d k s ∧ Whole d ∧ s.sec.transfer = some tr ∧ tr.slot = k ∧ d.type = 0x21 ∧ 4 < d.payload.length ∧
     fromBe (d.payload.take 4) + (d.payload.length - 4) ≤ tr.length ∧ tr.target = 0) ∧
    (let d : Datagram := (dg 0x22 []); let k : Fin 8 := 2; let tr : Transfer := (D.tr 0 9 [(0, [1, 2])]); let s : State := (sec fun x => { x with transfer := some (D.tr 0 9 [(0, [1, 2])]) })
     Arrives d k s ∧ Whole d ∧ s.sec.transfer = some tr ∧ tr.slot = k ∧ d.type = 0x22 ∧ received tr < tr.length) ∧
    (let d : Datagram := (dg 0x22 []); let k : Fin 8 := 2; let tr : Transfer := (D.tr 1 72 [(10, img.drop 10), (0, img.take 10)]); let s : State := (sec fun x => { x with transfer := some (D.tr 1 72 [(10, img.drop 10), (0, img.take 10)]) })
     Arrives d k s ∧ Whole d ∧ s.sec.transfer = some tr ∧ tr.slot = k ∧ d.type = 0x22 ∧ tr.length ≤ received tr ∧
     rejectCode (chunkBytes tr.chunks tr.length) s = 0 ∧ imgFeatures (chunkBytes tr.chunks tr.length) &&& ~~~(s.sec.sessions[k]).agreed = 0 ∧
     tr.target = 1) ∧
    (let d : Datagram := (dg 0x22 []); let k : Fin 8 := 2; let tr : Transfer := (D.tr 0 72 [(10, img.drop 10), (0, img.take 10)]); let s : State := (put [(0x0014, 2)] (md .boot (sec fun x => { x with transfer := some (D.tr 0 72 [(10, img.drop 10), (0, img.take 10)]) })))
     Arrives d k s ∧ Whole d ∧ s.sec.transfer = some tr ∧ tr.slot = k ∧ d.type = 0x22 ∧ tr.length ≤ received tr ∧
     rejectCode (chunkBytes tr.chunks tr.length) s = 0 ∧ imgFeatures (chunkBytes tr.chunks tr.length) &&& ~~~(s.sec.sessions[k]).agreed = 0 ∧
     tr.target = 0 ∧ s.modes.mode = .boot) ∧
    (let d : Datagram := (dg 0x21 (beBytes 4 8 ++ [6])); let k : Fin 8 := 2; let tr : Transfer := (D.tr 1 9 []); let s : State := (sec fun x => { x with transfer := some (D.tr 1 9 []) })
     Arrives d k s ∧ Whole d ∧ s.sec.transfer = some tr ∧ tr.slot = k ∧ d.type = 0x21 ∧ 4 < d.payload.length ∧
     fromBe (d.payload.take 4) + (d.payload.length - 4) ≤ tr.length ∧ tr.target = 1) ∧
    (let d : Datagram := (dg 0x24 []); let k : Fin 8 := 2; let st : Staged := stg; let s : State := (md .hold (sec fun x => { x with staged := some stg }))
     Arrives d k s ∧ Whole d ∧ d.type = 0x24 ∧ s.sec.staged = some st ∧ st.slot = k ∧ s.modes.mode = .hold) ∧
    (let d : Datagram := (dg 0x24 []); let k : Fin 8 := 2; let st : Staged := stg; let s : State := (sec fun x => { x with staged := some stg })
     Arrives d k s ∧ Whole d ∧ d.type = 0x24 ∧ s.sec.staged = some st ∧ st.slot = k ∧ s.modes.mode = .run ∧ st.until_ = none) ∧
    (let st : Staged := stg; let s : State := (sec fun x => { x with staged := some { stg with until_ := some 1000000000 } })
     let e : Nat := ((s.sec.staged.bind fun x => x.until_).getD 0)
     s.sec.staged = some { st with until_ := some e } ∧ e ≤ s.clock) ∧
    (let st : Staged := stg; let s : State := (sec fun x => { x with staged := some { stg with until_ := some 1000000001 } })
     let e : Nat := ((s.sec.staged.bind fun x => x.until_).getD 0)
     s.sec.staged = some { st with until_ := some e } ∧ s.clock < e) ∧
    (let k : Fin 8 := 2; let img : Bytes := img; let s : State := (sec fun x => { x with writing := some (2, img, true) })
     s.clockLost.getLsbD 23 = false ∧ s.sec.writing = some (k, img, true)) ∧
    (let img : Bytes := img; let set : DWord := 7; let s : State := (md .update (sec fun x => { x with update := some (img, 7) }))
     s.modes.mode = .update ∧ s.sec.update = some (img, set) ∧ swf resetWord s.words = true ∧ dramServes s = false) ∧
    (let img : Bytes := img; let set : DWord := 7; let s : State := (setChanState 0 1 (md .update (sec fun x => { x with update := some (img, 7) })))
     s.modes.mode = .update ∧ s.sec.update = some (img, set) ∧ swf resetWord s.words = true ∧ dramServes s = true) := by
  refine ⟨?_, ?_, ?_, ?_, ?_, ?_, ?_, ?_, ?_, ?_, ?_, ?_, ?_, ?_, ?_⟩
  · intros; decide +kernel +zetaReduce
  · intros; simp only [Arrives, Whole]; decide +kernel +zetaReduce
  · intros; simp only [Arrives, Whole]; decide +kernel +zetaReduce
  · intros; simp only [Arrives, Whole]; decide +kernel +zetaReduce
  · intros; simp only [Arrives, Whole]; decide +kernel +zetaReduce
  · intros; simp only [Arrives, Whole]; decide +kernel +zetaReduce
  · intros; simp only [Arrives, Whole]; decide +kernel +zetaReduce
  · intros; simp only [Arrives, Whole]; decide +kernel +zetaReduce
  · intros; simp only [Arrives, Whole]; decide +kernel +zetaReduce
  · intros; simp only [Arrives, Whole]; decide +kernel +zetaReduce
  · intros; decide +kernel +zetaReduce
  · intros; decide +kernel +zetaReduce
  · intros; decide +kernel +zetaReduce
  · intros; decide +kernel +zetaReduce
  · intros; decide +kernel +zetaReduce

/-- The hypotheses of the statement Reopening are met. -/
theorem witness_Reopening :
    (let d : Datagram := (dg 0x33 (List.replicate 32 3)); let k : Fin 8 := 2; let s : State := (sec fun x => { x with nonce := some ([1], 5) })
     (Arrives d k s ∧ Whole d ∧ d.type = 0x33 ∧ s.sec.lockEnd ≤ s.clock) ∧ (∃ t, exec (.reopenResponse d) s = .next t)) ∧
    (let d : Datagram := (dg 0x30 (List.replicate 16 3)); let k : Fin 8 := 2; let s : State := (sec fun x => { x with fails := 3 })
     Arrives d k s ∧ Whole d ∧ d.type = 0x30 ∧ d.payload.length = 16 ∧ s.sec.lockEnd ≤ s.clock) ∧
    (let d : Datagram := (dg 0x30 (List.replicate 16 3)); let k : Fin 8 := 2; let s : State := (sec fun x => { x with fails := 3, lockEnd := 1000000001 })
     Arrives d k s ∧ Whole d ∧ d.type = 0x30 ∧ d.payload.length = 16 ∧ s.clock < s.sec.lockEnd) ∧
    (let d : Datagram := (dg 0x31 []); let k : Fin 8 := 2; let s : State := ks
     Arrives d k s ∧ Whole d ∧ d.type = 0x31) ∧
    (let d : Datagram := (dg 0x33 (List.replicate 32 3)); let k : Fin 8 := 2; let s : State := (sec fun x => { x with nonce := some ([1], 5), lockEnd := 1000000001 })
     Arrives d k s ∧ Whole d ∧ d.type = 0x33 ∧ s.clock < s.sec.lockEnd) ∧
    (let d : Datagram := (dg 0x35 []); let k : Fin 8 := 2; let s : State := (md .maintenance (life .opened ks))
     Arrives d k s ∧ Whole d ∧ d.type = 0x35 ∧ s.fuses.life = .opened ∧ (∀ j : Fin 8, (s.sec.sessions[j]).agreed.toNat < 2 ^ 48) ∧
     s.modes.mode = .maintenance) ∧
    (let d : Datagram := (dg 0x35 []); let k : Fin 8 := 2; let s : State := (life .opened ks)
     Arrives d k s ∧ Whole d ∧ d.type = 0x35 ∧ s.fuses.life = .opened ∧ (∀ j : Fin 8, (s.sec.sessions[j]).agreed.toNat < 2 ^ 48) ∧
     s.modes.mode ≠ .maintenance) := by
  refine ⟨?_, ?_, ?_, ?_, ?_, ?_, ?_⟩
  · intros; exact ⟨by simp only [Arrives, Whole]; decide +kernel +zetaReduce, _, rfl⟩
  · intros; simp only [Arrives, Whole]; decide +kernel +zetaReduce
  · intros; simp only [Arrives, Whole]; decide +kernel +zetaReduce
  · intros; simp only [Arrives, Whole]; decide +kernel +zetaReduce
  · intros; simp only [Arrives, Whole]; decide +kernel +zetaReduce
  · intros; simp only [Arrives, Whole]; decide +kernel +zetaReduce
  · intros; simp only [Arrives, Whole]; decide +kernel +zetaReduce

/-- The hypotheses of the statement ReopeningTimers are met. -/
theorem witness_ReopeningTimers :
    (let n : Bytes := [1]; let at_ : Nat := 0; let s : State := { (sec fun x => { x with nonce := some ([1], 0) }) with clock := 30000000000 }
     s.sec.nonce = some (n, at_) ∧ at_ + 30000000000 ≤ s.clock ∧ s.sec.lockEnd ≤ s.clock) ∧
    (let n : Bytes := [1]; let at_ : Nat := 1; let s : State := { (sec fun x => { x with nonce := some ([1], 1), lockEnd := 30000000001 }) with clock := 30000000000 }
     s.sec.nonce = some (n, at_) ∧ s.clock < at_ + 30000000000 ∧ s.clock < s.sec.lockEnd) := by
  refine ⟨?_, ?_⟩
  · intros; decide +kernel +zetaReduce
  · intros; decide +kernel +zetaReduce

/-- The hypotheses of the statement JtagPort are met. -/
theorem witness_JtagPort :
    (let c : CoreId := 0; let a : BitVec 22 := 7; let pub : Bytes := (List.replicate 64 1); let secret : Bytes := (List.replicate 32 2); let s : State := base
     jtagOpen s = true ∧ noStart s = true ∧ (s.core c).status = .running ∧ (s.core c).csRun = [] ∧ s.owns c a.toNat = true ∧
     s.parityError a.toNat 1 = none ∧ s.fuses.life = .blank ∧ pub.length = 64 ∧ secret.length = 32) ∧
    (let s : State := (life .sealed base)
     jtagOpen s = false ∧ s.fuses.life ≠ .blank) ∧
    (let c : CoreId := 0; let s : State := (halt0 base)
     jtagOpen s = true ∧ (s.core c).status = .halted) := by
  refine ⟨?_, ?_, ?_⟩
  · intros; decide +kernel +zetaReduce
  · intros; decide +kernel +zetaReduce
  · intros; decide +kernel +zetaReduce

end Sys2Proof.Tests.D

namespace Sys2Proof.Tests.E

def md (m : Mode) (s : State) : State := { s with modes := { s.modes with mode := m } }
def halt0 (s : State) : State := s.updCore 0 fun k => { k with status := .halted }
def lnk : State := put [(0x1C00, 0x101), (0x1C01, 3), (0x1C02, 0x1F)] base
def net (f : Net → Net) (s : State) : State := { s with net := f s.net }
def fr : EthFrame := ⟨9, 7, none, .knp, 1522, true, 0⟩
def one_ : State := put [(0x1D0A, 0x80010007), (0x1D0B, 0x02000101)] base
def mkE (univ dest : Nat) : State := put [(0x1D0A, BitVec.ofNat 32 (2 ^ 31 + 2 ^ 29 + univ)), (0x1D0B, BitVec.ofNat 32 dest)] base
def qs (x : Qbv) : State := net (fun n => { n with qbv := modAt n.qbv 1 fun _ => x }) base
def pk (sync : BitVec 16) : E131Packet := ⟨7, 3, 100, sync, [200]⟩
def univ : Universe := { univ := 7 }
def tm (f : TimeServo → TimeServo) (s : State) : State := { s with time := f s.time }
def tstate (n : Nat) (s : State) : State := s.setField 0x2002 0 2 n
def pv (a b : Bool) : VideoPacket := ⟨0, .v4 0xE0000105, .v4 9, 5004, 5, 90000, a, b, true, false, [(0, 0, [1, 2, 3])]⟩
def str1 : List (Nat × Word) := [(0x1C26, 0xE0000105), (0x1C28, 5004), (0x1C29, 0x00400040), (0x1C2B, 1), (0x1C02, 1)]

/-- The hypotheses of the statement EthernetSwitch are met. -/
theorem witness_EthernetSwitch :
    (let c : CoreId := 0; let port : Fin 3 := 0; let n : Fin 2 := 0; let f : EthFrame := { fr with fcsOk := false }; let entry : Fin 16 := 0; let val : Word := 2; let s : State := lnk
     let a := 0x1C40 + 16 * n.val + entry.val
     let written := writtenList n (s.setWord a val)
     s.blockOut 10 = false ∧ portLive port s = true ∧ f.fcsOk = false ∧ s.clockLost = 0 ∧ portMode n s = 1 ∧ portLink n s = true ∧
     Memory.wf s = true ∧ s.time.slave ≠ some n ∧ Writes c (0x1C00 + n.val) s ∧ sealedNow s = false ∧ bits val 0 2 ≠ portMode n s ∧
     Writes c (0x1C40 + 16 * n.val + entry.val) s ∧ s.word (0x1C40 + 16 * n.val + entry.val) = 0 ∧ listFits written = false) ∧
    (let c : CoreId := 0; let port : Fin 3 := 2; let p : Fin 3 := 1; let n : Fin 2 := 1; let f : EthFrame := fr; let entry : Fin 16 := 15; let val : Word := 0xFF01E848; let t0 : Nat := 0; let s : State := (net (fun n => { n with macs := [⟨9, 1, 0⟩, ⟨5, 1, 0⟩] }) base)
     let a := 0x1C40 + 16 * n.val + entry.val
     let written := writtenList n (s.setWord a val)
     s.blockOut 10 = false ∧ portLive port s = true ∧ f.fcsOk = true ∧ s.net.macs.length < 1024 ∧
     s.net.macs.find? (fun e => decide (e.mac = f.dst)) = some ⟨f.dst, p, t0⟩ ∧ f.dst ≠ f.src ∧ f.vlan = none ∧ p ≠ port ∧ f.cls ≠ .stream ∧
     portLive p s = false ∧ Writes c (0x1C00 + n.val) s ∧ sealedNow s = false ∧ portLink n s = false ∧
     Writes c (0x1C40 + 16 * n.val + entry.val) s ∧ s.word (0x1C40 + 16 * n.val + entry.val) = 0 ∧ listFits written = true) ∧
    (let port : Fin 3 := 0; let n : Fin 2 := 1; let s : State := (put [(0x1C01, 3)] base)
     portLive port s = false ∧ s.blockOut 10 = false ∧ s.clockLost = 0 ∧ portMode n s = 3) ∧
    (let port : Fin 3 := 0; let f : EthFrame := { fr with vlan := some (70, 0) }; let s : State := (net (fun n => { n with vlans := (List.range 64).map fun i => (i, 7) }) lnk)
     let v := (f.vlan.getD (0, 0)).1
     let pcp := (f.vlan.getD (0, 0)).2
     s.blockOut 10 = false ∧ portLive port s = true ∧ f.vlan = some (v, pcp) ∧ f.fcsOk = true ∧ s.net.macs.length < 1024 ∧
     s.net.vlans.lookup v.toNat = none ∧ 64 ≤ s.net.vlans.length) ∧
    (let port : Fin 3 := 0; let p : Fin 3 := 2; let f : EthFrame := fr; let t0 : Nat := 0; let s : State := (net (fun n => { n with macs := [⟨9, 2, 0⟩] }) lnk)
     let q := frameQueue port f s
     s.blockOut 10 = false ∧ portLive port s = true ∧ f.fcsOk = true ∧ s.net.macs.length < 1024 ∧
     s.net.macs.find? (fun e => decide (e.mac = f.dst)) = some ⟨f.dst, p, t0⟩ ∧ f.dst ≠ f.src ∧ f.vlan = none ∧ p ≠ port ∧ f.cls ≠ .stream ∧
     portLive p s = true ∧ (s.net.egress[p]).frames = [] ∧ (s.net.egress[p]).sending = none ∧ f.len ≤ 1522 ∧ p = 2 ∧ q ≠ 7) ∧
    (let port : Fin 3 := 0; let p : Fin 3 := 1; let f : EthFrame := fr; let t0 : Nat := 0; let s : State := (net (fun n => { n with macs := [⟨9, 1, 0⟩, ⟨5, 1, 0⟩] }) lnk)
     let q := frameQueue port f s
     s.blockOut 10 = false ∧ portLive port s = true ∧ f.fcsOk = true ∧ s.net.macs.length < 1024 ∧
     s.net.macs.find? (fun e => decide (e.mac = f.dst)) = some ⟨f.dst, p, t0⟩ ∧ f.dst ≠ f.src ∧ f.vlan = none ∧ p ≠ port ∧ f.cls ≠ .stream ∧
     portLive p s = true ∧ (s.net.egress[p]).frames = [] ∧ (s.net.egress[p]).sending = none ∧ f.len ≤ 1522 ∧ cutsThrough port f q p s = true) ∧
    (let n : Fin 2 := 1; let l : List (Nat × Nat) := [(3, 2000)]; let t0 : Nat := 999999000; let s : State := (qs { active := [(1, 1000)], next := some ([(3, 2000)], 999999000), start := 999999000 })
     let cycle := listCycle (s.net.qbv[n]).active
     let start := s.deviceTime.toNat / cycle * cycle
     (s.net.qbv[n]).active ≠ [] ∧ 0 < listCycle (s.net.qbv[n]).active ∧ (s.net.qbv[n]).next = some (l, t0) ∧ (s.net.qbv[n]).start < start ∧
     t0 + cycle ≤ start) ∧
    (let n : Fin 2 := 1; let l : List (Nat × Nat) := [(3, 2000)]; let t0 : Nat := 999999001; let s : State := (qs { active := [(1, 1000)], next := some ([(3, 2000)], 999999001), start := 999999000 })
     let cycle := listCycle (s.net.qbv[n]).active
     let start := s.deviceTime.toNat / cycle * cycle
     (s.net.qbv[n]).active ≠ [] ∧ 0 < listCycle (s.net.qbv[n]).active ∧ (s.net.qbv[n]).next = some (l, t0) ∧ (s.net.qbv[n]).start < start ∧
     start < t0 + cycle) ∧
    (let n : Fin 2 := 1; let s : State := (put [(0x1C01, 0)] base)
     s.blockOut 10 = false ∧ s.clockLost = 0 ∧ portMode n s = 0) ∧
    (let port : Fin 3 := 0; let p : Fin 3 := 2; let f : EthFrame := fr; let t0 : Nat := 0; let s : State := (net (fun n => { n with macs := [⟨9, 2, 0⟩] }) (put [(0x1C00, 0xF01)] lnk))
     let q := frameQueue port f s
     s.blockOut 10 = false ∧ portLive port s = true ∧ f.fcsOk = true ∧ s.net.macs.length < 1024 ∧
     s.net.macs.find? (fun e => decide (e.mac = f.dst)) = some ⟨f.dst, p, t0⟩ ∧ f.dst ≠ f.src ∧ f.vlan = none ∧ p ≠ port ∧ f.cls ≠ .stream ∧
     portLive p s = true ∧ (s.net.egress[p]).frames = [] ∧ (s.net.egress[p]).sending = none ∧ f.len ≤ 1522 ∧ cutsThrough port f q p s = false ∧
     (p ≠ 2 ∨ q = 7)) := by
  refine ⟨?_, ?_, ?_, ?_, ?_, ?_, ?_, ?_, ?_, ?_⟩
  · intros; simp only [Writes]; decide +kernel +zetaReduce
  · intros; simp only [Writes]; decide +kernel +zetaReduce
  · intros; decide +kernel +zetaReduce
  · intros; decide +kernel +zetaReduce
  · intros; decide +kernel +zetaReduce
  · intros; decide +kernel +zetaReduce
  · intros; decide +kernel +zetaReduce
  · intros; decide +kernel +zetaReduce
  · intros; decide +kernel +zetaReduce
  · intros; decide +kernel +zetaReduce

/-- The hypotheses of the statement DeviceTime are met. -/
theorem witness_DeviceTime :
    (let c : CoreId := 0; let rd : Reg := 6; let n : Fin 2 := 0; let peer : Bool := false; let s : State := (md .hold (tstate 3 (tm (fun t => { t with syncAt := 999999002, interval := 333 }) (put [(0x2006, 1)] base))))
     Memory.wf s = true ∧ (s.blockOut 10 = true ∨ portLink n s = false ∨ timeByRing s = true ∨ peer ≠ peerDelay n s) ∧
     (timeByRing s = true ∨ s.clock < s.time.syncAt + 3 * s.time.interval) ∧ timeState s = 3 ∧ s.time.expired = false ∧
     s.time.holdAt + s.field 0x2006 0 16 * 1000000000 ≤ s.clock ∧ Writes c 0x2007 s ∧ s.modes.mode = .hold ∧ coreMay s = true ∧
     (s.core c).locked rd = false) ∧
    (let c : CoreId := 0; let n : Fin 2 := 0; let peer : Bool := false; let measured_ : Int := (-5000); let s : State := (tstate 3 (put [(0x1C00, 0x141)] lnk))
     let role := bits (portCfg n s) 5 3
     let offset : Int := measured_ + (s.word (0x1C03 + n.val)).toInt
     Memory.wf s = true ∧ s.blockOut 10 = false ∧ portLink n s = true ∧ (role = 1 ∨ role = 2 ∨ role = 4) ∧ timeByRing s = false ∧
     timeClocked s = true ∧ peer = peerDelay n s ∧ s.tacks = [] ∧ s.orders = [] ∧ s.accepted = [] ∧ offset.natAbs < 2 ^ 31 ∧ timeState s = 3 ∧
     (timeState s ≠ 0 ∨ offset.natAbs ≤ 1000) ∧ Writes c 0x2007 s ∧ s.modes.mode = .run) ∧
    (let n : Fin 2 := 0; let peer : Bool := false; let measured_ : Int := 1001; let s : State := (put [(0x1C00, 0x121)] lnk)
     let role := bits (portCfg n s) 5 3
     let offset : Int := measured_ + (s.word (0x1C03 + n.val)).toInt
     Memory.wf s = true ∧ s.blockOut 10 = false ∧ portLink n s = true ∧ (role = 1 ∨ role = 2 ∨ role = 4) ∧ timeByRing s = false ∧
     timeClocked s = true ∧ peer = peerDelay n s ∧ s.tacks = [] ∧ s.orders = [] ∧ s.accepted = [] ∧ offset.natAbs < 2 ^ 31 ∧ timeState s = 0 ∧
     1000 < offset.natAbs) ∧
    (let s : State := (tstate 1 (put [(0x1C00, 0x181), (0x2004, 0xFFFFFF00)] lnk))
     Memory.wf s = true ∧ timeByRing s = false ∧ s.time.syncAt + 3 * s.time.interval ≤ s.clock ∧ (timeState s = 1 ∨ timeState s = 2)) ∧
    (let s : State := (tm (fun t => { t with syncAt := 999999001, interval := 333, expired := true }) base)
     Memory.wf s = true ∧ s.time.expired = true) := by
  refine ⟨?_, ?_, ?_, ?_, ?_⟩
  · intros; simp only [Writes]; decide +kernel +zetaReduce
  · intros; simp only [Writes]; decide +kernel +zetaReduce
  · intros; decide +kernel +zetaReduce
  · intros; decide +kernel +zetaReduce
  · intros; decide +kernel +zetaReduce

/-- The hypotheses of the statement StageNetworks are met. -/
theorem witness_StageNetworks :
    (let c : CoreId := 0; let pk : E131Packet := (E.pk 9); let u : Universe := univ; let addr : BitVec 16 := 9; let dest : Fin 64 := 5; let v : Byte := 200; let stream : Fin 2 := 0; let pv : VideoPacket := (E.pv false false); let s : State := (net (fun n => { n with universes := [⟨7, [], some (9, [200])⟩], syncs := [(9, 1000000000, false)], discovery := some (5, [7]) }) (mkE 7 0x401005))
     let univ := pk.univ.toNat
     let m : MapEntry := ⟨true, false, true, univ, 1, 1, dest.val⟩
     let only (e : Nat) (m : MapEntry) : Prop := mapEntry e s = m ∧ ∀ k < 128, k ≠ e → (mapEntry k s).valid = false
     let at_ : Nat := (s.net.discovery.map fun x => x.1).getD 0
     let l := (s.net.discovery.map fun x => x.2).getD []
     s.blockOut 10 = false ∧ only 5 m ∧ s.net.universes = [{ u with univ := univ, held := some (addr.toNat, [v]) }] ∧
     s.net.syncs = [(addr.toNat, s.clock, false)] ∧ s.net.discovery = some (at_, l) ∧ s.clock < at_ + 10000000000 ∧
     Writes c (0x1C25 + 6 * stream.val) s ∧ sealedNow s = false ∧ inStream stream pv s = false) ∧
    (let pk : E131Packet := (E.pk 9); let u : Universe := univ; let addr : BitVec 16 := 9; let dest : Fin 64 := 5; let src : E131Source := ⟨1, 100, 0, 0⟩; let s : State := { (net (fun n => { n with universes := [⟨7, [⟨1, 100, 0, 0⟩], none⟩], syncs := [(9, 7, false)] }) (mkE 7 0x401005)) with clock := 2500000007 }
     let at_ : Nat := (s.net.syncs.head?.map fun x => x.2.1).getD 0
     let univ := pk.univ.toNat
     let m : MapEntry := ⟨true, false, true, univ, 1, 1, dest.val⟩
     let only (e : Nat) (m : MapEntry) : Prop := mapEntry e s = m ∧ ∀ k < 128, k ≠ e → (mapEntry k s).valid = false
     s.net.syncs = [(addr.toNat, at_, false)] ∧ at_ + 2500000000 ≤ s.clock ∧ s.blockOut 10 = false ∧ only 5 m ∧
     s.net.universes = [{ u with univ := univ, sources := [src] }] ∧ src.seen + 2500000000 ≤ s.clock ∧ s.net.discovery = none) ∧
    (let pk : E131Packet := (E.pk 0); let dest : Fin 64 := 5; let v : Byte := 200; let s : State := (mkE 7 0x401005)
     let univ := pk.univ.toNat
     let m : MapEntry := ⟨true, false, true, univ, 1, 1, dest.val⟩
     let only (e : Nat) (m : MapEntry) : Prop := mapEntry e s = m ∧ ∀ k < 128, k ≠ e → (mapEntry k s).valid = false
     s.blockOut 10 = false ∧ only 5 m ∧ s.net.universes = [] ∧ s.net.syncs = [] ∧ pk.slots = [v] ∧ pk.sync = 0) ∧
    (let pk : E131Packet := (E.pk 9); let dest : Fin 64 := 5; let v : Byte := 200; let s : State := (mkE 7 0x401005)
     let univ := pk.univ.toNat
     let m : MapEntry := ⟨true, false, true, univ, 1, 1, dest.val⟩
     let only (e : Nat) (m : MapEntry) : Prop := mapEntry e s = m ∧ ∀ k < 128, k ≠ e → (mapEntry k s).valid = false
     s.blockOut 10 = false ∧ only 5 m ∧ s.net.universes = [] ∧ s.net.syncs = [] ∧ pk.slots = [v] ∧ pk.sync ≠ 0) ∧
    (let c : CoreId := 0; let s : State := (halt0 (put [(0x1D0C, 0xA0000007)] (mkE 7 0x401005)))
     Writes c 0x1C2B s ∧ sealedNow s = false ∧ (s.core c).status = .halted) ∧
    (let stream : Fin 2 := 1; let pv : VideoPacket := (E.pv true true); let s : State := (put (str1 ++ [(0x1C2A, 3), (0x2810, 0x80000001), (0x2812, 0x00400040)]) base)
     s.blockOut 10 = false ∧ s.flag 0x1C02 pv.port.val = true ∧ inStream stream pv s = true ∧ streamFormat stream pv s = true ∧ pv.first = true ∧
     pv.marker = false ∧ slotTakes 0 stream.val s = true ∧ slotTakes 1 stream.val s = false ∧ (s.panel.slots[(0 : Fin 2)]).cur = none ∧
     (∀ b : Fin 4, ((s.panel.slots[(0 : Fin 2)]).bufs[b]).state = .free) ∧ (s.panel.slots[(0 : Fin 2)]).shown = none) ∧
    (let stream : Fin 2 := 1; let pv : VideoPacket := (E.pv true true); let s : State := (put (str1 ++ [(0x2810, 0x80000001), (0x2812, 0x00400040)]) base)
     s.blockOut 10 = false ∧ s.flag 0x1C02 pv.port.val = true ∧ inStream stream pv s = true ∧ pv.is444 ≠ s.flag (0x1C24 + 6 * stream.val) 0) := by
  refine ⟨?_, ?_, ?_, ?_, ?_, ?_, ?_⟩
  · intros; simp only [Writes]; decide +kernel +zetaReduce
  · intros; decide +kernel +zetaReduce
  · intros; decide +kernel +zetaReduce
  · intros; decide +kernel +zetaReduce
  · intros; simp only [Writes]; decide +kernel +zetaReduce
  · intros; decide +kernel +zetaReduce
  · intros; decide +kernel +zetaReduce

end Sys2Proof.Tests.E

namespace Sys2Proof.Tests.F

def md (m : Mode) (s : State) : State := { s with modes := { s.modes with mode := m } }
def halt0 (s : State) : State := s.updCore 0 fun k => { k with status := .halted }
def pan (f : Panel → Panel) (s : State) : State := { s with panel := f s.panel }
def slot (k : Fin 2) (f : PanelSlot → PanelSlot) (s : State) : State := pan (fun p => { p with slots := modAt p.slots k f }) s
def buf (k : Fin 2) (b : Fin 4) (st : BufState) (s : State) : State := slot k (fun x => { x with bufs := modAt x.bufs b fun y => { y with state := st, capture := 77 }, orders := 5 }) s
def shown (ws : List (Nat × Word)) (s : State) : State := let t := put ws s; pan (fun p => { p with applied := (ws.foldl (fun l w => sput resetWord l w.1 w.2) p.applied) }) t
def scanE : State := shown [(0x2800, 0x00200040), (0x2841, 533333333), (0x2850, 0x00000100)] base
def scanF : State := shown [(0x2800, 0x00200040), (0x2840, 0x00000100), (0x2841, 533333333), (0x2850, 0x00000100)] base
def scanL : State := shown [(0x2800, 0x00200040), (0x2840, 0x00000001), (0x2841, 533333333), (0x2860, 1)] base
def scanV : State := shown [(0x2861, 100)] scanL
def sl (coder : Byte) (n : Nat) : Slice := { frame := 7, present := 1000000000, line := 0, lines := 8, column := 0, width := 16, coder := coder, is444 := true, is10 := true, data := List.replicate n 0x55 }
def hadm (s : State) : State := { put [(0x2400, 0x00000202), (0x2401, 0), (0x2402, 0)] s with hol := { s.hol with numbered := true, admitMask := 0xFFFF } }

/-- The hypotheses of the statement PanelFrames are met. -/
theorem witness_PanelFrames :
    (let c : CoreId := 0; let slot : Fin 2 := 1; let b : Fin 4 := 3; let val : Word := 0x000D0005; let s : State := (buf 1 3 .written (put [(0x2824, 100)] base))
     let x := s.panel.slots[slot]
     let y := x.bufs[b]
     let ms := min 500 (max 2 (s.field (slotWord slot 5) 0 9))
     let plays := panelOn slot (inEffect s)
     s.blockOut 13 = false ∧ y.state = .written ∧ y.asked = 0 ∧ Memory.wf s = true ∧ Writes c 0x2833 s ∧ slotTakes 0 3 s = false ∧
     slotTakes 1 3 s = false ∧ (plays = false ∨ s.blockOut 13 = true ∨ s.clock < x.doneAt + ms * 1000000) ∧ Writes c 0x2807 s ∧
     bits val 16 5 ≠ 31 ∧ (s.banks[(Fin.ofNat 32 (bits val 16 5) : Fin 32)]).owner ≠ 8) ∧
    (let c : CoreId := 0; let slot : Fin 2 := 1; let b : Fin 4 := 3; let val : Word := 0x00080005; let s : State := (F.slot 1 (fun x => { x with asleep := true }) { put [(0x2820, 0x80000003), (0x2825, 1)] base with banks := modAt base.banks 8 fun b => { b with owner := 8 } })
     let x := s.panel.slots[slot]
     let y := x.bufs[b]
     let ms := min 500 (max 2 (s.field (slotWord slot 5) 0 9))
     let plays := panelOn slot (inEffect s)
     (s.blockOut 13 = true ∨ y.state ≠ .written ∨ y.asked ≠ 0) ∧ Writes c 0x2833 s ∧ slotTakes slot 3 s = true ∧ Memory.wf s = true ∧
     plays = true ∧ s.blockOut 13 = false ∧ x.doneAt + ms * 1000000 ≤ s.clock ∧ x.asleep = true ∧ Writes c 0x2807 s ∧
     (bits val 16 5 = 31 ∨ (s.banks[(Fin.ofNat 32 (bits val 16 5) : Fin 32)]).owner = 8)) ∧
    (let slot : Fin 2 := 1; let s : State := (put [(0x2820, 0x80000003)] base)
     let x := s.panel.slots[slot]
     let ms := min 500 (max 2 (s.field (slotWord slot 5) 0 9))
     let plays := panelOn slot (inEffect s)
     plays = true ∧ s.blockOut 13 = false ∧ x.doneAt + ms * 1000000 ≤ s.clock ∧ x.asleep = false) := by
  refine ⟨?_, ?_, ?_⟩
  · intros; simp only [Writes]; decide +kernel +zetaReduce
  · intros; simp only [Writes]; decide +kernel +zetaReduce
  · intros; decide +kernel +zetaReduce

/-- The hypotheses of the statement HolrosSlices are met. -/
theorem witness_HolrosSlices :
    (let port : Fin 2 := 1; let b : Fin 4 := 0; let x : Slice := (sl 2 48); let s : State := (F.slot 0 (fun x => { x with is444 := true }) (put [(0x2810, 0x80000002), (0x2812, 0x00080010)] (hadm base)))
     let slot := s.panel.slots[(0 : Fin 2)]
     let video : Prop := s.feature 15 = true ∧ s.blockOut 12 = false ∧ holUp port s = true ∧ holAdmitted s = true ∧
       slotTakes 0 2 s = true ∧ slotTakes 1 2 s = false
     let got : List ((Nat × Nat) × List Nat) := (slicePixels x).map fun b => ((b.1, b.2.1), b.2.2)
     let held (l : List ((Nat × Nat) × List Nat)) : State := s.updPanelSlot 0 fun y => { y with blocks := l }
     video ∧ slot.cur = none ∧ slot.shown = none ∧ (∀ b : Fin 4, (slot.bufs[b]).state = .free) ∧ slot.frame ≠ some x.frame ∧
     (slot.frame.isSome → slot.present ≤ x.present.toNat) ∧ slot.is444 = x.is444 ∧ frameWhole 0 x.is444 (held got) = false) ∧
    (let port : Fin 2 := 0; let s : State := { put [(0x2810, 0x80000002), (0x2812, 0x00080010)] (hadm base) with agreed := 1 }
     (s.blockOut 12 = true ∨ holUp port s = false ∨ holAdmitted s = false ∨ s.feature 15 = false)) ∧
    (let x : Slice := (sl 0 0); let s : State := (F.slot 0 (fun x => { x with frame := some 7 }) (put [(0x2810, 0x80000002), (0x2812, 0x00080010)] (hadm base)))
     let slot := s.panel.slots[(0 : Fin 2)]
     slotTakes 1 2 s = false ∧ (slotTakes 0 2 s = false ∨ (slot.frame = some x.frame ∧ slot.cur = none) ∨
       (slot.frame.isSome ∧ slot.frame ≠ some x.frame ∧ x.present.toNat < slot.present))) ∧
    (let port : Fin 2 := 0; let b : Fin 4 := 0; let x : Slice := (sl 2 384); let s : State := (put [(0x2810, 0x80000002), (0x2812, 0x00080010)] (hadm base))
     let slot := s.panel.slots[(0 : Fin 2)]
     let got : List ((Nat × Nat) × List Nat) := (slicePixels x).map fun b => ((b.1, b.2.1), b.2.2)
     let held (l : List ((Nat × Nat) × List Nat)) : State := s.updPanelSlot 0 fun y => { y with blocks := l }
     let video : Prop := s.feature 15 = true ∧ s.blockOut 12 = false ∧ holUp port s = true ∧ holAdmitted s = true ∧
       slotTakes 0 2 s = true ∧ slotTakes 1 2 s = false
     video ∧ slot.cur = none ∧ slot.shown = none ∧ (∀ b : Fin 4, (slot.bufs[b]).state = .free) ∧ slot.frame ≠ some x.frame ∧
     (slot.frame.isSome → slot.present ≤ x.present.toNat) ∧ frameWhole 0 x.is444 (held got) = true) ∧
    (let port : Fin 2 := 1; let b : Fin 4 := 0; let x : Slice := (sl 2 48); let s : State := (F.slot 0 (fun x => { x with is444 := true, frame := some 7, cur := some 0 }) (put [(0x2810, 0x80000002), (0x2812, 0x00080010)] (hadm base)))
     let slot := s.panel.slots[(0 : Fin 2)]
     let got : List ((Nat × Nat) × List Nat) := (slicePixels x).map fun b => ((b.1, b.2.1), b.2.2)
     let held (l : List ((Nat × Nat) × List Nat)) : State := s.updPanelSlot 0 fun y => { y with blocks := l }
     let video : Prop := s.feature 15 = true ∧ s.blockOut 12 = false ∧ holUp port s = true ∧ holAdmitted s = true ∧
       slotTakes 0 2 s = true ∧ slotTakes 1 2 s = false
     video ∧ slot.frame = some x.frame ∧ slot.cur = some b ∧ frameWhole 0 x.is444 (held (slot.blocks ++ got)) = false) := by
  refine ⟨?_, ?_, ?_, ?_, ?_⟩
  · intros; decide +kernel +zetaReduce
  · intros; decide +kernel +zetaReduce
  · intros; decide +kernel +zetaReduce
  · intros; decide +kernel +zetaReduce
  · intros; decide +kernel +zetaReduce

/-- The hypotheses of the statement ScanOut are met. -/
theorem witness_ScanOut :
    (let s : State := (pan (fun p => { p with n := some 120, vAt := 999999999, selected := some 121 }) scanE)
     let p := s.panel
     let now := s.deviceTime.toNat
     let holds : Prop := p.rephase = true ∧ fsyncIn s = true ∧ predicted s ≤ 64 * now
     let startsAt := p.vAt + p.refresh * scanPeriod s / (64 * refreshes s)
     let classE : Prop := scanReady s = true ∧ classL s = false
     scanReady s = true ∧ ¬holds ∧ dueFrame s = none ∧ (p.hold = true ∨ dueSelection s = none) ∧ classE ∧ p.n.isSome ∧
     (p.refresh < refreshes s ∨ p.hold = true) ∧ startsAt ≤ now ∧ (p.processed = false ∨ p.hold = true) ∧
     (p.uploading = false ∨ (∃ x ∈ p.sends, now < x.at_) ∨ rowsReady (rowsOf p.line s) s = false)) ∧
    (let n : Nat := 120; let v : Nat := 999999999; let s : State := (pan (fun p => { p with uploading := true, config := some (panelDepth scanE, segsS scanE) }) scanE)
     let p := s.panel
     let now := s.deviceTime.toNat
     let holds : Prop := p.rephase = true ∧ fsyncIn s = true ∧ predicted s ≤ 64 * now
     let classE : Prop := scanReady s = true ∧ classL s = false
     let applied := applyWords 0x2840 0x2880 s
     let shown : Prop := p.selected = some n ∧ p.runNext = true
     classE ∧ ¬holds ∧ dueFrame s = some (n, v, false) ∧ s.modes.mode ≠ .quiet ∧ (shown → uploadDone v applied = true) ∧ n < 2 ^ 24 ∧
     Memory.wf s = true ∧ ¬shown ∧ p.uploading = true ∧ (∀ x ∈ p.sends, x.at_ ≤ now) ∧ p.sendCfg = false ∧ p.sendCur = false ∧
     (p.line = 0 → p.config = some (panelDepth s, segsS s)) ∧ rowsReady (rowsOf p.line s) s = true ∧ p.line + 1 < muxM s) ∧
    (let s : State := (pan (fun p => { p with n := some 120, vAt := 900000000, rephase := true }) scanF)
     let p := s.panel
     let now := s.deviceTime.toNat
     let holds : Prop := p.rephase = true ∧ fsyncIn s = true ∧ predicted s ≤ 64 * now
     let accepted : Prop := p.hold = true ∨ p.n = none ∨ (inWindow now s = true ∧ p.edgeV = none ∧ p.rephase = false)
     scanReady s = true ∧ holds ∧ Memory.wf s = true ∧ fsyncIn s = true ∧ ¬accepted ∧ (p.ignoredNow = true ∨ p.rephase = true)) ∧
    (let s : State := base
     scanReady s = false) ∧
    (let n : Nat := 121; let s : State := scanE
     let p := s.panel
     scanReady s = true ∧ p.hold = false ∧ dueSelection s = some n ∧ s.modes.mode = .run ∧ classL s = false) ∧
    (let s : State := (pan (fun p => { p with uploading := true, line := 1, config := some (panelDepth scanE, segsS scanE) }) scanE)
     let p := s.panel
     let now := s.deviceTime.toNat
     let classE : Prop := scanReady s = true ∧ classL s = false
     classE ∧ p.uploading = true ∧ (∀ x ∈ p.sends, x.at_ ≤ now) ∧ p.sendCfg = false ∧ p.sendCur = false ∧
     (p.line = 0 → p.config = some (panelDepth s, segsS s)) ∧ rowsReady (rowsOf p.line s) s = true ∧ muxM s ≤ p.line + 1) ∧
    (let s : State := (pan (fun p => { p with n := some 120, vAt := 1000000000 - 8333333 }) scanF)
     let p := s.panel
     let now := s.deviceTime.toNat
     let accepted : Prop := p.hold = true ∨ p.n = none ∨ (inWindow now s = true ∧ p.edgeV = none ∧ p.rephase = false)
     scanReady s = true ∧ fsyncIn s = true ∧ accepted) ∧
    (let s : State := (pan (fun p => { p with n := some 120, vAt := 1000000000 - 8333333 - 416667 }) scanF)
     let p := s.panel
     let now := s.deviceTime.toNat
     let accepted : Prop := p.hold = true ∨ p.n = none ∨ (inWindow now s = true ∧ p.edgeV = none ∧ p.rephase = false)
     scanReady s = true ∧ fsyncIn s = true ∧ ¬accepted ∧ p.ignoredNow = false ∧ p.rephase = false ∧ p.ignored < 3) ∧
    (let n : Nat := 120; let v : Nat := 999999999; let s : State := (pan (fun p => { p with runNext := true, selected := some 120 }) scanE)
     let p := s.panel
     let now := s.deviceTime.toNat
     let holds : Prop := p.rephase = true ∧ fsyncIn s = true ∧ predicted s ≤ 64 * now
     let classE : Prop := scanReady s = true ∧ classL s = false
     let applied := applyWords 0x2840 0x2880 s
     let shown : Prop := p.selected = some n ∧ p.runNext = true
     classE ∧ ¬holds ∧ dueFrame s = some (n, v, false) ∧ s.modes.mode ≠ .quiet ∧ (shown → uploadDone v applied = true) ∧ shown) ∧
    (let n : Nat := 120; let v : Nat := 999999999; let s : State := (pan (fun p => { p with uploading := true, runNext := true, selected := some 120 }) scanE)
     let p := s.panel
     let now := s.deviceTime.toNat
     let holds : Prop := p.rephase = true ∧ fsyncIn s = true ∧ predicted s ≤ 64 * now
     let classE : Prop := scanReady s = true ∧ classL s = false
     let applied := applyWords 0x2840 0x2880 s
     let shown : Prop := p.selected = some n ∧ p.runNext = true
     classE ∧ ¬holds ∧ dueFrame s = some (n, v, false) ∧ s.modes.mode ≠ .quiet ∧ shown ∧ uploadDone v applied = false ∧ n < 2 ^ 24 ∧
     Memory.wf s = true) ∧
    (let n : Nat := 120; let v : Nat := 999999999; let s : State := (pan (fun p => { p with lanes := .unlocked }) scanV)
     let p := s.panel
     let now := s.deviceTime.toNat
     let holds : Prop := p.rephase = true ∧ fsyncIn s = true ∧ predicted s ≤ 64 * now
     let lineL : Prop := scanReady s = true ∧ classL s = true
     lineL ∧ ¬holds ∧ dueFrame s = some (n, v, false) ∧ s.modes.mode ≠ .quiet ∧ p.lanes = .unlocked ∧ n < 2 ^ 24 ∧ Memory.wf s = true) ∧
    (let n : Nat := 120; let v : Nat := 999999999; let s : State := (pan (fun p => { p with lanes := .idle, sent := some 0, runNext := true, selected := some 120 }) scanV)
     let p := s.panel
     let now := s.deviceTime.toNat
     let holds : Prop := p.rephase = true ∧ fsyncIn s = true ∧ predicted s ≤ 64 * now
     let lineL : Prop := scanReady s = true ∧ classL s = true
     let shown : Prop := p.selected = some n ∧ p.runNext = true
     lineL ∧ ¬holds ∧ dueFrame s = some (n, v, false) ∧ s.modes.mode ≠ .quiet ∧ p.lanes = .idle ∧ shown ∧ p.sent = some 0 ∧ 1 < panelH s ∧
     n < 2 ^ 24 ∧ Memory.wf s = true) ∧
    (let s : State := (pan (fun p => { p with processed := true, n := some 120, vAt := 900000000, refresh := 1 }) (shown [(0x2851, 0x01000000)] scanE))
     let p := s.panel
     let now := s.deviceTime.toNat
     let startsAt := p.vAt + p.refresh * scanPeriod s / (64 * refreshes s)
     let classE : Prop := scanReady s = true ∧ classL s = false
     classE ∧ p.n.isSome ∧ (p.refresh < refreshes s ∨ p.hold = true) ∧ startsAt ≤ now ∧ p.processed = true ∧ p.hold = false) ∧
    (let s : State := (pan (fun p => { p with lanes := .idle, n := some 120, vAt := 999999999, processed := true }) scanV)
     let p := s.panel
     let now := s.deviceTime.toNat
     let lineL : Prop := scanReady s = true ∧ classL s = true
     lineL ∧ p.n.isSome ∧ p.line < linesTotal s ∧ lineAt p.line s ≤ now ∧ p.line < panelH s ∧ p.lanes = .idle ∧ p.processed = true ∧
     s.modes.mode ≠ .quiet ∧ Memory.wf s = true) ∧
    (let s : State := (pan (fun p => { p with n := some 120, vAt := 900000000, ignored := 3 }) scanF)
     let p := s.panel
     let now := s.deviceTime.toNat
     let accepted : Prop := p.hold = true ∨ p.n = none ∨ (inWindow now s = true ∧ p.edgeV = none ∧ p.rephase = false)
     scanReady s = true ∧ fsyncIn s = true ∧ ¬accepted ∧ p.ignoredNow = false ∧ p.rephase = false ∧ 3 ≤ p.ignored) := by
  refine ⟨?_, ?_, ?_, ?_, ?_, ?_, ?_, ?_, ?_, ?_, ?_, ?_, ?_, ?_, ?_⟩
  · intros; decide +kernel +zetaReduce
  · intros; decide +kernel +zetaReduce
  · intros; decide +kernel +zetaReduce
  · intros; decide +kernel +zetaReduce
  · intros; decide +kernel +zetaReduce
  · intros; decide +kernel +zetaReduce
  · intros; decide +kernel +zetaReduce
  · intros; decide +kernel +zetaReduce
  · intros; decide +kernel +zetaReduce
  · intros; decide +kernel +zetaReduce
  · intros; decide +kernel +zetaReduce
  · intros; decide +kernel +zetaReduce
  · intros; decide +kernel +zetaReduce
  · intros; decide +kernel +zetaReduce
  · intros; decide +kernel +zetaReduce

/-- The hypotheses of the statement PanelLinks are met. -/
theorem witness_PanelLinks :
    (let c : CoreId := 0; let t0 : Nat := 5; let addr : BitVec 16 := 0x2840; let val : Word := 0; let s : State := (md .admission (pan (fun p => { p with n := some 5 }) (put [(0x2850, 0x100)] scanL)))
     let p := s.panel
     let now := s.deviceTime.toNat
     let rests : Bool := match p.lanes with | .sleeping | .waking _ => true | _ => false
     let a := addr.toNat
     let m := maskNow (· == .rw) a s
     let v := (val &&& m) ||| (s.word a &&& ~~~m)
     let stored : State := (s.setWord a v).updPanel fun q => { q with changed := true }
     kslReady s = true ∧ (p.lanes = .electrical ∨ p.lanes = .training) ∧ p.trainAt = none ∧ Memory.wf s = true ∧ p.n.isSome ∧ Writes c 0x2866 s ∧
     (kslReady s = false ∨ p.lanes ≠ .training ∨ p.trainAt = none ∨ (p.trainAt = some t0 ∧ s.clock < t0 + 30000)) ∧
     (kslReady s = false ∨ p.lanes ≠ .idle) ∧ (kslReady s = false ∨ rests = false ∨ (p.lanes = .sleeping ∧ wakeDue s = none) ∨
     (p.lanes = .waking t0 ∧ now < wakeCheck t0 s)) ∧ Writes c 0x2853 s ∧ 0x2840 ≤ a ∧ a < 0x2880 ∧ Writes c a s ∧ m ≠ 0 ∧
     panelBudget (s.setWord a v) = true ∧ a = 0x2840 ∧ classL stored = false) ∧
    (let c : CoreId := 0; let t0 : Nat := 999970000; let addr : BitVec 16 := 0x287F; let val : Word := 0xFFFF; let s : State := (pan (fun p => { p with lanes := .training, trainAt := some 999970000, tries := 2, n := some 5 }) scanL)
     let p := s.panel
     let a := addr.toNat
     let m := maskNow (· == .rw) a s
     let v := (val &&& m) ||| (s.word a &&& ~~~m)
     kslReady s = true ∧ p.lanes = .training ∧ p.trainAt = some t0 ∧ t0 + 30000 ≤ s.clock ∧ 2 ≤ p.tries ∧ Memory.wf s = true ∧ p.n.isSome ∧
     (kslReady s = false ∨ (p.lanes ≠ .electrical ∧ p.lanes ≠ .training) ∨ p.trainAt ≠ none) ∧ 0x2840 ≤ a ∧ a < 0x2880 ∧ Writes c a s ∧ m ≠ 0 ∧
     panelBudget (s.setWord a v) = false) ∧
    (let t0 : Nat := 998241999; let addr : BitVec 16 := 0x2880; let s : State := (pan (fun p => { p with lanes := .waking 998241999, n := some 119, vAt := 990000000 }) scanV)
     let p := s.panel
     let now := s.deviceTime.toNat
     let a := addr.toNat
     kslReady s = true ∧ p.lanes = .waking t0 ∧ wakeCheck t0 s ≤ now ∧ Memory.wf s = true ∧ p.n.isSome ∧ (a < 0x2840 ∨ 0x2880 ≤ a)) ∧
    (let c : CoreId := 0; let addr : BitVec 16 := 0x2874; let val : Word := 1; let s : State := scanE
     let a := addr.toNat
     let m := maskNow (· == .rw) a s
     let v := (val &&& m) ||| (s.word a &&& ~~~m)
     let stored : State := (s.setWord a v).updPanel fun q => { q with changed := true }
     Writes c 0x2866 s ∧ kslReady s = false ∧ 0x2840 ≤ a ∧ a < 0x2880 ∧ Writes c a s ∧ m ≠ 0 ∧ panelBudget (s.setWord a v) = true ∧
     (a ≠ 0x2840 ∨ classL stored = true)) ∧
    (let t0 : Nat := 999970000; let s : State := (pan (fun p => { p with lanes := .training, trainAt := some 999970000 }) scanL)
     let p := s.panel
     kslReady s = true ∧ p.lanes = .training ∧ p.trainAt = some t0 ∧ t0 + 30000 ≤ s.clock ∧ p.tries < 2) ∧
    (let s : State := (pan (fun p => { p with lanes := .idle, n := some 5, gates := { gst := true } }) scanL)
     let p := s.panel
     kslReady s = true ∧ p.lanes = .idle ∧ p.n.isSome) ∧
    (let c : CoreId := 0; let addr : BitVec 16 := 0x2844; let s : State := (pan (fun p => { p with n := some 5 }) scanL)
     let a := addr.toNat
     0x2840 ≤ a ∧ a < 0x2880 ∧ Writes c a s ∧ maskNow (· != .ro) a s = 0) ∧
    (let c : CoreId := 0; let addr : BitVec 16 := 0x2853; let s : State := (pan (fun p => { p with n := some 5 }) scanL)
     let a := addr.toNat
     0x2840 ≤ a ∧ a < 0x2880 ∧ Writes c a s ∧ a = 0x2853) ∧
    (let c : CoreId := 0; let addr : BitVec 16 := 0x2866; let s : State := (pan (fun p => { p with n := some 5 }) scanL)
     let a := addr.toNat
     0x2840 ≤ a ∧ a < 0x2880 ∧ Writes c a s ∧ a = 0x2866) ∧
    (let t0 : Nat := 998241999; let s : State := (pan (fun p => { p with lanes := .sleeping, n := some 119, vAt := 990000000 }) scanV)
     let p := s.panel
     kslReady s = true ∧ p.lanes = .sleeping ∧ wakeDue s = some t0) := by
  refine ⟨?_, ?_, ?_, ?_, ?_, ?_, ?_, ?_, ?_, ?_⟩
  · intros; simp only [Writes]; decide +kernel +zetaReduce
  · intros; simp only [Writes]; decide +kernel +zetaReduce
  · intros; decide +kernel +zetaReduce
  · intros; simp only [Writes]; decide +kernel +zetaReduce
  · intros; decide +kernel +zetaReduce
  · intros; decide +kernel +zetaReduce
  · intros; simp only [Writes]; decide +kernel +zetaReduce
  · intros; simp only [Writes]; decide +kernel +zetaReduce
  · intros; simp only [Writes]; decide +kernel +zetaReduce
  · intros; decide +kernel +zetaReduce

end Sys2Proof.Tests.F

namespace Sys2Proof.Tests.G

def md (m : Mode) (s : State) : State := { s with modes := { s.modes with mode := m } }
def halt0 (s : State) : State := s.updCore 0 fun k => { k with status := .halted }
def hol (f : Holros → Holros) (s : State) : State := { s with hol := f s.hol }
def prt (p : Fin 2) (f : HolPort → HolPort) (s : State) : State := hol (fun h => { h with ports := modAt h.ports p f }) s
def ring (role : Nat) (f : Holros → Holros) : State := hol f (put [(0x2400, BitVec.ofNat 32 (role + 0x020000)), (0x2401, 0), (0x2402, 0)] { base with fuses := { base.fuses with devid := 0x1122334455 } })
def sf (ty flags : Byte) (hops : Byte) (accum mask : BitVec 16) (id : DWord) : SyncFrame := ⟨ty, flags, 9, 1000000000, id, mask, hops, 2, accum, true, false, [], []⟩
def whole (s : State) : State := prt 0 (fun x => { x with broken := false }) (prt 1 (fun x => { x with broken := false }) s)
def ge : GroupEntry := ⟨false, 0, 0, 0, 0, 0, 0, 0, 0⟩
def ns (p : Bool) (b : Option (Nat × Nat × Nat)) : NodeSlot := ⟨p, ge, ge, b⟩
def me : DWord := 0x1122334455
def bulk (dest ty : Byte) (n : Nat) : BulkPacket := ⟨dest, 1, 0, ty, 5, List.replicate n 7, true⟩
def bootH (push : List (Nat × Bytes)) : State := { (ring 0 id) with modes := { mode := .boot }, words := sput resetWord (ring 0 id).words 0x0014 3, sec := { base.sec with push := push } }
def bp (off : Nat) (b : Bytes) : BulkPacket := ⟨0xFF, 1, 0, 2, 5, beBytes 4 off ++ b, true⟩
def leB (n : Nat) (v : Nat) : Bytes := (List.range n).map fun i => BitVec.ofNat 8 (v / 256 ^ i)
def img : Bytes := leB 4 0x4B494D47 ++ leB 2 1 ++ leB 2 0 ++ leB 4 8 ++ leB 4 1 ++ leB 8 5 ++ leB 2 0x4201 ++ leB 1 3 ++ leB 1 0 ++ leB 4 4 ++ leB 4 77 ++ leB 28 0 ++ [1, 2, 3, 4, 0, 6, 7, 8]

/-- The hypotheses of the statement HolrosElection are met. -/
theorem witness_HolrosElection :
    (let p : Fin 2 := 0; let f : SyncFrame := (sf 2 1 3 5 0 9); let x0 : NodeSlot := (ns true none); let x : NodeSlot := (ns true (some (1, 64, 5))); let n : Nat := 7999; let b : Nat × Nat × Nat := (1, 64, 5); let s : State := (ring 1 fun h => { h with cycleAt := some 7999, table := [ns true none, ns true (some (1, 64, 5))], budgets := [(0, 1, 960, 5)] })
     let h := s.hol
     let role := s.field 0x2400 0 2
     let now := s.deviceTime.toNat / 125000
     let up : List (Fin 2) := ([0, 1] : List (Fin 2)).filter fun q => holUp q s
     let noEntries : Prop := ∀ e ∈ f.emerg, e.valid = false
     s.blockOut 12 = false ∧ (role ≠ 0 ∨ s.clock < h.heardAt + 375000 ∨ h.claimAt = some now) ∧
     (h.quiet < 8 ∨ role ≠ 0 ∨ strapPrio s = 0 ∨ (h.returned[(0 : Fin 2)] && h.returned[(1 : Fin 2)]) = true) ∧ role = 1 ∧ h.cycleAt = some n ∧
     h.tableSent = false ∧ n * 125000 + 62500 ≤ s.deviceTime.toNat ∧ up ≠ [] ∧ h.table = [x0, x] ∧ x0.present = true ∧ x.present = true ∧
     x.budget = some b ∧ s.field 0x2400 16 5 ≤ 2 ∧ h.admitMask.getLsbD 1 = false ∧ h.refuseMask.getLsbD 1 = false ∧ holUp p s = true ∧
     f.crcOk = true ∧ f.type = 2 ∧ noEntries ∧ (role = 1 ∨ h.tableOf = some f.cycle)) ∧
    (let p : Fin 2 := 1; let f : SyncFrame := (sf 3 8 0 0 0 0xFFFFFFFFFF); let s : State := (ring 0 fun h => { h with claiming := true, quiet := 8 })
     let h := s.hol
     let role := s.field 0x2400 0 2
     let now := s.deviceTime.toNat / 125000
     let claim : Nat × DWord := (f.flags.toNat / 8 % 4, f.masterId)
     s.blockOut 12 = false ∧ role = 0 ∧ (holUp 0 s || holUp 1 s) = true ∧ h.heardAt + 375000 ≤ s.clock ∧ h.claimAt ≠ some now ∧
     ((h.best.all fun y => !ranksAbove y (ownClaim s)) = true ∨ 8 ≤ h.quiet) ∧ holUp p s = true ∧ f.crcOk = true ∧ f.type = 3 ∧
     (1 < role ∨ ranksAbove claim (ownClaim s) = false ∧ claim ≠ ownClaim s) ∧ claim.1 ≠ 2 ∧
     (h.returned[(0 : Fin 2)] && h.returned[(1 : Fin 2)]) = false ∧ 8 ≤ h.quiet ∧ strapPrio s ≠ 0 ∧ Memory.wf s = true ∧
     s.flag 0x2400 2 = false) ∧
    (let p : Fin 2 := 0; let f : SyncFrame := (sf 2 1 3 5 0 9); let slots : List NodeSlot := [ns true none, ns true none]; let s : State := (ring 3 id)
     let h := s.hol
     let role := s.field 0x2400 0 2
     let noEntries : Prop := ∀ e ∈ f.emerg, e.valid = false
     let whole : Prop := ∀ i < 16, i < f.nodes.toNat → (fieldAt absentSlot slots i).present = true
     let first : Prop := role ≠ 1 ∧ h.tableOf ≠ some f.cycle
     let noneWait : Prop := ∀ q : Fin 2, (h.ports[q]).passing = []
     s.blockOut 12 = false ∧ 2 ≤ role ∧ h.heardAt + 375000 ≤ s.clock ∧ Memory.wf s = true ∧ s.flag 0x2404 0 = false ∧ holUp p s = true ∧
     f.crcOk = true ∧ f.type = 2 ∧ noEntries ∧ whole ∧ first ∧ noneWait ∧ role ≠ 2) ∧
    (let p : Fin 2 := 0; let f : SyncFrame := (sf 3 8 0 0 0 5); let s : State := (ring 0 id)
     let h := s.hol
     let role := s.field 0x2400 0 2
     let claim : Nat × DWord := (f.flags.toNat / 8 % 4, f.masterId)
     let broken := (h.ports[otherPort p]).broken
     let out := if broken then p else otherPort p
     s.blockOut 12 = false ∧ holUp p s = true ∧ f.crcOk = true ∧ f.type = 3 ∧ ranksAbove claim (ownClaim s) = true ∧ claim.1 ≠ 2 ∧ role = 0 ∧
     h.best = none ∧ holUp out s = true) ∧
    (let p : Fin 2 := 0; let f : SyncFrame := (sf 3 8 0 0 0 me); let s : State := (ring 0 fun h => { h with returned := Vector.replicate 2 true, heardAt := 999900000, best := some (1, 9) })
     let h := s.hol
     let role := s.field 0x2400 0 2
     let claim : Nat × DWord := (f.flags.toNat / 8 % 4, f.masterId)
     s.blockOut 12 = false ∧ holUp p s = true ∧ f.crcOk = true ∧ f.type = 3 ∧ claim = ownClaim s ∧ (claim.1 = 1 ∨ claim.1 = 2 ∧
     s.fuses.devid ∈ h.mstrSeen) ∧ role = 0 ∧ f.folded = false ∧ h.returned[otherPort p] = true ∧ Memory.wf s = true) ∧
    (let p : Fin 2 := 1; let f : SyncFrame := (sf 3 16 0 0 0 5); let id : DWord := 7; let s : State := (ring 0 fun h => { h with mstrSeen := [7] })
     let h := s.hol
     let claim : Nat × DWord := (f.flags.toNat / 8 % 4, f.masterId)
     s.blockOut 12 = false ∧ holUp p s = true ∧ f.crcOk = true ∧ f.type = 3 ∧ claim.1 = 2 ∧ h.mstrSeen = [id] ∧ id ≠ f.masterId) ∧
    (let s : State := ((ring 2 fun h => { h with heardAt := 999625000 }).setFlag 0x2404 0 true |>.setField 0x2002 0 2 2)
     let h := s.hol
     let role := s.field 0x2400 0 2
     s.blockOut 12 = false ∧ 2 ≤ role ∧ h.heardAt + 375000 ≤ s.clock ∧ Memory.wf s = true ∧ s.flag 0x2404 0 = true ∧
     (s.field 0x2002 0 2 = 1 ∨ s.field 0x2002 0 2 = 2)) ∧
    (let s : State := (ring 3 fun h => { h with heardAt := 999625001 })
     let h := s.hol
     let role := s.field 0x2400 0 2
     s.blockOut 12 = false ∧ 2 ≤ role ∧ s.clock < h.heardAt + 375000) ∧
    (let f : SyncFrame := (sf 1 1 14 5 0 9); let s : State := (ring 0 id)
     let h := s.hol
     let role := s.field 0x2400 0 2
     let noEntries : Prop := ∀ e ∈ f.emerg, e.valid = false
     let chains := f.flags.getLsbD 0 && !s.flag 0x2400 2
     s.blockOut 12 = false ∧ holUp 0 s = true ∧ f.crcOk = true ∧ f.type = 1 ∧ noEntries ∧ role = 0 ∧ h.numbered = false ∧ h.passive = false ∧
     Memory.wf s = true ∧ f.hops.toNat < 15 ∧ s.flag 0x2404 0 = false ∧ chains = true) ∧
    (let f : SyncFrame := (sf 1 1 15 5 0 9); let s : State := ((ring 0 id).setFlag 0x2404 0 true)
     let h := s.hol
     let role := s.field 0x2400 0 2
     let noEntries : Prop := ∀ e ∈ f.emerg, e.valid = false
     s.blockOut 12 = false ∧ holUp 0 s = true ∧ f.crcOk = true ∧ f.type = 1 ∧ noEntries ∧ role = 0 ∧ h.numbered = false ∧ h.passive = false ∧
     Memory.wf s = true ∧ 15 ≤ f.hops.toNat) ∧
    (let f : SyncFrame := (sf 1 1 3 5 0 9); let s : State := ((ring 0 id).setFlag 0x2404 0 true)
     let h := s.hol
     let role := s.field 0x2400 0 2
     let noEntries : Prop := ∀ e ∈ f.emerg, e.valid = false
     s.blockOut 12 = false ∧ holUp 0 s = true ∧ f.crcOk = true ∧ f.type = 1 ∧ noEntries ∧ role = 0 ∧ h.numbered = false ∧ h.passive = false ∧
     Memory.wf s = true ∧ f.hops.toNat < 15 ∧ s.flag 0x2404 0 = true) ∧
    (let n : Nat := 8000; let s : State := { (ring 1 fun h => { h with cycleAt := some 8000 }) with deviceTime := 1000062499 }
     let h := s.hol
     let role := s.field 0x2400 0 2
     s.blockOut 12 = false ∧ role = 1 ∧ h.cycleAt = some n ∧ h.tableSent = false ∧ s.deviceTime.toNat < n * 125000 + 62500) ∧
    (let p : Fin 2 := 0; let f : SyncFrame := (sf 2 1 3 5 3 9); let slots : List NodeSlot := [ns true none, ns true none]; let s : State := ((ring 2 fun h => { h with numbered := true }).setField 0x2400 8 4 1)
     let h := s.hol
     let role := s.field 0x2400 0 2
     let noEntries : Prop := ∀ e ∈ f.emerg, e.valid = false
     let whole : Prop := ∀ i < 16, i < f.nodes.toNat → (fieldAt absentSlot slots i).present = true
     let first : Prop := role ≠ 1 ∧ h.tableOf ≠ some f.cycle
     s.blockOut 12 = false ∧ holUp p s = true ∧ f.crcOk = true ∧ f.type = 2 ∧ noEntries ∧ whole ∧ first ∧ role = 2 ∧ h.numbered = true ∧
     Memory.wf s = true ∧ f.accum.getLsbD (s.field 0x2400 8 4) = false) ∧
    (let p : Fin 2 := 0; let f : SyncFrame := (sf 2 1 3 2 3 9); let slots : List NodeSlot := [ns true none, ns true none]; let s : State := ((ring 2 fun h => { h with numbered := true }).setField 0x2400 8 4 1)
     let h := s.hol
     let role := s.field 0x2400 0 2
     let noEntries : Prop := ∀ e ∈ f.emerg, e.valid = false
     let whole : Prop := ∀ i < 16, i < f.nodes.toNat → (fieldAt absentSlot slots i).present = true
     let first : Prop := role ≠ 1 ∧ h.tableOf ≠ some f.cycle
     s.blockOut 12 = false ∧ holUp p s = true ∧ f.crcOk = true ∧ f.type = 2 ∧ noEntries ∧ whole ∧ first ∧ role = 2 ∧ h.numbered = true ∧
     Memory.wf s = true ∧ f.accum.getLsbD (s.field 0x2400 8 4) = true) ∧
    (let s : State := (ring 0 fun h => { h with best := some (3, 9), quiet := 3, heardAt := 0 })
     let h := s.hol
     let role := s.field 0x2400 0 2
     let now := s.deviceTime.toNat / 125000
     let y : Nat × DWord := h.best.getD (0, 0)
     s.blockOut 12 = false ∧ role = 0 ∧ (holUp 0 s || holUp 1 s) = true ∧ h.heardAt + 375000 ≤ s.clock ∧ h.claimAt ≠ some now ∧ h.best = some y ∧
     ranksAbove y (ownClaim s) = true ∧ h.quiet < 8) ∧
    (let p : Fin 2 := 1; let f : SyncFrame := (sf 3 8 0 0 0 5); let s : State := (ring 1 id)
     let role := s.field 0x2400 0 2
     let claim : Nat × DWord := (f.flags.toNat / 8 % 4, f.masterId)
     s.blockOut 12 = false ∧ holUp p s = true ∧ f.crcOk = true ∧ f.type = 3 ∧ ranksAbove claim (ownClaim s) = true ∧ claim.1 ≠ 2 ∧ role = 1 ∧
     Memory.wf s = true) ∧
    (let p : Fin 2 := 0; let f : SyncFrame := (sf 2 1 3 5 0 9); let slots : List NodeSlot := [ns true none, ns false none]; let x0 : NodeSlot := (ns true none); let x : NodeSlot := (ns false none); let s : State := (ring 3 id)
     let h := s.hol
     let role := s.field 0x2400 0 2
     let noEntries : Prop := ∀ e ∈ f.emerg, e.valid = false
     let first : Prop := role ≠ 1 ∧ h.tableOf ≠ some f.cycle
     let noneWait : Prop := ∀ q : Fin 2, (h.ports[q]).passing = []
     s.blockOut 12 = false ∧ holUp p s = true ∧ f.crcOk = true ∧ f.type = 2 ∧ noEntries ∧ slots = [x0, x] ∧ x0.present = true ∧
     x.present = false ∧ f.nodes = 2 ∧ first ∧ noneWait ∧ role ≠ 2) ∧
    (let p : Fin 2 := 0; let s : State := ((ring 0 id).setWord 0x2401 0x30000)
     s.blockOut 12 = false ∧ holUp p s = false) ∧
    (let f : SyncFrame := (sf 1 0 3 5 0 9); let s : State := (ring 0 id)
     let h := s.hol
     let role := s.field 0x2400 0 2
     let noEntries : Prop := ∀ e ∈ f.emerg, e.valid = false
     let chains := f.flags.getLsbD 0 && !s.flag 0x2400 2
     s.blockOut 12 = false ∧ holUp 0 s = true ∧ f.crcOk = true ∧ f.type = 1 ∧ noEntries ∧ role = 0 ∧ h.numbered = false ∧ h.passive = false ∧
     Memory.wf s = true ∧ f.hops.toNat < 15 ∧ s.flag 0x2404 0 = false ∧ chains = false) := by
  refine ⟨?_, ?_, ?_, ?_, ?_, ?_, ?_, ?_, ?_, ?_, ?_, ?_, ?_, ?_, ?_, ?_, ?_, ?_, ?_⟩
  · intros; decide +kernel +zetaReduce
  · intros; decide +kernel +zetaReduce
  · intros; decide +kernel +zetaReduce
  · intros; decide +kernel +zetaReduce
  · intros; decide +kernel +zetaReduce
  · intros; decide +kernel +zetaReduce
  · intros; decide +kernel +zetaReduce
  · intros; decide +kernel +zetaReduce
  · intros; decide +kernel +zetaReduce
  · intros; decide +kernel +zetaReduce
  · intros; decide +kernel +zetaReduce
  · intros; decide +kernel +zetaReduce
  · intros; decide +kernel +zetaReduce
  · intros; decide +kernel +zetaReduce
  · intros; decide +kernel +zetaReduce
  · intros; decide +kernel +zetaReduce
  · intros; decide +kernel +zetaReduce
  · intros; decide +kernel +zetaReduce
  · intros; decide +kernel +zetaReduce

/-- The hypotheses of the statement HolrosRing are met. -/
theorem witness_HolrosRing :
    (let c : CoreId := 0; let mask : Fin 4 := 1; let p : Fin 2 := 0; let f : SyncFrame := (sf 1 1 3 5 0 me); let rxBad : Bool := false; let txBad : Bool := false; let s : State := (prt 0 (fun x => { x with rejoin := true }) (prt 1 (fun x => { x with broken := false }) (ring 1 fun h => { h with own := some ⟨true, 1, 7, 3, 0xA006, true⟩, ownLeft := 3, numbered := true })))
     let h := s.hol
     let role := s.field 0x2400 0 2
     let n := s.deviceTime.toNat / 125000
     let up : List (Fin 2) := ([0, 1] : List (Fin 2)).filter fun q => holUp q s
     let writes := h.numbered && !h.passive
     let a := 0x2401 + p.val
     let state := s.field a 16 2
     let rec' := if rxBad then s.field a 8 8 + 1 else s.field a 8 8 - 1
     let tec' := if txBad then s.field a 0 8 + 8 else s.field a 0 8 - 1
     s.blockOut 12 = false ∧ role = 1 ∧ h.cycleAt ≠ some n ∧ Memory.wf s = true ∧ up ≠ [] ∧ (∀ q : Fin 2, (h.ports[q]).passing = []) ∧
     (h.ports[p]).rejoin = true ∧ (h.ports[otherPort p]).broken = false ∧ writes = true ∧ h.counted ≠ some (s.word 0x2406 + 1, 1) ∧
     (holUp p s = false ∨ role = 1 ∧ f.masterId = s.fuses.devid ∨ f.type = 3 ∧ role < 2) ∧ state < 2 ∧ s.flag 0x2400 2 = false ∧
     ((h.ports[p]).tautRun < 1024 ∨ (h.ports[p]).broken = false ∨ state ≠ 0) ∧ state < 3 ∧ rec' ≤ 255 ∧ tec' ≤ 255 ∧ (state = 1 ∨ (rec' < 128 ∧
     tec' < 128)) ∧ Writes c 0x2403 s ∧ mask.val = 2 ^ p.val ∧ (state ≠ 2 ∨ (h.ports[p]).goodRun < 1024)) ∧
    (let p : Fin 2 := 0; let k : BulkPacket := ⟨0xFF, 1, 7, 1, 5, [7], true⟩; let s : State := (prt 0 (fun x => { x with rejoin := true }) (prt 1 (fun x => { x with broken := false }) (ring 1 fun h => { h with own := some ⟨true, 1, 7, 3, 0xA006, true⟩, ownLeft := 3, numbered := true })))
     let h := s.hol
     let me := s.field 0x2400 8 4
     let broken := (h.ports[otherPort p]).broken
     let out := if broken then p else otherPort p
     let bytes := k.payload.length + 20
     let own := h.numbered && decide (k.src.toNat = me)
     let goes : Prop := (h.ports[otherPort p]).passing = [] ∧ holUp out s = true ∧ (h.ports[out]).bulk + bytes ≤ 74848
     let a := 0x2401 + p.val
     let state := s.field a 16 2
     s.blockOut 12 = false ∧ holUp p s = true ∧ k.type = 1 ∧ k.dest = 0xFF ∧ k.crcOk = true ∧ k.src ≠ 0 ∧ own = false ∧ goes ∧ h.outbox = [] ∧
     k.payload.length ≤ 8192 ∧ (holAdmitted s = false ∨ state ≠ 0 ∨ 74848 < (h.ports[p]).bulk + bytes) ∧ k.prio = 7) ∧
    (let p : Fin 2 := 1; let f : SyncFrame := (sf 2 1 3 5 0 9); let rxBad : Bool := true; let txBad : Bool := true; let k : BulkPacket := (bulk 0 1 5); let s : State := ((ring 2 fun h => { h with numbered := true }).setWord 0x2402 0x0000FF08)
     let h := s.hol
     let role := s.field 0x2400 0 2
     let n := s.deviceTime.toNat / 125000
     let writes := h.numbered && !h.passive
     let broken := (h.ports[otherPort p]).broken
     let out := if broken then p else otherPort p
     let a := 0x2401 + p.val
     let state := s.field a 16 2
     let rec' := if rxBad then s.field a 8 8 + 1 else s.field a 8 8 - 1
     let tec' := if txBad then s.field a 0 8 + 8 else s.field a 0 8 - 1
     let me := s.field 0x2400 8 4
     let mine := h.numbered && decide (k.dest.toNat = me)
     s.blockOut 12 = false ∧ (role ≠ 1 ∨ h.cycleAt = some n) ∧ holUp p s = true ∧ holUp out s = true ∧ (¬(role = 1 ∧
     f.masterId = s.fuses.devid)) ∧ (¬(f.type = 3 ∧ role < 2)) ∧ writes = true ∧ state < 2 ∧ 2 ≤ role ∧ state < 3 ∧ Memory.wf s = true ∧
     (255 < rec' ∨ 255 < tec') ∧ k.type = 1 ∧ k.dest ≠ 0xFF ∧ mine = true ∧ k.crcOk = true ∧ k.src ≠ 0) ∧
    (let c : CoreId := 0; let mask : Fin 4 := 2; let p : Fin 2 := 1; let s : State := (prt 1 (fun x => { x with goodRun := 1024 }) ((ring 2 fun h => { h with numbered := true }).setWord 0x2402 0x0002FFFF))
     let a := 0x2401 + p.val
     let state := s.field a 16 2
     let h := s.hol
     s.blockOut 12 = false ∧ 2 ≤ state ∧ state < 3 ∧ Memory.wf s = true ∧ state = 2 ∧ Writes c 0x2403 s ∧ mask.val = 2 ^ p.val ∧
     1024 ≤ (h.ports[p]).goodRun ∧ holUp p s = false) ∧
    (let p : Fin 2 := 0; let f : SyncFrame := (sf 1 1 3 5 0 9); let k : BulkPacket := (bulk 0xFF 1 5); let s : State := (prt 0 (fun x => { x with passing := [bulk 0xFF 1 5] }) (whole (ring 1 id)))
     let h := s.hol
     let role := s.field 0x2400 0 2
     let n := s.deviceTime.toNat / 125000
     let up : List (Fin 2) := ([0, 1] : List (Fin 2)).filter fun q => holUp q s
     let bytes := k.payload.length + 20
     let writes := h.numbered && !h.passive
     let broken := (h.ports[otherPort p]).broken
     let out := if broken then p else otherPort p
     s.blockOut 12 = false ∧ role = 1 ∧ h.cycleAt ≠ some n ∧ Memory.wf s = true ∧ up ≠ [] ∧ (h.ports[p]).passing = [k] ∧
     (h.ports[otherPort p]).passing = [] ∧ bytes ≤ 74848 ∧ holUp p s = true ∧ (h.ports[p]).broken = false ∧
     (∀ q : Fin 2, (h.ports[q]).rejoin = false) ∧ holUp out s = true ∧ (¬(role = 1 ∧ f.masterId = s.fuses.devid)) ∧ (¬(f.type = 3 ∧ role < 2)) ∧
     writes = false) ∧
    (let p : Fin 2 := 1; let s : State := (prt 1 (fun x => { x with goodRun := 1023, tautRun := 1024 }) (ring 0 fun h => { h with numbered := true }))
     let role := s.field 0x2400 0 2
     let a := 0x2401 + p.val
     let state := s.field a 16 2
     let h := s.hol
     s.blockOut 12 = false ∧ state < 2 ∧ role = 0 ∧ (h.ports[p]).broken = true ∧ state = 0 ∧ 1024 ≤ (h.ports[p]).tautRun) ∧
    (let p : Fin 2 := 0; let k : BulkPacket := ⟨1, 0, 3, 1, 5, List.replicate 36 7, true⟩; let s : State := (whole ((ring 2 fun h => { h with numbered := true, own := some ⟨true, 1, 7, 3, 0xA006, true⟩, ownLeft := 3, admitMask := 2 }).setField 0x2400 8 4 1))
     let h := s.hol
     let role := s.field 0x2400 0 2
     let me := s.field 0x2400 8 4
     let mine := h.numbered && decide (k.dest.toNat = me)
     let o : Order := (payloadOrder 16 0 0 k.payload s).1
     let a := 0x2401 + p.val
     let state := s.field a 16 2
     let bytes := k.payload.length + 20
     s.blockOut 12 = false ∧ holUp p s = true ∧ k.type = 1 ∧ k.dest ≠ 0xFF ∧ mine = true ∧ k.crcOk = true ∧ k.src = 0 ∧ role = 2 ∧
     payloadOrder 16 0 0 k.payload s = (o, true) ∧ h.outbox = [] ∧ k.payload.length ≤ 8192 ∧ holAdmitted s = true ∧ state = 0 ∧
     (h.ports[p]).bulk + bytes ≤ 74848) ∧
    (let p : Fin 2 := 0; let k : BulkPacket := (bulk 3 1 5); let s : State := (ring 2 fun h => { h with cycleAt := some 8000, outbox := [bulk 3 1 5], numbered := true, admitMask := 1 })
     let h := s.hol
     let me := s.field 0x2400 8 4
     let broken := (h.ports[otherPort p]).broken
     let out := if broken then p else otherPort p
     let bytes := k.payload.length + 20
     let mine := h.numbered && decide (k.dest.toNat = me)
     let own := h.numbered && decide (k.src.toNat = me)
     let goes : Prop := (h.ports[otherPort p]).passing = [] ∧ holUp out s = true ∧ (h.ports[out]).bulk + bytes ≤ 74848
     s.blockOut 12 = false ∧ holUp p s = true ∧ k.type = 1 ∧ k.dest ≠ 0xFF ∧ mine = false ∧ own = false ∧ goes) ∧
    (let p : Fin 2 := 1; let rxBad : Bool := true; let txBad : Bool := false; let s : State := ((ring 2 fun h => { h with numbered := true }).setWord 0x2402 0x00007F08)
     let a := 0x2401 + p.val
     let state := s.field a 16 2
     let rec' := if rxBad then s.field a 8 8 + 1 else s.field a 8 8 - 1
     let tec' := if txBad then s.field a 0 8 + 8 else s.field a 0 8 - 1
     s.blockOut 12 = false ∧ state < 3 ∧ Memory.wf s = true ∧ state < 2 ∧ rec' ≤ 255 ∧ tec' ≤ 255 ∧ state = 0 ∧ (128 ≤ rec' ∨ 128 ≤ tec')) ∧
    (let p : Fin 2 := 1; let s : State := ((ring 2 fun h => { h with numbered := true }).setWord 0x2402 0x0003FFFF)
     let a := 0x2401 + p.val
     let state := s.field a 16 2
     s.blockOut 12 = false ∧ state = 3 ∧ Memory.wf s = true ∧ holUp (otherPort p) s = true) ∧
    (let p : Fin 2 := 0; let s : State := ((ring 0 id).setWord 0x2401 0x30000 |>.setWord 0x2402 0x30000)
     let a := 0x2401 + p.val
     let state := s.field a 16 2
     s.blockOut 12 = false ∧ state = 3 ∧ Memory.wf s = true ∧ holUp (otherPort p) s = false) ∧
    (let p : Fin 2 := 0; let k : BulkPacket := ⟨1, 0, 3, 1, 5, List.replicate 36 7, false⟩; let s : State := (whole ((ring 2 fun h => { h with numbered := true, own := some ⟨true, 1, 7, 3, 0xA006, true⟩, ownLeft := 3, admitMask := 2 }).setField 0x2400 8 4 1))
     let h := s.hol
     let me := s.field 0x2400 8 4
     let mine := h.numbered && decide (k.dest.toNat = me)
     s.blockOut 12 = false ∧ holUp p s = true ∧ k.type = 1 ∧ k.dest ≠ 0xFF ∧ mine = true ∧ k.crcOk = false) ∧
    (let p : Fin 2 := 0; let k : BulkPacket := ⟨3, 1, 7, 1, 5, List.replicate 36 7, true⟩; let s : State := (whole ((ring 2 fun h => { h with numbered := true, admitMask := 1 }).setField 0x2400 8 4 1))
     let h := s.hol
     let me := s.field 0x2400 8 4
     let mine := h.numbered && decide (k.dest.toNat = me)
     let own := h.numbered && decide (k.src.toNat = me)
     s.blockOut 12 = false ∧ holUp p s = true ∧ k.type = 1 ∧ k.dest ≠ 0xFF ∧ mine = false ∧ own = true) ∧
    (let p : Fin 2 := 0; let k : BulkPacket := ⟨3, 1, 7, 1, 5, List.replicate 36 7, true⟩; let s : State := (prt 0 (fun x => { x with bulk := 74800 }) (ring 2 fun h => { h with numbered := true, admitMask := 1 }))
     let h := s.hol
     let me := s.field 0x2400 8 4
     let broken := (h.ports[otherPort p]).broken
     let out := if broken then p else otherPort p
     let bytes := k.payload.length + 20
     let mine := h.numbered && decide (k.dest.toNat = me)
     let own := h.numbered && decide (k.src.toNat = me)
     let goes : Prop := (h.ports[otherPort p]).passing = [] ∧ holUp out s = true ∧ (h.ports[out]).bulk + bytes ≤ 74848
     s.blockOut 12 = false ∧ holUp p s = true ∧ k.type = 1 ∧ k.dest ≠ 0xFF ∧ mine = false ∧ own = false ∧ ¬goes) := by
  refine ⟨?_, ?_, ?_, ?_, ?_, ?_, ?_, ?_, ?_, ?_, ?_, ?_, ?_, ?_⟩
  · intros; simp only [Writes]; decide +kernel +zetaReduce
  · intros; decide +kernel +zetaReduce
  · intros; decide +kernel +zetaReduce
  · intros; simp only [Writes]; decide +kernel +zetaReduce
  · intros; decide +kernel +zetaReduce
  · intros; decide +kernel +zetaReduce
  · intros; decide +kernel +zetaReduce
  · intros; decide +kernel +zetaReduce
  · intros; decide +kernel +zetaReduce
  · intros; decide +kernel +zetaReduce
  · intros; decide +kernel +zetaReduce
  · intros; decide +kernel +zetaReduce
  · intros; decide +kernel +zetaReduce
  · intros; decide +kernel +zetaReduce

/-- The hypotheses of the statement HolrosStops are met. -/
theorem witness_HolrosStops :
    (let c : CoreId := 0; let port : Fin 2 := 0; let node : NodeId := 3; let e : EmergEntry := ⟨true, 0, 7, 0xFFFF, 0xA006, true⟩; let f : SyncFrame := (sf 1 2 3 5 1 9); let s : State := base
     let h := s.hol
     let role := s.field 0x2400 0 2
     s.modes.mode = .run ∧ s.modes.held = false ∧ Memory.wf s = true ∧ h.hestSeen = false ∧ s.field 0x2404 1 2 ≠ 1 ∧ Writes c 0x2405 s ∧
     ownCause s = false ∧ s.blockOut 12 = false ∧ (holUp port s = false ∨ e.valid = false ∨ e.crcOk = false ∨ h.seen[node] = some e.seq) ∧
     s.modes.mode ≠ .dormant ∧ f.crcOk = true ∧ f.type = 1 ∧ (∀ x ∈ f.emerg, x.valid = false) ∧
     (holUp port s = false ∨ role ≠ 2 ∨ f.flags.getLsbD 1 = false ∨ f.resetMask.getLsbD (s.field 0x2400 8 4) = false) ∧ Writes c 0x240C s ∧
     role ≠ 1) ∧
    (let c : CoreId := 0; let port : Fin 2 := 0; let node : NodeId := 3; let e : EmergEntry := ⟨true, 0, 7, 0xFFFF, 0xA006, true⟩; let s : State := (put [(0x2404, 2), (0x5083, 8)] (ring 1 id))
     let h := s.hol
     let role := s.field 0x2400 0 2
     s.modes.mode = .run ∧ s.modes.held = false ∧ Memory.wf s = true ∧ h.hestSeen = false ∧ s.field 0x2404 1 2 = 1 ∧ s.blockOut 12 = false ∧
     holUp port s = true ∧ e.valid = true ∧ e.crcOk = true ∧ h.seen[node] ≠ some e.seq ∧ concerns node e s = true ∧ e.cat = 0 ∧
     Writes c 0x240C s ∧ role = 1) ∧
    (let port : Fin 2 := 0; let node : NodeId := 3; let e : EmergEntry := ⟨true, 1, 7, 0x0003, 0xA006, true⟩; let f : SyncFrame := (sf 1 2 3 5 2 9); let s : State := ((ring 2 fun h => { h with hestSeen := true, numbered := true }).setField 0x2400 8 4 1)
     let h := s.hol
     let role := s.field 0x2400 0 2
     s.modes.mode = .run ∧ s.modes.held = false ∧ Memory.wf s = true ∧ h.hestSeen = true ∧ s.blockOut 12 = false ∧ holUp port s = true ∧
     e.valid = true ∧ e.crcOk = true ∧ h.seen[node] ≠ some e.seq ∧ concerns node e s = true ∧ e.cat = 1 ∧ s.modes.mode ≠ .dormant ∧
     f.crcOk = true ∧ f.type = 1 ∧ (∀ x ∈ f.emerg, x.valid = false) ∧ role = 2 ∧ h.numbered = true ∧ s.field 0x2400 8 4 ≠ 0 ∧
     f.flags.getLsbD 1 = true ∧ f.resetMask.getLsbD (s.field 0x2400 8 4) = true) ∧
    (let c : CoreId := 0; let port : Fin 2 := 0; let node : NodeId := 3; let e : EmergEntry := ⟨true, 2, 7, 0x0003, 0xA006, true⟩; let s : State := (put [(0x4800, 1)] ((ring 2 fun h => { h with hestSeen := true, numbered := true, hestOthers := true }).setField 0x2400 8 4 1))
     let h := s.hol
     Writes c 0x2405 s ∧ ownCause s = true ∧ s.blockOut 12 = false ∧ holUp port s = true ∧ e.valid = true ∧ e.crcOk = true ∧
     h.seen[node] ≠ some e.seq ∧ Memory.wf s = true ∧ concerns node e s = true ∧ s.modes.mode = .run ∧ e.cat = 2) ∧
    (let port : Fin 2 := 0; let node : NodeId := 3; let e : EmergEntry := ⟨true, 2, 7, 0x2003, 0xA006, true⟩; let p : BulkPacket := (bp 10 (img.drop 10)); let s : State := (bootH [(0, img.take 10)])
     let h := s.hol
     let chunks := (beNat (p.payload.take 4), (p.payload.drop 4).take (2097280 - beNat (p.payload.take 4))) :: s.sec.push
     s.blockOut 12 = false ∧ holUp port s = true ∧ e.valid = true ∧ e.crcOk = true ∧ h.seen[node] ≠ some e.seq ∧ Memory.wf s = true ∧
     concerns node e s = false ∧ s.modes.mode = .boot ∧ s.modes.held = false ∧ s.field 0x0014 0 2 = 3 ∧ p.crcOk = true ∧ p.type = 2 ∧
     p.dest = 0xFF ∧ 5 ≤ p.payload.length ∧ covered chunks 64 = true ∧ imageNeeds chunks ≤ 2097280 ∧ covered chunks (imageNeeds chunks) = true) ∧
    (let port : Fin 2 := 0; let p : BulkPacket := (bp 0 (img.take 60)); let s : State := (bootH [])
     let chunks := (beNat (p.payload.take 4), (p.payload.drop 4).take (2097280 - beNat (p.payload.take 4))) :: s.sec.push
     s.blockOut 12 = false ∧ s.modes.mode = .boot ∧ holUp port s = true ∧ s.modes.held = false ∧ s.field 0x0014 0 2 = 3 ∧ p.crcOk = true ∧
     p.type = 2 ∧ p.dest = 0xFF ∧ 5 ≤ p.payload.length ∧ covered chunks 64 = false) ∧
    (let port : Fin 2 := 0; let p : BulkPacket := (bp 10 ((img.drop 10).take 61)); let s : State := (bootH [(0, img.take 10)])
     let chunks := (beNat (p.payload.take 4), (p.payload.drop 4).take (2097280 - beNat (p.payload.take 4))) :: s.sec.push
     s.blockOut 12 = false ∧ s.modes.mode = .boot ∧ holUp port s = true ∧ s.modes.held = false ∧ s.field 0x0014 0 2 = 3 ∧ p.crcOk = true ∧
     p.type = 2 ∧ p.dest = 0xFF ∧ 5 ≤ p.payload.length ∧ covered chunks 64 = true ∧ imageNeeds chunks ≤ 2097280 ∧
     covered chunks (imageNeeds chunks) = false) ∧
    (let s : State := (md .standby base)
     coresPowered s = false) := by
  refine ⟨?_, ?_, ?_, ?_, ?_, ?_, ?_, ?_⟩
  · intros; simp only [Writes]; decide +kernel +zetaReduce
  · intros; simp only [Writes]; decide +kernel +zetaReduce
  · intros; decide +kernel +zetaReduce
  · intros; simp only [Writes]; decide +kernel +zetaReduce
  · intros; decide +kernel +zetaReduce
  · intros; decide +kernel +zetaReduce
  · intros; decide +kernel +zetaReduce
  · intros; decide +kernel +zetaReduce

end Sys2Proof.Tests.G

namespace Sys2Proof.Tests.H

def fq (a : DWord) (st w : Bool) (d : Bytes) : FarReq := ⟨3, st, w, 5, a, d⟩
def ch (i : Fin 2) (f : DramChan → DramChan) (s : State) : State := s.updChan i f
def far (l : List FarReq) (s : State) : State := s.updCore 0 fun k => { k with farWait := l }
def dr : State := ch 1 (fun x => { x with ranks := 1, fitted := 1, zeroed := true }) (ch 0 (fun x => { x with ranks := 2, fitted := 2, started := true, zeroed := true }) (put [(0x1410, 0), (0x1411, 0xE40C - 4), (0x1811, 0xE40C - 4)] base))
def dq (w : Bool) (a len : Nat) (d : Bytes) : DramReq := ⟨.core 0 (fq 0x100 w (decide (len = 8)) []), 6, w, a, len, d, 999999000, false, 0⟩
def qu (l : List DramReq) (s : State) : State := ch 0 (fun x => { x with queue := l }) s
def mg (m : Option (Nat × Nat)) (s : State) : State := ch 0 (fun x => { x with mig := m }) s
def psn (s : State) : State := ch 0 (fun x => { x with poisoned := [4] }) s
def pq (w : Bool) (a len : Nat) (d : Bytes) : PortReq := ⟨.engine, w, a, len, d⟩
def po (p : Fin 12) (l : List PortReq) (s : State) : State := { s with dram := { s.dram with ports := modAt s.dram.ports p fun _ => l } }
def blk (b : Fin 25) (s : State) : State := { s with blocks := s.blocks.set b .out }
def busy (n : Nat) (s : State) : State := s.updCore 1 fun k => { k with farReplies := List.replicate n ⟨fq 0x100 false false [], .ok, []⟩ }
def nz (s : State) : State := ch 0 (fun x => { x with zeroed := false, front := 2 }) s
def er (e : Ecc) (s : State) : State := ch 0 (fun x => { x with errs := [(4, e)] }) s
def bq (k : Fin 2) (b : Fin 4) (n : Nat) (w : Bool) (a len : Nat) (d : Bytes) : DramReq := ⟨.buffer k b n, 1, w, a, len, d, 999999000, false, 0⟩
def fe (A : Nat) (n : Nat) (a len : Nat) : DramReq := ⟨.fetch A n, 0, false, a, len, [], 999999000, false, 0⟩
def fst' (A n : Nat) (s : State) : State := s.updPanel fun p => { p with fetched := [⟨A, n, none⟩] }
def bufW (n : Nat) (s : State) : State := s.updPanel fun p => { p with slots := modAt p.slots 0 fun x => { x with bufs := modAt x.bufs 0 fun b => { b with state := .written, frame := n, asked := 2 } } }
def dlow (s : State) : State := ch 0 (fun x => { x with ranks := 1, rowBits := 0 }) s
def w1 (o : Nat) (v : Word) (s : State) : State := s.setWord (0x1400 + o) v
def old (s : State) : State := { s with clock := 3000000000 }
def re (l : List Nat) (s : State) : State := ch 0 (fun x => { x with retrain := l }) s
def md (m : Mode) (s : State) : State := { s with modes := { s.modes with mode := m } }

/-- The hypotheses of the statement DramRequests are met. -/
theorem witness_DramRequests :
    (let c : CoreId := 0; let ch : Fin 2 := 0; let idx : Nat := 0; let a : Nat := 0x100; let port : Fin 12 := 0; let A : DWord := 0x100; let len : Nat := 8; let data : Bytes := (List.replicate 8 1); let s : State := dr
     let room (write : Bool) : Prop := inflight s < 1472 ∧ chanRoom ch write s = true
     (s.core c).farWait = [] ∧ 0 < len ∧ A.toNat % 64 + len ≤ 64 ∧ s.dram.ports[port] = [] ∧ routeDram A.toNat s = some (ch, a) ∧
     s.blockOut (chanBlock ch) = false ∧ room false ∧ data.length = len ∧ room true ∧ (s.blockOut 13 = true ∨ nextRows s = []) ∧
     (s.chan ch).queue[idx]? = none) ∧
    (let c : CoreId := 0; let ch : Fin 2 := 0; let q : FarReq := (fq 0x100 false false []); let rest : List FarReq := []; let a : Nat := 0x100; let port : Fin 12 := 6; let A : DWord := 0x100; let len : Nat := 8; let data : Bytes := (List.replicate 8 1); let s : State := (far [(fq 0x100 false false [])] (po 6 [(pq true 0x100 8 (List.replicate 8 1))] dr))
     let room (write : Bool) : Prop := inflight s < 1472 ∧ chanRoom ch write s = true
     (s.core c).farWait = q :: rest ∧ s.dram.ports[(6 : Fin 12)] ≠ [] ∧ 0 < len ∧ A.toNat % 64 + len ≤ 64 ∧
     (s.dram.ports[port] ≠ [] ∨ (routeDram A.toNat s = some (ch, a) ∧ ¬room false)) ∧ data.length = len ∧
     (s.dram.ports[port] ≠ [] ∨ (routeDram A.toNat s = some (ch, a) ∧ ¬room true))) ∧
    (let c : CoreId := 0; let q : FarReq := (fq 0x7FFFFFFFF0 false false []); let rest : List FarReq := []; let port : Fin 12 := 0; let A : DWord := 0x7FFFFFFFF0; let len : Nat := 8; let s : State := (far [fq 0x7FFFFFFFF0 false false []] dr)
     (s.core c).farWait = q :: rest ∧ s.dram.ports[(6 : Fin 12)] = [] ∧ routeDram q.addr.toNat s = none ∧ inflight s < 1472 ∧ 0 < len ∧
     A.toNat % 64 + len ≤ 64 ∧ s.dram.ports[port] = [] ∧ routeDram A.toNat s = none) ∧
    (let c : CoreId := 0; let ch : Fin 2 := 0; let q : FarReq := (fq 0x100 false false []); let rest : List FarReq := []; let idx : Nat := 0; let a : Nat := 0x100; let r : DramReq := { dq true 0 4 [] with overdue := true }; let s : State := (far [fq 0x100 false false []] (qu [{ dq true 0 4 [] with overdue := true }] dr))
     let room (write : Bool) : Prop := inflight s < 1472 ∧ chanRoom ch write s = true
     (s.core c).farWait = q :: rest ∧ s.dram.ports[(6 : Fin 12)] = [] ∧ routeDram q.addr.toNat s = some (ch, a) ∧ room q.store ∧
     s.blockOut (chanBlock ch) = false ∧ (s.chan ch).queue[idx]? = some r ∧ r.overdue = true) ∧
    (let c : CoreId := 0; let ch : Fin 2 := 0; let q : FarReq := (fq 0x100 false false []); let rest : List FarReq := []; let a : Nat := 0x100; let s : State := (far [fq 0x100 false false []] (qu (List.replicate 256 (dq false 0 4 [])) dr))
     let room (write : Bool) : Prop := inflight s < 1472 ∧ chanRoom ch write s = true
     (s.core c).farWait = q :: rest ∧ s.dram.ports[(6 : Fin 12)] = [] ∧ routeDram q.addr.toNat s = some (ch, a) ∧ ¬room q.store) ∧
    (let ch : Fin 2 := 0; let idx : Nat := 0; let r : DramReq := (dq true 0 4 []); let s : State := (far [fq 0x100 false false []] (qu [dq true 0 4 []] (w1 0x26 2000 dr)))
     (s.chan ch).queue[idx]? = some r ∧ s.clock - r.at_ < portTarget ch r.port s) ∧
    (let ch : Fin 2 := 0; let idx : Nat := 0; let r : DramReq := (dq true 0 4 []); let s : State := (far [fq 0x100 false false []] (qu [dq true 0 4 []] (w1 0x11 0xE410 (w1 0x26 1000 dr))))
     (s.chan ch).queue[idx]? = some r ∧ r.overdue = false ∧ portTarget ch r.port s ≤ s.clock - r.at_ ∧ Memory.wf s = true ∧ chanState ch s = 2) ∧
    (let c : CoreId := 0; let ch : Fin 2 := 0; let q : FarReq := (fq 0x100 false false []); let rest : List FarReq := []; let a : Nat := 0x100; let s : State := (far [(fq 0x100 false false [])] (blk 8 dr))
     let room (write : Bool) : Prop := inflight s < 1472 ∧ chanRoom ch write s = true
     (s.core c).farWait = q :: rest ∧ s.dram.ports[(6 : Fin 12)] = [] ∧ routeDram q.addr.toNat s = some (ch, a) ∧ room q.store ∧
     s.blockOut (chanBlock ch) = true ∧ q.store = false) ∧
    (let ch : Fin 2 := 0; let a : Nat := 0x100; let port : Fin 12 := 3; let w : PortReq := (pq true 0x100 8 (List.replicate 8 1)); let more : List PortReq := [pq false 0x200 4 []]; let s : State := (po 3 [pq true 0x100 8 (List.replicate 8 1), pq false 0x200 4 []] dr)
     let room (write : Bool) : Prop := inflight s < 1472 ∧ chanRoom ch write s = true
     (s.blockOut 13 = true ∨ nextRows s = []) ∧ s.dram.ports[port] = w :: more ∧ routeDram w.addr s = some (ch, a) ∧
     s.blockOut (chanBlock ch) = false ∧ room w.write) ∧
    (let ch : Fin 2 := 0; let a : Nat := 0x100; let port : Fin 12 := 3; let w : PortReq := (pq true 0x100 8 (List.replicate 8 1)); let more : List PortReq := [pq false 0x200 4 []]; let s : State := (po 3 [pq true 0x100 8 (List.replicate 8 1), pq false 0x200 4 []] (busy 1472 dr))
     let room (write : Bool) : Prop := inflight s < 1472 ∧ chanRoom ch write s = true
     (s.blockOut 13 = true ∨ nextRows s = []) ∧ s.dram.ports[port] = w :: more ∧ routeDram w.addr s = some (ch, a) ∧
     s.blockOut (chanBlock ch) = false ∧ ¬room w.write) := by
  refine ⟨?_, ?_, ?_, ?_, ?_, ?_, ?_, ?_, ?_, ?_⟩
  · intros; decide +kernel +zetaReduce
  · intros; decide +kernel +zetaReduce
  · intros; decide +kernel +zetaReduce
  · intros; decide +kernel +zetaReduce
  · intros; decide +kernel +zetaReduce
  · intros; decide +kernel +zetaReduce
  · intros; decide +kernel +zetaReduce
  · intros; decide +kernel +zetaReduce
  · intros; decide +kernel +zetaReduce
  · intros; decide +kernel +zetaReduce

/-- The hypotheses of the statement DramService are met. -/
theorem witness_DramService :
    (let ch : Fin 2 := 0; let idx : Nat := 0; let r : DramReq := (dq true 0x100 8 (List.replicate 8 3)); let cs : Nat := 0; let key : Nat := 0x100; let s : State := (nz (qu [(dq true 0x100 8 (List.replicate 8 3))] dr))
     let x := s.chan ch
     chanServes ch s = true ∧ pickDram ch s = some idx ∧ x.queue[idx]? = some r ∧ physical ch r.addr s = some (cs, key) ∧ Memory.wf s = true ∧
     r.write = true ∧ r.addr % 8 = 0 ∧ r.data.length % 8 = 0 ∧ r.data.length < 64 ∧ lineReady ch key s = false) ∧
    (let ch : Fin 2 := 0; let idx : Nat := 0; let s : State := dr
     (chanServes ch s = false ∨ pickDram ch s ≠ some idx)) ∧
    (let ch : Fin 2 := 0; let idx : Nat := 0; let ecc : Ecc := .clean; let r : DramReq := (dq false 0x100 4 []); let cs : Nat := 0; let key : Nat := 0x100; let s : State := (qu [dq false 0x100 4 []] dr)
     let x := s.chan ch
     let found := if ecc = .clean then lineError ch key s else ecc
     chanServes ch s = true ∧ pickDram ch s = some idx ∧ x.queue[idx]? = some r ∧ physical ch r.addr s = some (cs, key) ∧ Memory.wf s = true ∧
     r.write = false ∧ lineReady ch key s = true ∧ linePoisoned ch key s = false ∧ found = .clean) ∧
    (let ch : Fin 2 := 0; let idx : Nat := 0; let r : DramReq := (dq false 0x100 4 []); let cs : Nat := 0; let key : Nat := 0x100; let s : State := (psn (qu [dq false 0x100 4 []] dr))
     let x := s.chan ch
     chanServes ch s = true ∧ pickDram ch s = some idx ∧ x.queue[idx]? = some r ∧ physical ch r.addr s = some (cs, key) ∧ Memory.wf s = true ∧
     r.write = false ∧ lineReady ch key s = true ∧ linePoisoned ch key s = true) ∧
    (let ch : Fin 2 := 0; let idx : Nat := 0; let ecc : Ecc := (.double 4); let r : DramReq := (dq false 0x100 8 []); let cs : Nat := 0; let key : Nat := 0x100; let syn : Byte := 4; let s : State := (mg (some (0, 900)) (qu [dq false 0x100 8 []] dr))
     let x := s.chan ch
     let found := if ecc = .clean then lineError ch key s else ecc
     chanServes ch s = true ∧ pickDram ch s = some idx ∧ x.queue[idx]? = some r ∧ physical ch r.addr s = some (cs, key) ∧ Memory.wf s = true ∧
     r.write = false ∧ lineReady ch key s = true ∧ linePoisoned ch key s = false ∧ found = .double syn) ∧
    (let ch : Fin 2 := 0; let idx : Nat := 0; let r : DramReq := (dq true 0x100 64 (List.replicate 64 3)); let cs : Nat := 0; let key : Nat := 0x100; let s : State := (psn (qu [dq true 0x100 64 (List.replicate 64 3)] dr))
     let x := s.chan ch
     chanServes ch s = true ∧ pickDram ch s = some idx ∧ x.queue[idx]? = some r ∧ physical ch r.addr s = some (cs, key) ∧ Memory.wf s = true ∧
     r.write = true ∧ r.addr % 64 = 0 ∧ r.data.length = 64) ∧
    (let ch : Fin 2 := 0; let idx : Nat := 0; let ecc : Ecc := (.double 4); let r : DramReq := (dq true 0x10A 4 (List.replicate 4 3)); let cs : Nat := 0; let key : Nat := 0x10A; let syn : Byte := 4; let s : State := (mg (some (0, 900)) (qu [dq true 0x10A 4 (List.replicate 4 3)] dr))
     let x := s.chan ch
     let found := if ecc = .clean then lineError ch key s else ecc
     chanServes ch s = true ∧ pickDram ch s = some idx ∧ x.queue[idx]? = some r ∧ physical ch r.addr s = some (cs, key) ∧ Memory.wf s = true ∧
     r.write = true ∧ (r.addr % 8 ≠ 0 ∨ r.data.length % 8 ≠ 0) ∧ lineReady ch key s = true ∧ linePoisoned ch key s = false ∧
     found = .double syn) ∧
    (let ch : Fin 2 := 0; let idx : Nat := 0; let r : DramReq := (dq false 0x100 4 []); let cs : Nat := 0; let key : Nat := 0x100; let s : State := (nz (qu [(dq false 0x100 4 [])] dr))
     let x := s.chan ch
     chanServes ch s = true ∧ pickDram ch s = some idx ∧ x.queue[idx]? = some r ∧ physical ch r.addr s = some (cs, key) ∧ Memory.wf s = true ∧
     r.write = false ∧ lineReady ch key s = false) ∧
    (let ch : Fin 2 := 0; let idx : Nat := 0; let ecc : Ecc := (.single 4); let r : DramReq := (dq false 0x100 4 []); let cs : Nat := 0; let key : Nat := 0x100; let syn : Byte := 4; let s : State := (qu [(dq false 0x100 4 [])] dr)
     let x := s.chan ch
     let found := if ecc = .clean then lineError ch key s else ecc
     chanServes ch s = true ∧ pickDram ch s = some idx ∧ x.queue[idx]? = some r ∧ physical ch r.addr s = some (cs, key) ∧ Memory.wf s = true ∧
     r.write = false ∧ lineReady ch key s = true ∧ linePoisoned ch key s = false ∧ found = .single syn) ∧
    (let ch : Fin 2 := 0; let idx : Nat := 0; let ecc : Ecc := .clean; let r : DramReq := (dq true 0x102 4 (List.replicate 4 3)); let cs : Nat := 0; let key : Nat := 0x102; let s : State := (qu [(dq true 0x102 4 (List.replicate 4 3))] dr)
     let x := s.chan ch
     let found := if ecc = .clean then lineError ch key s else ecc
     chanServes ch s = true ∧ pickDram ch s = some idx ∧ x.queue[idx]? = some r ∧ physical ch r.addr s = some (cs, key) ∧ Memory.wf s = true ∧
     r.write = true ∧ (r.addr % 8 ≠ 0 ∨ r.data.length % 8 ≠ 0) ∧ lineReady ch key s = true ∧ linePoisoned ch key s = false ∧ found = .clean) ∧
    (let ch : Fin 2 := 0; let idx : Nat := 0; let ecc : Ecc := (.single 4); let r : DramReq := (dq true 0x102 4 (List.replicate 4 3)); let cs : Nat := 0; let key : Nat := 0x102; let syn : Byte := 4; let s : State := (qu [(dq true 0x102 4 (List.replicate 4 3))] dr)
     let x := s.chan ch
     let found := if ecc = .clean then lineError ch key s else ecc
     chanServes ch s = true ∧ pickDram ch s = some idx ∧ x.queue[idx]? = some r ∧ physical ch r.addr s = some (cs, key) ∧ Memory.wf s = true ∧
     r.write = true ∧ (r.addr % 8 ≠ 0 ∨ r.data.length % 8 ≠ 0) ∧ lineReady ch key s = true ∧ linePoisoned ch key s = false ∧
     found = .single syn) ∧
    (let ch : Fin 2 := 0; let idx : Nat := 0; let r : DramReq := (dq true 0x102 4 (List.replicate 4 3)); let cs : Nat := 0; let key : Nat := 0x102; let s : State := (psn (qu [(dq true 0x102 4 (List.replicate 4 3))] dr))
     let x := s.chan ch
     chanServes ch s = true ∧ pickDram ch s = some idx ∧ x.queue[idx]? = some r ∧ physical ch r.addr s = some (cs, key) ∧ Memory.wf s = true ∧
     r.write = true ∧ (r.addr % 8 ≠ 0 ∨ r.data.length % 8 ≠ 0) ∧ lineReady ch key s = true ∧ linePoisoned ch key s = true) := by
  refine ⟨?_, ?_, ?_, ?_, ?_, ?_, ?_, ?_, ?_, ?_, ?_, ?_⟩
  · intros; decide +kernel +zetaReduce
  · intros; decide +kernel +zetaReduce
  · intros; decide +kernel +zetaReduce
  · intros; decide +kernel +zetaReduce
  · intros; decide +kernel +zetaReduce
  · intros; decide +kernel +zetaReduce
  · intros; decide +kernel +zetaReduce
  · intros; decide +kernel +zetaReduce
  · intros; decide +kernel +zetaReduce
  · intros; decide +kernel +zetaReduce
  · intros; decide +kernel +zetaReduce
  · intros; decide +kernel +zetaReduce

/-- The hypotheses of the statement DramUpkeep are met. -/
theorem witness_DramUpkeep :
    (let c : CoreId := 0; let ch : Fin 2 := 0; let rank : Fin 4 := 0; let range : Fin 3 := 0; let val : Word := 0x00003201; let s : State := (dr)
     let x := s.chan ch
     let w (off : Nat) := chanAddr ch off
     let urgent := x.queue.any fun q => decide (s.field (w 0x13) 1 3 ≤ urgency ch q s)
     let ranks := x.ranks + if x.spare && x.spareOk && !x.spareUsed then 1 else 0
     let idles : Prop := s.flag (w 0x15) 0 = true ∧ x.idleAt + s.field (w 0x15) 4 16 * 1000 ≤ s.clock ∧ x.mig = none ∧
       (x.zeroed = true ∨ x.fitted * rankSize ch s / 64 ≤ x.front)
     let en : Bool := if sealedNow s then s.flag (w 0x14) 0 else bit val 0
     let T := sbits val 8 8
     chanServes ch s = true ∧ rank.val < ranks ∧ (s.flag (w 0x13) 0 && s.feature 4 && urgent) = false ∧ s.flag (w 0x14) 0 = false ∧
     Memory.wf s = true ∧ s.field (w 0x14) 16 2 = range.val ∧ (x.queue ≠ [] ∨ x.sr ≠ .none ∨ ¬idles ∧ s.modes.entering = none) ∧
     x.sr ≠ .entering ∧ (s.field (w 0x11) 3 3 ≠ 2 ∨ s.blockOut (chanBlock ch) = true) ∧
     (s.flag (w 0x14) 0 = false ∨ x.stale = true ∨ s.clock < x.tempAt + 100000000 ∨ s.blockOut (chanBlock ch) = true) ∧ Writes c (w 0x14) s ∧
     en = true ∧ T ≤ 95 ∧ 20 ≤ (T - x.trainC).natAbs ∧ (chanState ch s = 1 ∨ chanState ch s = 3)) ∧
    (let c : CoreId := 0; let ch : Fin 2 := 0; let val : Word := 0x00006401; let s : State := (w1 0x14 1 (w1 0x15 0x11 dr))
     let w (off : Nat) := chanAddr ch off
     let x := s.chan ch
     let idles : Prop := s.flag (w 0x15) 0 = true ∧ x.idleAt + s.field (w 0x15) 4 16 * 1000 ≤ s.clock ∧ x.mig = none ∧
       (x.zeroed = true ∨ x.fitted * rankSize ch s / 64 ≤ x.front)
     let en : Bool := if sealedNow s then s.flag (w 0x14) 0 else bit val 0
     let T := sbits val 8 8
     chanServes ch s = true ∧ s.flag (w 0x14) 0 = true ∧ x.queue = [] ∧ x.sr = .none ∧ (idles ∨ s.modes.entering.isSome = true) ∧
     s.blockOut (chanBlock ch) = false ∧ x.stale = false ∧ x.tempAt + 100000000 ≤ s.clock ∧ Memory.wf s = true ∧ Writes c (w 0x14) s ∧ en = true ∧
     95 < T) ∧
    (let c : CoreId := 0; let ch : Fin 2 := 0; let range : Fin 3 := 1; let val : Word := 0x00000005; let s : State := (H.ch 0 (fun x => { x with sr := .entering, cool := 1, stale := true, spare := true, alerts := [(1, 999999000)], ranks := 1, fitted := 1, front := 5 }) dr)
     let w (off : Nat) := chanAddr ch off
     let x := s.chan ch
     let en : Bool := if sealedNow s then s.flag (w 0x14) 0 else bit val 0
     let T := sbits val 8 8
     chanServes ch s = true ∧ s.flag (w 0x14) 0 = false ∧ Memory.wf s = true ∧ s.field (w 0x14) 16 2 ≠ range.val ∧ x.sr = .entering ∧
     Writes c (w 0x14) s ∧ en = true ∧ (T - x.trainC).natAbs < 20) ∧
    (let c : CoreId := 0; let ch : Fin 2 := 0; let rank : Fin 4 := 3; let val : Word := 0x00005F06; let s : State := (H.ch 0 (fun x => { x with mig := some (0, 511) }) dr)
     let x := s.chan ch
     let ranks := x.ranks + if x.spare && x.spareOk && !x.spareUsed then 1 else 0
     let w (off : Nat) := chanAddr ch off
     let en : Bool := if sealedNow s then s.flag (w 0x14) 0 else bit val 0
     chanServes ch s = true ∧ ranks ≤ rank.val ∧ Writes c (w 0x14) s ∧ en = false) ∧
    (let ch : Fin 2 := 0; let s : State := (w1 0x11 0xE410 dr)
     let x := s.chan ch
     let w (off : Nat) := chanAddr ch off
     chanServes ch s = false ∧ s.field (w 0x11) 3 3 = 2 ∧ s.blockOut (chanBlock ch) = false ∧ x.queue = []) ∧
    (let ch : Fin 2 := 0; let rank : Fin 4 := 1; let s : State := (w1 0x13 0x73 (qu [{ dq false 0x108 16 [] with at_ := 0 }] (w1 0x14 1 (w1 0x15 0x11 dr))))
     let x := s.chan ch
     let w (off : Nat) := chanAddr ch off
     let urgent := x.queue.any fun q => decide (s.field (w 0x13) 1 3 ≤ urgency ch q s)
     let ranks := x.ranks + if x.spare && x.spareOk && !x.spareUsed then 1 else 0
     let n := s.field (w 0x13) 4 4
     chanServes ch s = true ∧ rank.val < ranks ∧ (s.flag (w 0x13) 0 && s.feature 4 && urgent) = true ∧ n < 8) ∧
    (let ch : Fin 2 := 0; let rank : Fin 4 := 1; let s : State := (w1 0x13 0x83 (qu [{ dq false 0x108 16 [] with at_ := 0 }] (w1 0x14 1 (w1 0x15 0x11 dr))))
     let x := s.chan ch
     let w (off : Nat) := chanAddr ch off
     let urgent := x.queue.any fun q => decide (s.field (w 0x13) 1 3 ≤ urgency ch q s)
     let ranks := x.ranks + if x.spare && x.spareOk && !x.spareUsed then 1 else 0
     let n := s.field (w 0x13) 4 4
     chanServes ch s = true ∧ rank.val < ranks ∧ (s.flag (w 0x13) 0 && s.feature 4 && urgent) = true ∧ 8 ≤ n) ∧
    (let ch : Fin 2 := 0; let s : State := (w1 0x11 0xE410 (qu [dq false 0x108 16 []] dr))
     let x := s.chan ch
     let w (off : Nat) := chanAddr ch off
     s.field (w 0x11) 3 3 = 2 ∧ s.blockOut (chanBlock ch) = false ∧ x.queue ≠ [] ∧ Memory.wf s = true) := by
  refine ⟨?_, ?_, ?_, ?_, ?_, ?_, ?_, ?_⟩
  · intros; simp only [Writes]; decide +kernel +zetaReduce
  · intros; simp only [Writes]; decide +kernel +zetaReduce
  · intros; simp only [Writes]; decide +kernel +zetaReduce
  · intros; simp only [Writes]; decide +kernel +zetaReduce
  · intros; decide +kernel +zetaReduce
  · intros; decide +kernel +zetaReduce
  · intros; decide +kernel +zetaReduce
  · intros; decide +kernel +zetaReduce

/-- The hypotheses of the statement DramRepair are met. -/
theorem witness_DramRepair :
    (let c : CoreId := 0; let ch : Fin 2 := 0; let rank : Fin 4 := 0; let cs : Fin 4 := 0; let val : Word := 0; let ecc : Ecc := .clean; let s : State := (re [0, 1] dr)
     let x := s.chan ch
     let w (off : Nat) := chanAddr ch off
     let i := x.front
     let alone : Prop := x.queue = [] ∧ s.modes.entering = none ∧ inflight s < 1472
     let a := x.scrub * 64 % capacity ch s
     let chip : Nat := ((physical ch a s).getD (0, 0)).1
     let key : Nat := ((physical ch a s).getD (0, 0)).2
     let found := if ecc = .clean then lineError ch key s else ecc
     let k := bits val 0 2
     chanServes ch s = true ∧ rank.val ∈ x.retrain ∧ rank.val < x.ranks ∧ s.field (w 0x11) 0 3 < 4 ∧ Memory.wf s = true ∧
     ((x.alerts.lookup cs.val).all fun t1 => decide (1000000 ≤ s.clock - t1)) = true ∧ x.queue = [] ∧
     (x.zeroed = true ∨ x.fitted * rankSize ch s / 64 ≤ i) ∧ s.flag (w 0x16) 16 = true ∧ capacity ch s ≠ 0 ∧ x.scrubAt ≤ s.clock ∧ alone ∧
     physical ch a s = some (chip, key) ∧ (lineReady ch key s = false ∨ linePoisoned ch key s = true ∨ found = .clean) ∧
     (x.mig = none ∨ s.clock < x.migAt) ∧ Writes c (w 0x1F) s ∧ Writes c (w 0x1D) s ∧ (bit val 2 = false ∨ x.ranks ≤ k)) ∧
    (let c : CoreId := 0; let ch : Fin 2 := 0; let val : Word := 4; let s : State := (w1 0x11 0xE400 (H.ch 0 (fun x => { x with spare := true, ranks := 1 }) dr))
     let x := s.chan ch
     let w (off : Nat) := chanAddr ch off
     let k := bits val 0 2
     let running : Prop := s.modes.mode ≠ .dormant ∧ s.modes.mode ≠ .standby ∧ s.modes.mode ≠ .boot ∧ s.modes.mode ≠ .admission
     chanServes ch s = false ∧ (s.blockOut (chanBlock ch) = true ∨ chanState ch s = 0 ∨ chanState ch s = 4) ∧ Writes c (w 0x1D) s ∧
     bit val 2 = true ∧ k < x.ranks ∧ x.mig = none ∧ spareFree ch s = true ∧ chanState ch s = 0 ∧ running ∧ s.blockOut (chanBlock ch) = false ∧
     Memory.wf s = true ∧ x.queue = []) ∧
    (let ch : Fin 2 := 0; let rank : Fin 4 := 0; let ecc : Ecc := (.single 4); let syn : Byte := 4; let s : State := (mg (some (0, 5)) (H.ch 0 (fun x => { x with spare := true, ranks := 1 }) dr))
     let x := s.chan ch
     let w (off : Nat) := chanAddr ch off
     let alone : Prop := x.queue = [] ∧ s.modes.entering = none ∧ inflight s < 1472
     let a := x.scrub * 64 % capacity ch s
     let chip : Nat := ((physical ch a s).getD (0, 0)).1
     let key : Nat := ((physical ch a s).getD (0, 0)).2
     let found := if ecc = .clean then lineError ch key s else ecc
     chanServes ch s = true ∧ rank.val ∉ x.retrain ∧ s.flag (w 0x16) 16 = true ∧ capacity ch s ≠ 0 ∧ x.scrubAt ≤ s.clock ∧ alone ∧
     physical ch a s = some (chip, key) ∧ lineReady ch key s = true ∧ linePoisoned ch key s = false ∧ Memory.wf s = true ∧ found = .single syn) ∧
    (let ch : Fin 2 := 0; let ecc : Ecc := (.single 4); let syn : Byte := 4; let r : Nat := 0; let line : Nat := 5; let s : State := (mg (some (0, 5)) (H.ch 0 (fun x => { x with spare := true, ranks := 1 }) dr))
     let x := s.chan ch
     let alone : Prop := x.queue = [] ∧ s.modes.entering = none ∧ inflight s < 1472
     let source := csOf ch r s * 2 ^ 34 + line * 64
     let found := if ecc = .clean then lineError ch source s else ecc
     chanServes ch s = true ∧ x.mig = some (r, line) ∧ x.migAt ≤ s.clock ∧ alone ∧ Memory.wf s = true ∧ r < 4 ∧ lineReady ch source s = true ∧
     linePoisoned ch source s = false ∧ (found = .clean ∨ found = .single syn)) ∧
    (let ch : Fin 2 := 0; let ecc : Ecc := (.double 4); let syn : Byte := 4; let s : State := (mg (some (0, 5)) (H.ch 0 (fun x => { x with spare := true, ranks := 1 }) dr))
     let x := s.chan ch
     let w (off : Nat) := chanAddr ch off
     let alone : Prop := x.queue = [] ∧ s.modes.entering = none ∧ inflight s < 1472
     let a := x.scrub * 64 % capacity ch s
     let chip : Nat := ((physical ch a s).getD (0, 0)).1
     let key : Nat := ((physical ch a s).getD (0, 0)).2
     let found := if ecc = .clean then lineError ch key s else ecc
     chanServes ch s = true ∧ s.flag (w 0x16) 16 = true ∧ capacity ch s ≠ 0 ∧ x.scrubAt ≤ s.clock ∧ alone ∧ physical ch a s = some (chip, key) ∧
     lineReady ch key s = true ∧ linePoisoned ch key s = false ∧ Memory.wf s = true ∧ found = .double syn) ∧
    (let ch : Fin 2 := 0; let ecc : Ecc := (.double 4); let syn : Byte := 4; let r : Nat := 0; let line : Nat := 5; let s : State := (mg (some (0, 5)) (H.ch 0 (fun x => { x with spare := true, ranks := 1 }) dr))
     let x := s.chan ch
     let alone : Prop := x.queue = [] ∧ s.modes.entering = none ∧ inflight s < 1472
     let source := csOf ch r s * 2 ^ 34 + line * 64
     let found := if ecc = .clean then lineError ch source s else ecc
     chanServes ch s = true ∧ x.mig = some (r, line) ∧ x.migAt ≤ s.clock ∧ alone ∧ Memory.wf s = true ∧ r < 4 ∧ lineReady ch source s = true ∧
     (linePoisoned ch source s = true ∨ found = .double syn)) ∧
    (let ch : Fin 2 := 0; let r : Nat := 0; let line : Nat := 5; let s : State := (mg (some (0, 5)) (nz (H.ch 0 (fun x => { x with spare := true, ranks := 1 }) dr)))
     let x := s.chan ch
     let alone : Prop := x.queue = [] ∧ s.modes.entering = none ∧ inflight s < 1472
     let i := x.front
     let source := csOf ch r s * 2 ^ 34 + line * 64
     chanServes ch s = true ∧ x.zeroed = false ∧ i < x.fitted * rankSize ch s / 64 ∧ alone ∧ Memory.wf s = true ∧ x.ahead.contains i = false ∧
     x.mig = some (r, line) ∧ x.migAt ≤ s.clock ∧ r < 4 ∧ lineReady ch source s = false) ∧
    (let c : CoreId := 0; let ch : Fin 2 := 0; let val : Word := 4; let s : State := (w1 0x11 0xE410 (H.ch 0 (fun x => { x with spare := true, ranks := 1 }) dr))
     let x := s.chan ch
     let w (off : Nat) := chanAddr ch off
     let alone : Prop := x.queue = [] ∧ s.modes.entering = none ∧ inflight s < 1472
     let refreshing : Prop := chanState ch s = 2 ∧ s.blockOut (chanBlock ch) = false
     let k := bits val 0 2
     refreshing ∧ alone ∧ s.flag (w 0x16) 16 = true ∧ capacity ch s ≠ 0 ∧ x.scrubAt ≤ s.clock ∧ Writes c (w 0x1D) s ∧ bit val 2 = true ∧
     k < x.ranks ∧ x.mig = none ∧ spareFree ch s = true ∧ chanState ch s = 2) ∧
    (let ch : Fin 2 := 0; let rank : Fin 4 := 0; let s : State := (re [0, 1] (w1 0x11 0xE40C dr))
     let x := s.chan ch
     let w (off : Nat) := chanAddr ch off
     let running : Prop := s.modes.mode ≠ .dormant ∧ s.modes.mode ≠ .standby ∧ s.modes.mode ≠ .boot ∧ s.modes.mode ≠ .admission
     chanServes ch s = true ∧ rank.val ∈ x.retrain ∧ rank.val < x.ranks ∧ 4 ≤ s.field (w 0x11) 0 3 ∧ running ∧ Memory.wf s = true ∧ x.queue = []) ∧
    (let ch : Fin 2 := 0; let rank : Fin 4 := 1; let s : State := (re [0, 1] (H.ch 0 (fun x => { x with spare := true, ranks := 1 }) dr))
     let x := s.chan ch
     chanServes ch s = true ∧ rank.val ∈ x.retrain ∧ x.ranks ≤ rank.val ∧ Memory.wf s = true ∧ x.mig = none) ∧
    (let ch : Fin 2 := 0; let rank : Fin 4 := 1; let r : Nat := 0; let line : Nat := 5; let s : State := (re [0, 1] (mg (some (0, 5)) (H.ch 0 (fun x => { x with spare := true, ranks := 1 }) dr)))
     let x := s.chan ch
     chanServes ch s = true ∧ rank.val ∈ x.retrain ∧ x.ranks ≤ rank.val ∧ Memory.wf s = true ∧ x.mig = some (r, line)) ∧
    (let ch : Fin 2 := 0; let cs : Fin 4 := 0; let r : Nat := 0; let t0 : Nat := 999999000; let s : State := (H.ch 0 (fun x => { x with alerts := [(0, 999999000)] }) (H.ch 0 (fun x => { x with spare := true, ranks := 1 }) dr))
     let x := s.chan ch
     chanServes ch s = true ∧ x.alerts.lookup cs.val = some t0 ∧ s.clock - t0 < 1000000 ∧ Memory.wf s = true ∧ rankOn ch cs.val s = some r ∧
     x.mig = none ∧ spareFree ch s = true) ∧
    (let ch : Fin 2 := 0; let cs : Fin 4 := 0; let r : Nat := 0; let t0 : Nat := 999999000; let s : State := (H.ch 0 (fun x => { x with alerts := [(0, 999999000)] }) dr)
     let x := s.chan ch
     chanServes ch s = true ∧ x.alerts.lookup cs.val = some t0 ∧ s.clock - t0 < 1000000 ∧ Memory.wf s = true ∧ rankOn ch cs.val s = some r ∧
     x.mig = none ∧ spareFree ch s = false) ∧
    (let ch : Fin 2 := 0; let cs : Fin 4 := 3; let t0 : Nat := 999999000; let s : State := (H.ch 0 (fun x => { x with alerts := [(3, 999999000)] }) dr)
     let x := s.chan ch
     chanServes ch s = true ∧ x.alerts.lookup cs.val = some t0 ∧ s.clock - t0 < 1000000 ∧ Memory.wf s = true ∧ rankOn ch cs.val s = none) ∧
    (let ch : Fin 2 := 0; let s : State := (H.ch 0 (fun x => { x with ahead := [2] }) (nz dr))
     let x := s.chan ch
     let alone : Prop := x.queue = [] ∧ s.modes.entering = none ∧ inflight s < 1472
     let i := x.front
     chanServes ch s = true ∧ x.zeroed = false ∧ i < x.fitted * rankSize ch s / 64 ∧ alone ∧ Memory.wf s = true ∧ x.ahead.contains i = true) ∧
    (let c : CoreId := 0; let ch : Fin 2 := 0; let val : Word := 4; let r : Nat := 0; let line : Nat := 0; let s : State := (dr)
     let x := s.chan ch
     let w (off : Nat) := chanAddr ch off
     let k := bits val 0 2
     Writes c (w 0x1D) s ∧ bit val 2 = true ∧ k < x.ranks ∧ (spareFree ch s = false ∧ x.mig = none ∨ x.mig = some (r, line) ∧ r ≠ k)) ∧
    (let c : CoreId := 0; let ch : Fin 2 := 0; let val : Word := 4; let s : State := (H.ch 0 (fun x => { x with spare := true, ranks := 1 }) dr)
     let x := s.chan ch
     let w (off : Nat) := chanAddr ch off
     let k := bits val 0 2
     Writes c (w 0x1D) s ∧ bit val 2 = true ∧ k < x.ranks ∧ x.mig = none ∧ spareFree ch s = true ∧ chanServes ch s = true) ∧
    (let c : CoreId := 0; let ch : Fin 2 := 0; let val : Word := 4; let line : Nat := 5; let s : State := (mg (some (0, 5)) (H.ch 0 (fun x => { x with spare := true, ranks := 1 }) dr))
     let x := s.chan ch
     let w (off : Nat) := chanAddr ch off
     let k := bits val 0 2
     Writes c (w 0x1D) s ∧ bit val 2 = true ∧ k < x.ranks ∧ x.mig = some (k, line)) ∧
    (let ch : Fin 2 := 0; let s : State := (w1 0x11 0xE401 dr)
     let x := s.chan ch
     let w (off : Nat) := chanAddr ch off
     let running : Prop := s.modes.mode ≠ .dormant ∧ s.modes.mode ≠ .standby ∧ s.modes.mode ≠ .boot ∧ s.modes.mode ≠ .admission
     running ∧ chanState ch s = 0 ∧ s.blockOut (chanBlock ch) = false ∧ Memory.wf s = true ∧ s.flag (w 0x10) 10 = false ∧ x.spare = false ∧
     csOf ch 0 s = 0 ∧ x.mig = none ∧ x.started = true ∧ s.field (w 0x11) 0 3 < 4) ∧
    (let ch : Fin 2 := 0; let s : State := (md .admission (w1 0x11 0xE401 dr))
     s.modes.mode = .admission ∧ chanState ch s = 0 ∧ s.blockOut (chanBlock ch) = false ∧ Memory.wf s = true) ∧
    (let ch : Fin 2 := 0; let s : State := (w1 0x11 0xE410 (nz dr))
     let x := s.chan ch
     let alone : Prop := x.queue = [] ∧ s.modes.entering = none ∧ inflight s < 1472
     let refreshing : Prop := chanState ch s = 2 ∧ s.blockOut (chanBlock ch) = false
     refreshing ∧ alone ∧ x.zeroed = false ∧ x.front < x.fitted * rankSize ch s / 64) ∧
    (let ch : Fin 2 := 0; let r : Nat := 0; let line : Nat := 5; let s : State := (w1 0x11 0xE410 (mg (some (0, 5)) (H.ch 0 (fun x => { x with spare := true, ranks := 1 }) dr)))
     let x := s.chan ch
     let alone : Prop := x.queue = [] ∧ s.modes.entering = none ∧ inflight s < 1472
     let refreshing : Prop := chanState ch s = 2 ∧ s.blockOut (chanBlock ch) = false
     refreshing ∧ alone ∧ x.mig = some (r, line) ∧ x.migAt ≤ s.clock) ∧
    (let ch : Fin 2 := 0; let s : State := (w1 0x16 1 dr)
     let x := s.chan ch
     let w (off : Nat) := chanAddr ch off
     chanServes ch s = true ∧ x.queue = [] ∧ (s.flag (w 0x16) 16 = false ∨ capacity ch s = 0 ∨ s.clock < x.scrubAt)) := by
  refine ⟨?_, ?_, ?_, ?_, ?_, ?_, ?_, ?_, ?_, ?_, ?_, ?_, ?_, ?_, ?_, ?_, ?_, ?_, ?_, ?_, ?_, ?_, ?_⟩
  · intros; simp only [Writes]; decide +kernel +zetaReduce
  · intros; simp only [Writes]; decide +kernel +zetaReduce
  · intros; decide +kernel +zetaReduce
  · intros; decide +kernel +zetaReduce
  · intros; decide +kernel +zetaReduce
  · intros; decide +kernel +zetaReduce
  · intros; decide +kernel +zetaReduce
  · intros; simp only [Writes]; decide +kernel +zetaReduce
  · intros; decide +kernel +zetaReduce
  · intros; decide +kernel +zetaReduce
  · intros; decide +kernel +zetaReduce
  · intros; decide +kernel +zetaReduce
  · intros; decide +kernel +zetaReduce
  · intros; decide +kernel +zetaReduce
  · intros; decide +kernel +zetaReduce
  · intros; simp only [Writes]; decide +kernel +zetaReduce
  · intros; simp only [Writes]; decide +kernel +zetaReduce
  · intros; simp only [Writes]; decide +kernel +zetaReduce
  · intros; decide +kernel +zetaReduce
  · intros; decide +kernel +zetaReduce
  · intros; decide +kernel +zetaReduce
  · intros; decide +kernel +zetaReduce
  · intros; decide +kernel +zetaReduce

end Sys2Proof.Tests.H

namespace Sys2Proof.Tests.J

def lc (f : LedCh → LedCh) (s : State) : State := s.updLed 33 f
def ld (f : LedDie → LedDie) (s : State) : State := s.updLedDie 1 f
def at0 (n : Nat) (s : State) : State := { s with deviceTime := BitVec.ofNat 64 n }
def lit : State := lc (fun x => { x with openRun := 1, stretch := true }) { put [(0x3444, 0x40008000), (0x3445, 0x160 - 0x20)] base with agreed := 0 }
def ms : State := { lit with banks := modAt lit.banks 0 fun b => { b with owner := 10 } }
def drt : State := put [(0x3410, 0x01F48000), (0x3411, 0x02584000), (0x3412, 0x02BC2000), (0x3413, 0x03201000)] lit
def T (n : Nat) : Int := (ntcTenths n 10000 3950).getD 0
def W (s : State) : Nat := (ledWindow 33 s).getD 0

/-- The hypotheses of the statement LedDrive are met. -/
theorem witness_LedDrive :
    (let c : CoreId := 0; let ch : Fin 64 := 33; let mv : Nat := 300; let k : Nat := (W lit); let s : State := lit
     let x := s.ledCh ch
     let t : State := after (exec (.ledReload ch mv) s)
     let a := ledChAddr ch 0
     ledDriven (ledDie ch) s = true ∧ ledRuns s = true ∧ ledWindow ch s = some k ∧ x.window ≠ some k ∧ x.window ≠ some (k + 1) ∧
     matrixAsked (ledDie ch) s = false ∧ unitFailed .ledString ch s = false ∧ x.wrote = false ∧ x.go = false ∧ x.fade = none ∧
     bit (s.word (ledChAddr ch 1)) 16 = false ∧ bits (s.word (ledChAddr ch 1)) 0 2 = 0 ∧ Memory.wf s = true ∧ ledSum (ledDie ch) t ≤ 4096 ∧
     (t.ledCh ch).g ≠ 0 ∧ x.stretch = true ∧ ledDiag ch s ≠ 0 ∧ s.feature 10 = false ∧ ledLatched ch s = false ∧ x.openRun = 1 ∧ mv < 400 ∧
     Writes c a s) ∧
    (let c : CoreId := 0; let ch : Fin 64 := 33; let die : Die := .east; let val : Word := 0x40001234; let ix : Fin 256 := 0; let pt : Fin 4 := 0; let input : Fin 8 := 5; let ohms : Nat := 10000; let T : Int := (J.T 10000); let s : State := lit
     let d := dieIx die
     let at_ := ledAddr d (0x10 + pt.val)
     let e : Fin 2 := if input.val < 4 then 0 else 1
     let g : Fin 4 := Fin.ofNat 4 input.val
     let r26 := s.field (ledAddr e (8 + g.val)) 0 16 * 10
     let n := s.deviceTime.toNat / 250000000
     let x := s.ledCh ch
     Writes c (ledAddr d 7) s ∧ Writes c (ledAddr d 0x15) s ∧ s.field (ledAddr d 0x14) 8 2 ≠ 1 ∧ Writes c (ledAddr d (0x100 + ix.val)) s ∧
     matrixOwned d s = false ∧ Writes c (ledAddr d (0x10 + pt.val)) s ∧ derateFits d (s.setWord at_ val) = false ∧
     s.blockOut (ledBlock e) = false ∧ unitFailed .sensor input s = false ∧ ntcTenths ohms r26 (s.field (ledAddr e (8 + g.val)) 16 16) = some T ∧
     -32768 ≤ T ∧ T < 32768 ∧ s.led.dies[e].shut[g] = false ∧ Memory.wf s = true ∧ ohms ≤ r26 * 50 ∧ r26 ≤ ohms * 50 ∧ T ≤ (deratePoint e 3 s).1 ∧
     s.blockOut (ledBlock d) = false ∧ s.led.dies[d].interval ≠ some n ∧ ledDriven (ledDie ch) s = true ∧
     (s.deviceTime.toNat % 250000000 < 200000000 ∨ x.measured = true ∨ ledDiag ch s = 0)) ∧
    (let c : CoreId := 0; let die : Die := .east; let mask : BitVec 16 := 1; let i : Nat := 0; let s : State := lit
     let d := dieIx die
     let held := s.feature 10 && (ledChans d).any fun e => decide (s.field (ledChAddr e 3) 8 5 = i + 1) && ledLatched e s
     Writes c (ledAddr d 6) s ∧ i < 16 ∧ mask.toNat = 2 ^ i ∧ held = false) ∧
    (let c : CoreId := 0; let die : Die := .east; let val : Word := 0x02F40200; let pt : Fin 4 := 3; let input : Fin 8 := 5; let ohms : Nat := 1200; let T : Int := (J.T 1200); let s : State := (put [(0x3414, 0x100)] drt)
     let d := dieIx die
     let at_ := ledAddr d (0x10 + pt.val)
     let e : Fin 2 := if input.val < 4 then 0 else 1
     let g : Fin 4 := Fin.ofNat 4 input.val
     let r26 := s.field (ledAddr e (8 + g.val)) 0 16 * 10
     Writes c (ledAddr d 0x15) s ∧ s.field (ledAddr d 0x14) 8 2 = 1 ∧ Writes c (ledAddr d (0x10 + pt.val)) s ∧
     derateFits d (s.setWord at_ val) = true ∧ s.blockOut (ledBlock e) = false ∧ unitFailed .sensor input s = false ∧
     ntcTenths ohms r26 (s.field (ledAddr e (8 + g.val)) 16 16) = some T ∧ -32768 ≤ T ∧ T < 32768 ∧ s.led.dies[e].shut[g] = false ∧
     Memory.wf s = true ∧ ohms ≤ r26 * 50 ∧ r26 ≤ ohms * 50 ∧ (deratePoint e 3 s).1 < T) ∧
    (let die : Die := .east; let input : Fin 8 := 5; let ohms : Nat := 600000; let T : Int := (J.T 600000); let s : State := (ld (fun x => { x with interval := some 4 }) (put [(0x3447, 0x00010100), (0x3405, 1)] lit))
     let e : Fin 2 := if input.val < 4 then 0 else 1
     let g : Fin 4 := Fin.ofNat 4 input.val
     let r26 := s.field (ledAddr e (8 + g.val)) 0 16 * 10
     let at_ := ledAddr e (0xC + g.val)
     let d := dieIx die
     let n := s.deviceTime.toNat / 250000000
     s.blockOut (ledBlock e) = false ∧ unitFailed .sensor input s = false ∧ ntcTenths ohms r26 (s.field (ledAddr e (8 + g.val)) 16 16) = some T ∧
     -32768 ≤ T ∧ T < 32768 ∧ s.led.dies[e].shut[g] = false ∧ Memory.wf s = true ∧ r26 * 50 < ohms ∧ s.field at_ 16 2 ≠ 1 ∧
     s.blockOut (ledBlock d) = false ∧ s.led.dies[d].interval = some n) ∧
    (let input : Fin 8 := 5; let ohms : Nat := 100; let T : Int := (J.T 100); let s : State := lit
     let e : Fin 2 := if input.val < 4 then 0 else 1
     let g : Fin 4 := Fin.ofNat 4 input.val
     let r26 := s.field (ledAddr e (8 + g.val)) 0 16 * 10
     s.blockOut (ledBlock e) = false ∧ unitFailed .sensor input s = false ∧ ntcTenths ohms r26 (s.field (ledAddr e (8 + g.val)) 16 16) = some T ∧
     -32768 ≤ T ∧ T < 32768 ∧ s.led.dies[e].shut[g] = false ∧ Memory.wf s = true ∧ ohms * 50 < r26) ∧
    (let ch : Fin 64 := 33; let s : State := (at0 1200000000 (put [(0x3405, 1), (0x3407, 1), (0x3447, 0x2)] ms))
     let x := s.ledCh ch
     ledDriven (ledDie ch) s = true ∧ 200000000 ≤ s.deviceTime.toNat % 250000000 ∧ x.measured = false ∧ (ledDiag ch s = 2 ∨ ledDiag ch s = 1 ∧
     x.lit = true)) ∧
    (let ch : Fin 64 := 33; let k : Nat := 1525; let s : State := { drt with modes := { mode := .boot } }
     let x := s.ledCh ch
     (ledDriven (ledDie ch) s = false ∨ ledRuns s = false ∨ ledWindow ch s = x.window ∨ ledWindow ch s = some k ∧ x.window = some (k + 1))) ∧
    (let c : CoreId := 0; let die : Die := .east; let ix : Fin 256 := 0; let s : State := { lit with banks := Vector.replicate 32 ⟨9 + (dieIx .east).val, true, false, []⟩ }
     let d := dieIx die
     Writes c (ledAddr d (0x100 + ix.val)) s ∧ matrixOwned d s = true) ∧
    (let c : CoreId := 0; let die : Die := .east; let mask : BitVec 16 := 1; let i : Nat := 0; let s : State := { put [(0x3447, 0x00010100), (0x3405, 1)] lit with agreed := 0x1FFFFF }
     let d := dieIx die
     let held := s.feature 10 && (ledChans d).any fun e => decide (s.field (ledChAddr e 3) 8 5 = i + 1) && ledLatched e s
     Writes c (ledAddr d 6) s ∧ i < 16 ∧ mask.toNat = 2 ^ i ∧ held = true) := by
  refine ⟨?_, ?_, ?_, ?_, ?_, ?_, ?_, ?_, ?_, ?_⟩
  · intros; simp only [Writes]; decide +kernel +zetaReduce
  · intros; simp only [Writes]; decide +kernel +zetaReduce
  · intros; simp only [Writes]; decide +kernel +zetaReduce
  · intros; simp only [Writes]; decide +kernel +zetaReduce
  · intros; decide +kernel +zetaReduce
  · intros; decide +kernel +zetaReduce
  · intros; decide +kernel +zetaReduce
  · intros; decide +kernel +zetaReduce
  · intros; simp only [Writes]; decide +kernel +zetaReduce
  · intros; simp only [Writes]; decide +kernel +zetaReduce

end Sys2Proof.Tests.J

namespace Sys2Proof.Tests.K

def sl (n : Fin 24) (f : Slot → Slot) (s : State) : State := s.updSlot n f
def tg (n : Nat) (s : State) : State := { s with loop := { s.loop with grid := some n } }
def g0 : Gains := { kp := 0x1000, ki := 0x10, cfg := 0x0010FFFF, omax := 0x1000, omin := 0xFFFFF000 }
def ev (fb : Word) (satns : Nat) : State := sl 20 (fun x => { x with ready := true, gains := g0, acc := 5, satNs := satns, evalAt := some 999000000 })
  (put [(0x4140, 0x80200000), (0x4147, 0x100), (0x414B, fb), (0x414A, 1)] { base with agreed := 0 })
def offs (s : State) : State := put [(0x5007, 0), (0x5027, 0), (0x5047, 0), (0x5067, 0)] s
def tr (f : TraceCh → TraceCh) (s : State) : State := s.updTrace 3 f
def tb (st : Word) : State := put [(0x6818, 0x00000001), (0x6819, 0x00001403), (0x681A, 0x1), (0x681B, 100), (0x681C, 0x00050010), (0x681F, st)] { base with banks := modAt base.banks 0 fun b => { b with owner := 11 } }
def ax (f : Axis → Axis) (s : State) : State := s.updAxis 1 f
def aw (l : List (Nat × Word)) (s : State) : State := put (l.map fun p => (0x3840 + p.1, p.2)) s
def am (x y z : Int) : AlignMeasure := ⟨x, y, z, 0, 0⟩
def on : State := put [(0x4818, 0x80000032)] (aw [(0, 0x80000000), (0x10, 1000), (1, 0x00100000)] base)
def still (s : State) : State := s.updMach 1 fun x => { x with stillAt := some 0 }
def mo (v : Int) (s : State) : State := sl 5 (fun x => { x with sp := v }) (put [(0x4050, 0x80000000)] s)
def bp (p : BrakePhase) (s : State) : State := s.updBrake 1 fun b => { b with phase := p }

/-- The hypotheses of the statement LoopEngine are met. -/
theorem witness_LoopEngine :
    (let c : CoreId := 0; let n : Fin 24 := 20; let val : Word := 0x81100000; let e0 : Nat := 999000000; let s : State := (offs (ev 0x20000 0))
     let x := s.loop.slots[n]
     let w (off : Nat) := slotAddr n.val off
     let g := if x.apply = none then x.gains else shadowGains n.val s
     let acc := if x.apply = some true then 0 else x.acc
     let e := saturated 32 ((s.word (w 7)).toInt - (s.word (w 0xB)).toInt)
     let A := saturated 64 (acc + g.ki.toInt * e)
     let value (A : Int) := saturated 32 (roundShift (saturated 64 (g.kp.toInt * e + A)) (bits g.cfg 16 5))
     let sat := x.satNs + (s.deviceTime.toNat - e0)
     16 ≤ n.val ∧ s.blockOut 17 = false ∧ x.ready = true ∧ s.flag (w 0) 31 = true ∧ s.modes.mode ≠ .update ∧ s.field (w 0) 20 3 = 2 ∧
     s.field (w 0) 24 3 = 0 ∧ s.flag (w 0) 30 = false ∧ x.fbStale < 4 ∧ x.stopped = false ∧ x.fresh = false ∧
     (x.apply ≠ none → limitsOrdered n s = true) ∧ x.satSaid = false ∧ x.evalAt = some e0 ∧ s.flag (w 0xD) 1 = false ∧ s.feature 20 = false ∧
     Memory.wf s = true ∧ (¬(g.omin.toInt ≤ value A ∧ value A ≤ g.omax.toInt)) ∧ satLimit n s ≤ sat ∧ Writes c 0x4190 s ∧
     bits val 0 24 = 2 ^ n.val ∧ limitsOrdered n s = true) ∧
    (let c : CoreId := 0; let n : Fin 24 := 20; let ch : Fin 8 := 3; let val : Word := 0x81100000; let mask : Byte := 8; let s : State := (offs (ev 0x20000 0))
     let grid := s.deviceTime.toNat / 125000
     let w (off : Nat) := slotAddr n.val off
     let tw (off : Nat) := traceAddr ch off
     s.loop.grid ≠ some grid ∧ (∀ b : Fin 4, s.flag (machAddr b 7) 0 = false) ∧ Memory.wf s = true ∧ s.blockOut 17 = false ∧
     s.blockOut 20 = false ∧ (∀ b : Fin 4, s.flag (machAddr b 0xD) 31 = false) ∧ 16 ≤ n.val ∧ Writes c (w 0) s ∧ s.flag (w 0) 31 = true ∧
     bits val 24 3 ≠ s.field (w 0) 24 3 ∧ Writes c (w 0xD) s ∧ s.flag (w 0xD) 0 = false ∧ s.justSet (w 0xD) 1 = false ∧ Writes c (tw 0) s ∧
     bit val 31 = true ∧ canArm ch val s = false ∧ Writes c 0x6840 s ∧ mask.toNat = 2 ^ ch.val ∧ s.field (tw 7) 0 3 ≠ 1) ∧
    (let c : CoreId := 0; let n : Fin 24 := 20; let ch : Fin 8 := 3; let val : Word := 0xC0100000; let mask : Byte := 8; let k : Fin 24 := 20; let t0 : Nat := 1000000000; let period : Nat := 31250; let s : State := (tr (fun x => { x with fired := true }) (tb 1))
     let x := s.loop.slots[n]
     let w (off : Nat) := slotAddr n.val off
     let tw (off : Nat) := traceAddr ch off
     let y := s.trace[ch]
     let v := tapValue k (s.field (tw 1) 0 4) s
     (s.blockOut 17 = true ∨ x.ready = false) ∧ Writes c (w 0) s ∧ 16 ≤ n.val ∧ bit val 31 = true ∧ s.flag (w 0) 31 = false ∧ bits val 24 3 = 0 ∧
     limitsOrdered n s = true ∧ Writes c (tw 0) s ∧ canArm ch val s = true ∧ Writes c 0x6840 s ∧ mask.toNat = 2 ^ ch.val ∧
     s.field (tw 7) 0 3 = 1 ∧ s.blockOut 24 = false ∧ tapSlot ch s = some k ∧ sampleDue ch k s = some (t0, period) ∧ Memory.wf s = true ∧
     traceTriggers ch v s = true ∧ y.staged = [] ∧ y.samples.length < 15 ∧ 1 < s.field (tw 4) 0 16 ∧
     (traceToDram ch s = true ∨ (s.banks[traceBank ch s]).owner = 11)) ∧
    (let c : CoreId := 0; let n : Fin 24 := 20; let val : Word := 0x80100000; let s : State := (put [(0x4145, 5), (0x4146, 6), (0x414D, 1)] base)
     let w (off : Nat) := slotAddr n.val off
     Writes c 0x4190 s ∧ bits val 0 24 = 2 ^ n.val ∧ limitsOrdered n s = false ∧ Writes c (w 0) s ∧ 16 ≤ n.val ∧ bit val 31 = true ∧
     s.flag (w 0) 31 = false ∧ bits val 24 3 = 0 ∧ Writes c (w 0xD) s ∧ (s.flag (w 0xD) 0 = true ∨ s.justSet (w 0xD) 1 = true)) ∧
    (let n : Fin 24 := 20; let e0 : Nat := 999000000; let s : State := (tg 8000 (ev 0xF0 0))
     let x := s.loop.slots[n]
     let w (off : Nat) := slotAddr n.val off
     let g := if x.apply = none then x.gains else shadowGains n.val s
     let acc := if x.apply = some true then 0 else x.acc
     let e := saturated 32 ((s.word (w 7)).toInt - (s.word (w 0xB)).toInt)
     let A := saturated 64 (acc + g.ki.toInt * e)
     let value (A : Int) := saturated 32 (roundShift (saturated 64 (g.kp.toInt * e + A)) (bits g.cfg 16 5))
     let grid := s.deviceTime.toNat / 125000
     16 ≤ n.val ∧ s.blockOut 17 = false ∧ x.ready = true ∧ s.flag (w 0) 31 = true ∧ s.modes.mode ≠ .update ∧ s.field (w 0) 20 3 = 2 ∧
     s.field (w 0) 24 3 = 0 ∧ s.flag (w 0) 30 = false ∧ x.fbStale < 4 ∧ x.stopped = false ∧ x.fresh = false ∧
     (x.apply ≠ none → limitsOrdered n s = true) ∧ x.satSaid = false ∧ x.evalAt = some e0 ∧ s.flag (w 0xD) 1 = false ∧ s.feature 20 = false ∧
     Memory.wf s = true ∧ g.omin.toInt ≤ value A ∧ value A ≤ g.omax.toInt ∧ s.loop.grid = some grid) ∧
    (let ch : Fin 8 := 3; let k : Fin 24 := 0; let s : State := base
     let y := s.trace[ch]
     let tw (off : Nat) := traceAddr ch off
     (tapSlot ch s = none ∨ tapSlot ch s = some k ∧ sampleDue ch k s = none ∧ s.field (tw 7) 0 3 ≠ 2) ∧ (s.field (tw 7) 0 3 ≠ 4 ∨ y.due = none)) ∧
    (let n : Fin 24 := 20; let s : State := (sl 20 (fun x => { x with ready := true }) base)
     let x := s.loop.slots[n]
     let w (off : Nat) := slotAddr n.val off
     16 ≤ n.val ∧ s.blockOut 17 = false ∧ x.ready = true ∧ s.flag (w 0) 31 = false ∧ x.spFixed = none) ∧
    (let a : AxisId := 1; let s : State := (offs (put [(0x502B, 0), (0x502C, 5), (0x502D, 0x80000001)] ((ev 0x20000 99999).updAxis 1 fun x => { x with pos := 100000 })))
     let grid := s.deviceTime.toNat / 125000
     s.loop.grid ≠ some grid ∧ (∀ b : Fin 4, s.flag (machAddr b 7) 0 = false) ∧ Memory.wf s = true ∧ s.blockOut 17 = false ∧
     s.blockOut 20 = false ∧ s.modes.mode = .run ∧ s.flag (machAddr a 0xD) 31 = true ∧ (s.mach.axes[a]).overrun = false ∧
     (s.word (machAddr a 0xC)).toInt + (s.field (machAddr a 0xD) 0 16 * 1000 : Nat) < posUm a s) ∧
    (let ch : Fin 8 := 3; let k : Fin 24 := 20; let t0 : Nat := 1000000000; let period : Nat := 31250; let s : State := (tb 1)
     let y := s.trace[ch]
     let tw (off : Nat) := traceAddr ch off
     let v := tapValue k (s.field (tw 1) 0 4) s
     s.blockOut 24 = false ∧ tapSlot ch s = some k ∧ sampleDue ch k s = some (t0, period) ∧ s.field (tw 7) 0 3 = 1 ∧ Memory.wf s = true ∧
     traceTriggers ch v s = false ∧ y.samples.length < s.field (tw 4) 16 16 ∧ (y.samples.length < 15 ∨ (y.ringPos + 1) % 16 ≠ 0)) ∧
    (let c : CoreId := 0; let ch : Fin 8 := 3; let val : Word := 0x00100000; let s : State := (tr (fun x => { x with fired := true, samples := [1, 2] }) (tb 1))
     let tw (off : Nat) := traceAddr ch off
     Writes c (tw 0) s ∧ bit val 31 = false ∧ (s.field (tw 7) 0 3 = 1 ∨ s.field (tw 7) 0 3 = 2)) ∧
    (let n : Fin 24 := 20; let e0 : Nat := 999000000; let s : State := (put [(0x414A, 100)] (ev 0x20000 0))
     let x := s.loop.slots[n]
     let w (off : Nat) := slotAddr n.val off
     let g := if x.apply = none then x.gains else shadowGains n.val s
     let acc := if x.apply = some true then 0 else x.acc
     let e := saturated 32 ((s.word (w 7)).toInt - (s.word (w 0xB)).toInt)
     let A := saturated 64 (acc + g.ki.toInt * e)
     let value (A : Int) := saturated 32 (roundShift (saturated 64 (g.kp.toInt * e + A)) (bits g.cfg 16 5))
     let sat := x.satNs + (s.deviceTime.toNat - e0)
     16 ≤ n.val ∧ s.blockOut 17 = false ∧ x.ready = true ∧ s.flag (w 0) 31 = true ∧ s.modes.mode ≠ .update ∧ s.field (w 0) 20 3 = 2 ∧
     s.field (w 0) 24 3 = 0 ∧ s.flag (w 0) 30 = false ∧ x.fbStale < 4 ∧ x.stopped = false ∧ x.fresh = false ∧
     (x.apply ≠ none → limitsOrdered n s = true) ∧ x.satSaid = false ∧ x.evalAt = some e0 ∧ s.flag (w 0xD) 1 = false ∧ s.feature 20 = false ∧
     Memory.wf s = true ∧ (¬(g.omin.toInt ≤ value A ∧ value A ≤ g.omax.toInt)) ∧ sat < satLimit n s) ∧
    (let s : State := { base with blocks := Vector.replicate 25 .out }
     s.blockOut 24 = true) := by
  refine ⟨?_, ?_, ?_, ?_, ?_, ?_, ?_, ?_, ?_, ?_, ?_, ?_⟩
  · intros; simp only [Writes]; decide +kernel +zetaReduce
  · intros; simp only [Writes]; decide +kernel +zetaReduce
  · intros; simp only [Writes]; decide +kernel +zetaReduce
  · intros; simp only [Writes]; decide +kernel +zetaReduce
  · intros; decide +kernel +zetaReduce
  · intros; decide +kernel +zetaReduce
  · intros; decide +kernel +zetaReduce
  · intros; decide +kernel +zetaReduce
  · intros; decide +kernel +zetaReduce
  · intros; simp only [Writes]; decide +kernel +zetaReduce
  · intros; decide +kernel +zetaReduce
  · intros; decide +kernel +zetaReduce

/-- The hypotheses of the statement MotorAxes are met. -/
theorem witness_MotorAxes :
    (let a : AxisId := 1; let ca : BitVec 24 := 500; let cb : BitVec 24 := 600; let i : Fin 16 := 3; let la : Bool := true; let lb : Bool := true; let s : State := (aw [(0, 0x81000000)] on)
     let x := s.axes[a]
     let w (off : Nat) := axisAddr a off
     let d := (quadPhase la lb + 4 - quadPhase x.abzA x.abzB) % 4
     let t : State := after (exec (.sdmWord a ca cb) s)
     let b : AxisId := a
     let t : State := t
     let early : Prop := ∃ t, x.abzAt = some t ∧ s.clock < t + abzGap a s
     s.blockOut 16 = false ∧ s.flag (w 0) 31 = true ∧ x.point ≠ samplePoint a s ∧ s.field (w 0) 24 2 ≠ 0 ∧ s.field (w 0) 24 2 = 1 ∧
     s.flag (w 0) 12 = false ∧ (d = 2 ∨ d ≠ 0 ∧ early) ∧ s.flag (w 0) 17 = false ∧ x.wordPoint ≠ samplePoint a s ∧ Memory.wf s = true ∧
     (s.axes[b]).alignRow = 0 ∧ (s.axes[b]).start = .idle ∧ (s.axes[b]).byObs = false ∧ s.field (axisAddr b 0) 24 2 < 2 ∧
     (t.axes[b]).byObs = false ∧ sarEnds i s = true ∧ (∀ b, sarFront (ainDie i) s = some b → sarAwaits b i s = false) ∧ x.alignRow = 0 ∧
     (canStart a s = false ∨ x.start = .align ∨ x.start = .ramp ∨ x.start = .handover ∨ x.start = .retry ∨ x.start = .blind ∧
     x.rampDone = false)) ∧
    (let c : CoreId := 0; let a : AxisId := 1; let val : Word := 0xC1000000; let s : State := (aw [(0, 0x81000000)] on)
     let w (off : Nat) := axisAddr a off
     s.blockOut 16 = false ∧ Writes c (w 0) s ∧ s.flag (w 0) 31 = true ∧ s.field (w 0) 24 2 < 2 ∧ s.flag (w 0) 29 = false ∧
     (∀ j, j < 32 → j ≠ 30 → val.getLsbD j = (s.word (w 0)).getLsbD j) ∧ bit val 30 = true ∧ canAlign a (bit val 11) s = true) ∧
    (let a : AxisId := 1; let s : State := base
     let x := s.axes[a]
     let w (off : Nat) := axisAddr a off
     s.blockOut 16 = false ∧ (s.flag (w 0) 31 = false ∨ x.point = samplePoint a s) ∧
     (s.flag (w 0) 31 = false ∨ s.flag (w 0) 17 = true ∨ x.wordPoint = samplePoint a s) ∧ s.field (w 0) 24 2 ≠ 1) ∧
    (let c : CoreId := 0; let a : AxisId := 1; let la : Bool := false; let lb : Bool := true; let val : Word := 0xA1000000; let s : State := (aw [(0, 0x81000000)] on)
     let x := s.axes[a]
     let w (off : Nat) := axisAddr a off
     let d := (quadPhase la lb + 4 - quadPhase x.abzA x.abzB) % 4
     let t : State := after (exec (.axisShort c a val) s)
     let early : Prop := ∃ t, x.abzAt = some t ∧ s.clock < t + abzGap a s
     s.blockOut 16 = false ∧ s.field (w 0) 24 2 = 1 ∧ s.flag (w 0) 12 = false ∧ d ≠ 2 ∧ (d = 0 ∨ ¬early) ∧ Writes c (w 0) s ∧
     s.field (w 0) 24 2 < 2 ∧ (∀ j, j < 32 → j ≠ 29 → j ≠ 30 → val.getLsbD j = (s.word (w 0)).getLsbD j) ∧ bit val 30 = false ∧
     bit val 29 = true ∧ gatesEnabled a s = true ∧ s.flag (w 1) 17 = false ∧ s.flag (w 0) 31 = true ∧
     (t.word (w 8) = 0xFFFFFFFF ∨ (axisSpeed a s).natAbs * 10 < (t.word (w 8)).toNat * 9)) ∧
    (let c : CoreId := 0; let a : AxisId := 1; let val : Word := 0x80000000; let s : State := (ax (fun x => { x with ssiSeen := true }) on)
     let x := s.axes[a]
     let w (off : Nat) := axisAddr a off
     s.blockOut 16 = false ∧ s.flag (w 0) 31 = true ∧ x.point ≠ samplePoint a s ∧ s.field (w 0) 24 2 = 0 ∧ x.ssiOpen = false ∧
     x.ssiEdge + s.field (w 0xE) 0 8 * 1000 ≤ s.clock ∧ x.ssiSeen = true ∧ Writes c (w 0) s ∧ s.field (w 0) 24 2 < 2 ∧
     (∀ j, j < 32 → j ≠ 29 → j ≠ 30 → val.getLsbD j = (s.word (w 0)).getLsbD j) ∧ bit val 30 = false ∧ bit val 29 = false) ∧
    (let a : AxisId := 1; let s : State := (ax (fun x => { x with ssiMiss := 3 }) on)
     let x := s.axes[a]
     let w (off : Nat) := axisAddr a off
     s.blockOut 16 = false ∧ s.flag (w 0) 31 = true ∧ x.point ≠ samplePoint a s ∧ s.field (w 0) 24 2 = 0 ∧ x.ssiOpen = false ∧
     x.ssiEdge + s.field (w 0xE) 0 8 * 1000 ≤ s.clock ∧ x.ssiSeen = false ∧ x.ssiMiss = 3 ∧ x.lost = false ∧ s.modes.mode = .run) ∧
    (let a : AxisId := 1; let word : Word := 0; let crc : BitVec 6 := 0; let s : State := (ax (fun x => { x with ssiOpen := true, ssiLast := some 0x155 }) on)
     let x := s.axes[a]
     let v := ssiValue a word crc s
     s.blockOut 16 = false ∧ x.ssiOpen = true ∧ Memory.wf s = true ∧ v.2 = false ∧ x.ssiBadRun + 1 < lossN a s) ∧
    (let a : AxisId := 1; let word : Word := 0; let crc : BitVec 6 := 0; let s : State := (ax (fun x => { x with ssiOpen := true, ssiLast := some 0x155, ssiBadRun := 1 }) on)
     let x := s.axes[a]
     let v := ssiValue a word crc s
     s.blockOut 16 = false ∧ x.ssiOpen = true ∧ Memory.wf s = true ∧ v.2 = false ∧ lossN a s ≤ x.ssiBadRun + 1 ∧ x.lost = false ∧
     s.modes.mode = .run) ∧
    (let a : AxisId := 1; let word : Word := 0x150; let crc : BitVec 6 := 0; let old : Nat := 0x155; let s : State := (ax (fun x => { x with ssiOpen := true, ssiLast := some 0x155 }) on)
     let x := s.axes[a]
     let w (off : Nat) := axisAddr a off
     let v := ssiValue a word crc s
     s.blockOut 16 = false ∧ x.ssiOpen = true ∧ Memory.wf s = true ∧ v.2 = true ∧ x.ssiLast = some old ∧ s.flag (w 0) 12 = false) ∧
    (let a : AxisId := 1; let m : AlignMeasure := (am 0x20000000 (-5) 0); let s : State := (ax (fun x => { x with alignRow := 1 }) on)
     let x := s.axes[a]
     s.blockOut 16 = false ∧ x.alignRow = 1 ∧ iAlign a s ≤ 2 * (max m.ia.natAbs (max m.ib.natAbs m.ic.natAbs) : Nat) ∧ 0 < m.ia ∧ m.ib < 0) ∧
    (let a : AxisId := 1; let m : AlignMeasure := (am (-0x20000000) (-5) 0); let s : State := (bp .released (ax (fun x => { x with alignRow := 1 }) on))
     let x := s.axes[a]
     s.blockOut 16 = false ∧ x.alignRow = 1 ∧ iAlign a s ≤ 2 * (max m.ia.natAbs (max m.ib.natAbs m.ic.natAbs) : Nat) ∧ m.ia ≤ 0 ∧
     Memory.wf s = true) ∧
    (let a : AxisId := 1; let s : State := (bp .released (ax (fun x => { x with alignRow := 3 }) on))
     let x := s.axes[a]
     let past (ns : Nat) : Prop := x.alignAt + ns ≤ s.clock
     s.blockOut 16 = false ∧ x.alignRow = 3 ∧ past 20000000) ∧
    (let a : AxisId := 1; let s : State := (bp .released (ax (fun x => { x with alignRow := 8 }) on))
     let x := s.axes[a]
     let past (ns : Nat) : Prop := x.alignAt + ns ≤ s.clock
     s.blockOut 16 = false ∧ x.alignRow = 8 ∧ x.alignCode = 0 ∧ past 20000000 ∧ Memory.wf s = true) ∧
    (let a : AxisId := 1; let s : State := (bp .released (ax (fun x => { x with alignRow := 8, alignAt := 999999999 }) on))
     let x := s.axes[a]
     let past (ns : Nat) : Prop := x.alignAt + ns ≤ s.clock
     s.blockOut 16 = false ∧ x.alignRow = 8 ∧ x.alignCode = 0 ∧ ¬past 20000000) ∧
    (let a : AxisId := 1; let s : State := (bp .released (still (ax (fun x => { x with start := .align }) (aw [(0, 0x82000000)] on))))
     let x := s.axes[a]
     let w (off : Nat) := axisAddr a off
     s.blockOut 16 = false ∧ x.start = .align ∧ x.startAt + s.field (w 0x11) 0 16 * 1000000 ≤ s.clock) ∧
    (let a : AxisId := 1; let s : State := (bp .released (still (ax (fun x => { x with start := .align, startAt := 999999999 }) (aw [(0, 0x82000000)] on))))
     let x := s.axes[a]
     let w (off : Nat) := axisAddr a off
     s.blockOut 16 = false ∧ x.start = .align ∧ s.clock < x.startAt + s.field (w 0x11) 0 16 * 1000000) ∧
    (let a : AxisId := 1; let s : State := (ax (fun x => { x with start := .retry, startAt := 0 }) (aw [(0, 0x82000000), (1, 4)] on))
     let x := s.axes[a]
     let w (off : Nat) := axisAddr a off
     s.blockOut 16 = false ∧ x.start = .retry ∧ x.startAt + s.field (w 0x14) 0 16 * 1000000 ≤ s.clock ∧ x.tries ≤ s.field (w 0x13) 8 4) ∧
    (let c : CoreId := 0; let a : AxisId := 1; let val : Word := 0xA0000000; let s : State := (ax (fun x => { x with shorting := true }) (aw [(0x1C, 0x100000), (6, 1), (7, 1), (5, 0x01000100), (4, 0xFFFFFF), (3, 0x0300FFFF)] on))
     let w (off : Nat) := axisAddr a off
     let t : State := after (exec (.axisShort c a val) s)
     s.blockOut 16 = false ∧ Writes c (w 0) s ∧ s.field (w 0) 24 2 < 2 ∧
     (∀ j, j < 32 → j ≠ 29 → j ≠ 30 → val.getLsbD j = (s.word (w 0)).getLsbD j) ∧ bit val 30 = false ∧ bit val 29 = true ∧
     gatesEnabled a s = true ∧ s.flag (w 1) 17 = false ∧ s.flag (w 0) 31 = true ∧
     (¬(t.word (w 8) = 0xFFFFFFFF ∨ (axisSpeed a s).natAbs * 10 < (t.word (w 8)).toNat * 9))) ∧
    (let c : CoreId := 0; let a : AxisId := 1; let val : Word := 0xC0000000; let s : State := (bp .released (still on))
     let w (off : Nat) := axisAddr a off
     s.blockOut 16 = false ∧ Writes c (w 0) s ∧ s.flag (w 0) 31 = true ∧ s.field (w 0) 24 2 < 2 ∧ s.flag (w 0) 29 = false ∧
     (∀ j, j < 32 → j ≠ 30 → val.getLsbD j = (s.word (w 0)).getLsbD j) ∧ bit val 30 = true ∧ canAlign a (bit val 11) s = false) ∧
    (let i : Fin 16 := 2; let s : State := (on.updDie 0 fun x => { x with sarAt := 999999999 })
     s.blockOut 16 = false ∧ sarEnds i s = false) ∧
    (let a : AxisId := 1; let i : Fin 16 := 2; let s : State := (ax (fun x => { x with sarLeft := 2, holdAt := 999999000 }) on)
     let x := s.axes[a]
     s.blockOut 16 = false ∧ sarEnds i s = true ∧ sarFront (ainDie i) s = some a ∧ sarAwaits a i s = true ∧ x.sarLeft = 2) ∧
    (let a : AxisId := 1; let i : Fin 16 := 3; let code : BitVec 16 := 40000; let s : State := (ax (fun x => { x with sarLeft := 1, holdAt := 999999000 }) on)
     let x := s.axes[a]
     let w (off : Nat) := axisAddr a off
     let t : State := after (exec (.sarConversion i code) s)
     let b : AxisId := a
     let t : State := t
     s.blockOut 16 = false ∧ sarEnds i s = true ∧ sarFront (ainDie i) s = some a ∧ sarAwaits a i s = true ∧ x.sarLeft = 1 ∧
     s.flag (w 0) 12 = false ∧ Memory.wf s = true ∧ (s.axes[b]).alignRow = 0 ∧ (s.axes[b]).start = .idle ∧ (s.axes[b]).byObs = false ∧
     s.field (axisAddr b 0) 24 2 < 2 ∧ (t.axes[b]).byObs = false) ∧
    (let a : AxisId := 1; let s : State := (bp .released (still (mo 5 (aw [(0, 0x82000000)] on))))
     let x := s.axes[a]
     s.blockOut 16 = false ∧ canStart a s = true ∧ x.start = .idle ∧ x.rampDone = false ∧ Memory.wf s = true) ∧
    (let a : AxisId := 1; let s : State := (bp .released (still (mo (-5) (ax (fun x => { x with start := .blind, rampDone := true }) (aw [(0, 0x82000000)] on)))))
     let x := s.axes[a]
     s.blockOut 16 = false ∧ canStart a s = true ∧ x.start = .blind ∧ x.rampDone = true ∧ Memory.wf s = true) ∧
    (let a : AxisId := 1; let s : State := (ax (fun x => { x with start := .handover, startAt := 0 }) (aw [(0, 0x82000000), (1, 0x80000)] on))
     let x := s.axes[a]
     s.blockOut 16 = false ∧ x.start = .handover ∧ obsLocked a s = true) ∧
    (let a : AxisId := 1; let s : State := (ax (fun x => { x with start := .handover, startAt := 0 }) (aw [(0, 0x82000000), (1, 0)] on))
     let x := s.axes[a]
     let w (off : Nat) := axisAddr a off
     s.blockOut 16 = false ∧ x.start = .handover ∧ obsLocked a s = false ∧ x.startAt + s.field (w 0x14) 16 16 * 1000000 ≤ s.clock) ∧
    (let a : AxisId := 1; let s : State := (ax (fun x => { x with start := .retry, startAt := 999999999 }) (aw [(0, 0x82000000), (1, 4), (0x14, 5)] on))
     let x := s.axes[a]
     let w (off : Nat) := axisAddr a off
     s.blockOut 16 = false ∧ x.start = .retry ∧ s.clock < x.startAt + s.field (w 0x14) 0 16 * 1000000) ∧
    (let a : AxisId := 1; let s : State := (ax (fun x => { x with start := .retry, startAt := 0, tries := 9 }) (aw [(0, 0x82000000), (1, 4), (0x13, 0x100)] on))
     let x := s.axes[a]
     let w (off : Nat) := axisAddr a off
     s.blockOut 16 = false ∧ x.start = .retry ∧ x.startAt + s.field (w 0x14) 0 16 * 1000000 ≤ s.clock ∧ s.field (w 0x13) 8 4 < x.tries) := by
  refine ⟨?_, ?_, ?_, ?_, ?_, ?_, ?_, ?_, ?_, ?_, ?_, ?_, ?_, ?_, ?_, ?_, ?_, ?_, ?_, ?_, ?_, ?_, ?_, ?_, ?_, ?_, ?_, ?_⟩
  · intros; decide +kernel +zetaReduce
  · intros; simp only [Writes]; decide +kernel +zetaReduce
  · intros; decide +kernel +zetaReduce
  · intros; simp only [Writes]; decide +kernel +zetaReduce
  · intros; simp only [Writes]; decide +kernel +zetaReduce
  · intros; decide +kernel +zetaReduce
  · intros; decide +kernel +zetaReduce
  · intros; decide +kernel +zetaReduce
  · intros; decide +kernel +zetaReduce
  · intros; decide +kernel +zetaReduce
  · intros; decide +kernel +zetaReduce
  · intros; decide +kernel +zetaReduce
  · intros; decide +kernel +zetaReduce
  · intros; decide +kernel +zetaReduce
  · intros; decide +kernel +zetaReduce
  · intros; decide +kernel +zetaReduce
  · intros; decide +kernel +zetaReduce
  · intros; simp only [Writes]; decide +kernel +zetaReduce
  · intros; simp only [Writes]; decide +kernel +zetaReduce
  · intros; decide +kernel +zetaReduce
  · intros; decide +kernel +zetaReduce
  · intros; decide +kernel +zetaReduce
  · intros; decide +kernel +zetaReduce
  · intros; decide +kernel +zetaReduce
  · intros; decide +kernel +zetaReduce
  · intros; decide +kernel +zetaReduce
  · intros; decide +kernel +zetaReduce
  · intros; decide +kernel +zetaReduce

end Sys2Proof.Tests.K

namespace Sys2Proof.Tests.M

def gt (f : GateAxis → GateAxis) (s : State) : State := s.updGate 1 f
def md (m : Mode) (s : State) : State := { s with modes := { s.modes with mode := m } }
def on : State := gt (fun x => { x with fresh := true, shadow := ⟨100, 19999, 5000, 0, 0, 0⟩ }) (put [(0x4818, 0x80000032)] base)
def gg : CompareGroup := ⟨100, 200, 300, 0, 2, 3⟩
def gs (f : Gate → Gate) (s : State) : State := { s with gate := f s.gate }

/-- The hypotheses of the statement GateDrive are met. -/
theorem witness_GateDrive :
    (let c : CoreId := 0; let a : AxisId := 1; let r : TripReading := ⟨(.busUv .west), 4000, true, 100000⟩; let ch : Fin 24 := 2; let die : Die := .west; let val : Word := 0x00000002; let b : Nat := 1; let t0 : Nat := 0; let s : State := (put [(0x4800, 2)] (gs (fun x => { x with stoSince := some 0, bootHold := 1, quietAt := [((0, 1), 5)] }) on))
     let x := s.gate.axes[a]
     let k := periodIndex a s
     let die_ := axisDie a
     let on := gatesEnabled a s && !anyLatched s && !s.dies[die_].safe && !s.dies[die_].lost && decide (s.sec.jtagIr ≠ 3) && !s.blockOut 16 &&
       !s.blockOut 17 && !s.blockOut (if die_ = 0 then 18 else 19)
     let d := dieIx die
     s.blockOut 16 = false ∧ s.blockOut (gateBlock a) = false ∧ x.period ≠ some k ∧ Memory.wf s = true ∧ x.fresh = true ∧ on = false ∧
     qualifies r s = false ∧ s.gate.stoSince = some t0 ∧ t0 + 20000000 ≤ s.clock ∧ s.modes.mode = .run ∧ s.modes.held = false ∧ ch.val % 2 = 0 ∧
     s.blockOut (gateBlock (channelAxis ch)) = false ∧ s.flag (channelCfg ch) 31 = false ∧ s.gate.bootHold.getLsbD ch = false ∧
     Writes c (gateAddr d 1) s ∧ b < 28 ∧ val.toNat = 2 ^ b ∧ s.flag (gateAddr d 0) b = true ∧ quietLong d b s = true ∧ (b < 20 ∨ 26 ≤ b)) ∧
    (let c : CoreId := 0; let a : AxisId := 1; let die : Die := .west; let val : Word := 0x00000002; let s : State := (put [(0x4800, 2)] (gs (fun x => { x with stoSince := some 0, bootHold := 1, quietAt := [((0, 1), 5)] }) on))
     let ctrl := gateAxisAddr a 0
     let d := dieIx die
     Writes c ctrl s ∧ bit val 31 = false ∧ gatesEnabled a s = true ∧ starting s.axes[a] = false ∧ Writes c (gateAddr d 6) s) ∧
    (let c : CoreId := 0; let a : AxisId := 1; let r : TripReading := ⟨.stoA, 4000, true, 100000⟩; let die : Die := .west; let val : Word := 0x80000032; let s : State := base
     let src := r.src
     let ctrl := gateAxisAddr a 0
     let die_ := axisDie a
     let d := dieIx die
     s.modes.mode = .run ∧ s.modes.held = false ∧ Memory.wf s = true ∧ qualifies r s = true ∧ tripArmed src s = true ∧ s.gate.stoSince = none ∧
     Writes c ctrl s ∧ bit val 31 = true ∧ gatesEnabled a s = false ∧ (s.modes.mode = .run ∨ s.modes.mode = .degraded ∨ s.modes.mode = .stop) ∧
     anyLatched s = false ∧ hestLow s = false ∧ (∀ i, i < 6 → unitFailed .gatePin (6 * a.val + i) s = false) ∧
     s.flag (gateAddr die_ 9) 19 = false ∧ Writes c (gateAddr d 6) s ∧ s.modes.mode ≠ .hold ∧ s.modes.mode ≠ .maintenance) ∧
    (let c : CoreId := 0; let a : AxisId := 1; let die : Die := .west; let val : Word := 0x80000005; let t0 : Nat := 999990000; let s : State := (md .maintenance (gs (fun x => { x with stoSince := some 999990000 }) base))
     let ctrl := gateAxisAddr a 0
     let d := dieIx die
     s.gate.stoSince = some t0 ∧ (s.clock < t0 + 20000000 ∨ coresPowered s = false) ∧ Writes c ctrl s ∧ bit val 31 = true ∧
     gatesEnabled a s = false ∧ (anyLatched s = true ∨ hestLow s = true ∨ (s.modes.mode ≠ .run ∧ s.modes.mode ≠ .degraded ∧
     s.modes.mode ≠ .stop)) ∧ Writes c (gateAddr d 6) s ∧ (s.modes.mode = .hold ∨ s.modes.mode = .maintenance) ∧ dieEnabled 0 s = false ∧
     dieEnabled 1 s = false ∧ bits val 0 5 < 20 ∧ s.flag (gateAddr d 9) (bits val 0 5) = false ∧ s.gate.tests[d] = none) ∧
    (let a : AxisId := 1; let ch : Fin 24 := 1; let s : State := { on with blocks := Vector.replicate 25 .out }
     let x := s.gate.axes[a]
     let k := periodIndex a s
     (s.blockOut 16 = true ∨ s.blockOut (gateBlock a) = true) ∧ (s.blockOut (gateBlock a) = true ∨ x.period = some k) ∧
     (ch.val % 2 = 1 ∨ s.blockOut (gateBlock (channelAxis ch)) = true ∨ s.flag (channelCfg ch) 31 = true ∨ s.gate.bootHold.getLsbD ch = true)) ∧
    (let c : CoreId := 0; let die : Die := .west; let val : Word := 0x00000002; let b : Nat := 1; let s : State := (put [(0x4800, 2), (0x4809, 2)] (gs (fun x => { x with stoSince := some 999999999, bootHold := 1, quietAt := [((0, 1), 5)] }) on))
     let d := dieIx die
     Writes c (gateAddr d 1) s ∧ b < 28 ∧ val.toNat = 2 ^ b ∧ s.flag (gateAddr d 0) b = true ∧ quietLong d b s = false) ∧
    (let c : CoreId := 0; let die : Die := .west; let val : Word := 0x01000000; let b : Nat := 24; let s : State := (put [(0x4800, 0x01000000), (0x4C00, 0x01000000), (0x4809, 2)] (gs (fun x => { x with stoSince := some 999999999, bootHold := 1, quietAt := [((0, 1), 5)] }) on))
     let d := dieIx die
     Writes c (gateAddr d 1) s ∧ b < 28 ∧ val.toNat = 2 ^ b ∧ s.flag (gateAddr d 0) b = true ∧ quietLong d b s = true ∧ 20 ≤ b ∧ b < 26) ∧
    (let die : Die := .west; let b : Nat := 5; let t0 : Nat := 0; let n : Nat := 201; let s : State := (md .maintenance (gs (fun x => { x with tests := modAt x.tests 0 fun _ => some ⟨5, 0⟩ }) base))
     let d := dieIx die
     s.gate.tests[d] = some ⟨b, t0⟩ ∧ t0 + 10000 ≤ s.clock ∧ 200 < n) ∧
    (let die : Die := .west; let b : Nat := 5; let t0 : Nat := 999990001; let s : State := (md .maintenance (gs (fun x => { x with tests := modAt x.tests 0 fun _ => some ⟨5, 999990001⟩ }) base))
     let d := dieIx die
     s.gate.tests[d] = some ⟨b, t0⟩ ∧ s.clock < t0 + 10000) ∧
    (let die : Die := .west; let b : Nat := 5; let t0 : Nat := 999990000; let n : Nat := 200; let s : State := (md .maintenance (gs (fun x => { x with tests := modAt x.tests 0 fun _ => some ⟨5, 999990000⟩ }) base))
     let d := dieIx die
     s.gate.tests[d] = some ⟨b, t0⟩ ∧ t0 + 10000 ≤ s.clock ∧ n ≤ 200) ∧
    (let c : CoreId := 0; let die : Die := .west; let val : Word := 0x01000000; let b : Nat := 24; let s : State := (put [(0x4800, 0x00000000), (0x4C00, 0x01000000), (0x4809, 2)] (gs (fun x => { x with stoSince := some 999999999, bootHold := 1, quietAt := [((0, 1), 5)] }) on))
     let d := dieIx die
     Writes c (gateAddr d 1) s ∧ b < 28 ∧ val.toNat = 2 ^ b ∧ s.flag (gateAddr d 0) b = false) ∧
    (let r : TripReading := ⟨(.trip 2), 4000, true, 100000⟩; let s : State := (put [(0x4808, 0x40)] on)
     let src := r.src
     Memory.wf s = true ∧ qualifies r s = true ∧ (tripArmed src s = false ∨ coresPowered s = false)) := by
  refine ⟨?_, ?_, ?_, ?_, ?_, ?_, ?_, ?_, ?_, ?_, ?_, ?_⟩
  · intros; simp only [Writes]; decide +kernel +zetaReduce
  · intros; simp only [Writes]; decide +kernel +zetaReduce
  · intros; simp only [Writes]; decide +kernel +zetaReduce
  · intros; simp only [Writes]; decide +kernel +zetaReduce
  · intros; decide +kernel +zetaReduce
  · intros; simp only [Writes]; decide +kernel +zetaReduce
  · intros; simp only [Writes]; decide +kernel +zetaReduce
  · intros; decide +kernel +zetaReduce
  · intros; decide +kernel +zetaReduce
  · intros; decide +kernel +zetaReduce
  · intros; simp only [Writes]; decide +kernel +zetaReduce
  · intros; decide +kernel +zetaReduce

end Sys2Proof.Tests.M

namespace Sys2Proof.Tests.N

def md (m : Mode) (s : State) : State := { s with modes := { s.modes with mode := m } }
def ge (f : Byte) (m : Fin 8) : GroupEntry := ⟨true, m, 5, f, 77, 300, 0, 0, 0⟩
def mb (f : Byte) (m : Fin 8) (ab : Nat) : Member := ⟨1, ge f m, ab, false⟩
def bp (p : BrakePhase) (f : Bool) (since : Nat) (s : State) : State := s.updBrake 1 fun b => { b with phase := p, falling := f, since := since }
def grp (l : List Member) : State := { put [(0x5020, 0x85020000)] base with mach := { base.mach with members := l }, hol := { base.hol with slotsNew := true } }
def stp (cat : Nat) (d : Vector Bool 4) (set : Option Nat) : StopSeq := ⟨cat, .run, 0, #v[5, 6, 7, 8], d, set⟩
def inStop (st : StopSeq) (s : State) : State := md .stop { s with mach := { s.mach with stop := some st } }
def al : State := put [(0x4818, 0x80000032), (0x3841, 0x00100000), (0x5084, 0x00010021)] base
def T (s : State) : Nat := (stopLimit 1 6 s).getD 0
def m0 : Member := mb 0 0 0
def hol' (s : State) : State := { s with hol := { s.hol with slotsNew := false } }

/-- The hypotheses of the statement Machinery are met. -/
theorem witness_Machinery :
    (let c : CoreId := 0; let a : AxisId := 1; let coil : Nat := 25; let s : State := (bp .energised true 999999999 base)
     let ctrl := machAddr a 9
     let b := s.mach.brakes[a]
     let iMinimum := s.field (machAddr a 8) 8 8
     s.blockOut 20 = false ∧ ownGroups s = [] ∧ (s.modes.mode = .run ∨ s.modes.mode = .degraded) ∧ Memory.wf s = true ∧ s.blockOut 12 = false ∧
     noStart s = true ∧ Writes c 0x5081 s ∧ Writes c 0x5082 s ∧ Writes c ctrl s ∧ canRelease a s = false ∧ drivesSlots a s = false ∧
     b.phase ≠ .proving ∧ b.phase = .energised ∧ iMinimum ≤ coil ∧ (coil ≤ 120 ∨ b.phase = .set ∨ b.phase = .proving) ∧
     (b.falling = false ∨ s.clock < b.since + s.field (machAddr a 8) 16 8 * 1000000)) ∧
    (let a : AxisId := 1; let coil : Nat := 5; let t0 : Nat := (T base); let st : StopSeq := (stp 1 #v[true, false, true, true] none); let s : State := (bp .released true 0 (inStop (stp 1 #v[true, false, true, true] none) base))
     let b := s.mach.brakes[a]
     let iMinimum := s.field (machAddr a 8) 8 8
     s.mach.stop = some st ∧ st.done[a] = false ∧ standstill a st.since s = true ∧ st.cat = 1 ∧ noStart s = true ∧
     stopLimit a st.speed[a] s = some t0 ∧ st.since + t0 ≤ s.clock ∧ s.modes.mode = .stop ∧ Memory.wf s = true ∧ s.blockOut 12 = false ∧
     b.phase ≠ .energised ∧ b.falling = true ∧ b.since + s.field (machAddr a 8) 16 8 * 1000000 ≤ s.clock ∧ coil < iMinimum) ∧
    (let a : AxisId := 1; let coil : Nat := 25; let t0 : Nat := 0; let st : StopSeq := (stp 1 #v[true, true, true, true] (some 0)); let s : State := (bp .released true 0 (inStop (stp 1 #v[true, true, true, true] (some 0)) base))
     let b := s.mach.brakes[a]
     let iMinimum := s.field (machAddr a 8) 8 8
     s.mach.stop = some st ∧ (st.done[a] = true ∨ standstill a st.since s = false) ∧ st.cat = 1 ∧ st.setAt = some t0 ∧
     (∀ x : AxisId, t0 + s.field (machAddr x 8) 16 8 * 1000000 ≤ s.clock) ∧ noStart s = true ∧
     (st.done[a] = true ∨ s.field (machAddr a 4) 16 16 = 0) ∧ b.falling = true ∧ b.since + s.field (machAddr a 8) 16 8 * 1000000 ≤ s.clock ∧
     Memory.wf s = true ∧ iMinimum ≤ coil) ∧
    (let a : AxisId := 1; let g : Nat := 5; let l : Member := (mb 1 3 1); let me : Member := (mb 0 2 0); let s : State := (bp .proving true 999999999 (grp [mb 1 3 1, mb 0 2 0]))
     let slots := if s.hol.slotsNew then s.hol.slots else List.replicate 16 absentSlot
     let members := noteSlots 0 slots s.mach.members
     let b := s.mach.brakes[a]
     s.blockOut 20 = false ∧ ownGroups s = [g] ∧ groupAxes g s = [a] ∧ members = [l, me] ∧ l.entry.group.val = g ∧ me.entry.group.val = g ∧
     l.lost = false ∧ me.lost = false ∧ l.absent ≤ absentN g s ∧ me.absent ≤ absentN g s ∧ entryLeads l.entry = true ∧
     entryLeads me.entry = false ∧ entryLocks l.entry = false ∧ entryLocks me.entry = false ∧ me.entry.member.val = memberOf a s ∧
     l.entry.member ≠ me.entry.member ∧ l.entry.pos = me.entry.pos ∧ noStart s = true ∧ b.phase = .proving ∧
     s.clock < b.since + s.field (machAddr a 8) 0 8 * 1000000) ∧
    (let a : AxisId := 1; let g : Nat := 5; let l : Member := (mb 1 3 3); let coil : Nat := 5; let s : State := (bp .energised true 0 (grp [mb 1 3 3]))
     let slots := if s.hol.slotsNew then s.hol.slots else List.replicate 16 absentSlot
     let members := noteSlots 0 slots s.mach.members
     let b := s.mach.brakes[a]
     let iMinimum := s.field (machAddr a 8) 8 8
     s.blockOut 20 = false ∧ ownGroups s = [g] ∧ groupAxes g s = [a] ∧ members = [l] ∧ l.entry.group.val = g ∧ l.lost = false ∧
     absentN g s < l.absent ∧ s.modes.mode = .run ∧ s.mach.stop = none ∧ Memory.wf s = true ∧ s.blockOut 12 = false ∧ b.phase = .energised ∧
     coil < iMinimum ∧ b.since + s.field (machAddr a 8) 24 8 * 1000000 ≤ s.clock) ∧
    (let a : AxisId := 1; let t0 : Nat := (T base); let st : StopSeq := (stp 1 #v[true, false, true, true] (some (T base))); let s : State := (bp .released true 0 { inStop (stp 1 #v[true, false, true, true] (some (T base))) base with clock := 60 })
     s.mach.stop = some st ∧ st.cat = 1 ∧ st.setAt = some t0 ∧ (∃ x : AxisId, s.clock < t0 + s.field (machAddr x 8) 16 8 * 1000000) ∧
     st.done[a] = false ∧ stopLimit a st.speed[a] s = some t0 ∧ s.clock < st.since + t0) ∧
    (let s : State := { base with blocks := Vector.replicate 25 .out }
     (s.modes.mode = .run ∨ s.modes.mode = .degraded) ∧ Memory.wf s = true ∧ s.blockOut 20 = true) ∧
    (let c : CoreId := 0; let a : AxisId := 1; let s : State := al
     let b := s.mach.brakes[a]
     let ctrl := machAddr a 9
     Writes c ctrl s ∧ canRelease a s = true ∧ b.phase = .set) ∧
    (let a : AxisId := 1; let s : State := (md .degraded (bp .proving false 0 al))
     let b := s.mach.brakes[a]
     b.phase = .proving ∧ b.since + s.field (machAddr a 8) 0 8 * 1000000 ≤ s.clock) ∧
    (let a : AxisId := 1; let coil : Nat := 125; let s : State := (bp .energised true 0 base)
     let b := s.mach.brakes[a]
     120 < coil ∧ (b.phase = .energised ∨ b.phase = .released)) ∧
    (let a : AxisId := 1; let coil : Nat := 5; let s : State := (bp .energised false 999999999 base)
     let b := s.mach.brakes[a]
     let iMinimum := s.field (machAddr a 8) 8 8
     b.phase = .energised ∧ Memory.wf s = true ∧ coil < iMinimum ∧ s.clock < b.since + s.field (machAddr a 8) 24 8 * 1000000) ∧
    (let a : AxisId := 1; let st : StopSeq := (stp 2 #v[true, false, true, true] none); let s : State := (bp .released true 0 (inStop (stp 2 #v[true, false, true, true] none) base))
     s.mach.stop = some st ∧ st.done[a] = false ∧ standstill a st.since s = true ∧ st.cat = 2 ∧ (∀ x : AxisId, x ≠ a → st.done[x] = true) ∧
     st.origin = .run ∧ s.modes.degraded = false ∧ Memory.wf s = true ∧ noStart s = true) := by
  refine ⟨?_, ?_, ?_, ?_, ?_, ?_, ?_, ?_, ?_, ?_, ?_, ?_⟩
  · intros; simp only [Writes]; decide +kernel +zetaReduce
  · intros; decide +kernel +zetaReduce
  · intros; decide +kernel +zetaReduce
  · intros; decide +kernel +zetaReduce
  · intros; decide +kernel +zetaReduce
  · intros; decide +kernel +zetaReduce
  · intros; decide +kernel +zetaReduce
  · intros; simp only [Writes]; decide +kernel +zetaReduce
  · intros; decide +kernel +zetaReduce
  · intros; decide +kernel +zetaReduce
  · intros; decide +kernel +zetaReduce
  · intros; decide +kernel +zetaReduce

end Sys2Proof.Tests.N

namespace Sys2Proof.Tests.O

def pl (f : Polder → Polder) (s : State) : State := s.updPolder f
def pc (f : PolderCh → PolderCh) (s : State) : State := s.updPol 1 f
def cal0 : PolderCal := ⟨5, 6, 4194304, 4194304, 200000, 500, 2, 0, 100⟩
def on : State := pc (fun c => { c with cal := cal0, owed := 100 * mWh + 5, energy := ⟨999999999999999, 5, 2 ^ 64 - 1, 3⟩ }) { base with fuses := { base.fuses with polder := true } }
def samp (x : Int) : Fin 4 → PolderSamples := fun _ => List.replicate 3 (x, 4000000)
def fr : List (Nat × Word) := [(0x5800, 0x100), (0x5810, 77), (0x5819, 2)]

/-- The hypotheses of the statement PolderMeasurement are met. -/
theorem witness_PolderMeasurement :
    (let c : CoreId := 0; let rd : Reg := 5; let ch : Fin 4 := 1; let reg : Bool := false; let saved : Bool := true; let s : State := base
     let p := s.polder
     let x := p.chans[ch]
     polderOn s = true ∧ p.blockAt = none ∧ x.pulseAt = none ∧ (p.phase = .fail ∨ x.owed < pulseUnit x.cal) ∧ p.quarter = polderTime s / 900 ∧
     p.sentAt = none ∧ s.clock < p.saveAt + 60000000000 ∧ p.cmds = [] ∧ saved = true ∧ p.vpol = true ∧ p.frame = none ∧ windowRuns s = true ∧
     p.silent = false ∧ p.rxAt + 100000000 ≤ s.clock ∧ coreMay s = true ∧ (s.core c).locked rd = false ∧ blockAborts 21 s = false ∧ reg = false) ∧
    (let c : CoreId := 0; let rd : Reg := 5; let ch : Fin 4 := 1; let reg : Bool := true; let saved : Bool := false; let s : State := (pl (fun p => { p with quarter := 7, sentAt := some 1000000000, blockAt := some 5, cmds := [1] }) on)
     let p := s.polder
     let x := p.chans[ch]
     polderOn s = true ∧ x.pulseAt = none ∧ p.phase ≠ .fail ∧ pulseUnit x.cal ≤ x.owed ∧ p.quarter ≠ polderTime s / 900 ∧
     p.sentAt = some s.clock ∧ p.cmds = [1] ∧ saved = false ∧ coreMay s = true ∧ (s.core c).locked rd = false ∧ blockAborts 21 s = false ∧
     reg = true) ∧
    (let f : List (Nat × Word) := fr; let s : State := (pl (fun p => { p with phase := .fail, cmds := [2], saveAt := 999999999, frame := some fr }) on)
     let p := s.polder
     polderOn s = true ∧ p.cmds = [2] ∧ p.frame = some f ∧ windowRuns s = true ∧ Memory.wf s = true ∧ (f.map (·.1)).Nodup ∧
     (∀ w ∈ f, 0x5800 ≤ w.1 ∧ w.1 < 0x5840)) ∧
    (let s : State := (pl (fun p => { p with cmds := [3], vpol := false }) on)
     let p := s.polder
     polderOn s = false ∧ s.fuses.polder = true ∧ p.vpol = false) ∧
    (let s : State := { on with modes := { base.modes with mode := .standby } }
     let p := s.polder
     (windowRuns s = false ∨ p.silent = true ∨ s.clock < p.rxAt + 100000000) ∧ coreMay s = false) ∧
    (let s : State := (pl (fun p => { p with cmds := [3] }) on)
     let p := s.polder
     polderOn s = true ∧ p.cmds = [3]) ∧
    (let s : State := { on with clock := 100000000000 }
     let p := s.polder
     polderOn s = true ∧ p.saveAt + 60000000000 ≤ s.clock) := by
  refine ⟨?_, ?_, ?_, ?_, ?_, ?_, ?_⟩
  · intros; decide +kernel +zetaReduce
  · intros; decide +kernel +zetaReduce
  · intros; decide +kernel +zetaReduce
  · intros; decide +kernel +zetaReduce
  · intros; decide +kernel +zetaReduce
  · intros; decide +kernel +zetaReduce
  · intros; decide +kernel +zetaReduce

/-- The hypotheses of the statement PolderLegal are met. -/
theorem witness_PolderLegal :
    (let ch : Fin 4 := 1; let param : Fin 16 := 3; let val : Int := (-77); let password : Nat := 0; let s : State := (pl (fun p => { p with prog := true, calen := true, lockAt := some 5 }) { on with clock := 4000000000000 })
     let p := s.polder
     polderOn s = true ∧ progLocked s = false ∧ password = p.p1 ∧ p.lockAt.isSome ∧ calOpen s = true ∧ p.log.length < 1024 ∧ param.val < 9 ∧
     calValue param.val val (p.chans[ch]).cal = none ∧ p.prog = true ∧ p.phase ≠ .fail ∧ p.calen = true ∧ s.fuses.polder = true ∧
     s.clock < p.identAt + 86400000000000) ∧
    (let password : Nat := 4; let s : State := base
     let p := s.polder
     polderOn s = true ∧ progLocked s = false ∧ password ≠ p.p1 ∧ p.wrong < 2 ∧ calOpen s = false ∧ (p.prog = false ∨ p.phase = .fail) ∧
     p.calen = false ∧ p.log.length < 1024) ∧
    (let param : Fin 16 := 9; let val : Int := 77; let password : Nat := 4; let s : State := (pl (fun p => { p with prog := true, calen := true, lockAt := some 5, wrong := 2 }) { on with clock := 4000000000000 })
     let p := s.polder
     polderOn s = true ∧ progLocked s = false ∧ password ≠ p.p1 ∧ 2 ≤ p.wrong ∧ p.log.length < 1024 ∧ calOpen s = true ∧ param.val = 9 ∧ 0 ≤ val ∧
     val < 100000000) ∧
    (let param : Fin 16 := 15; let intact : Bool := false; let s : State := (pl (fun p => { p with prog := true, calen := true, phase := .unsealed, lockAt := some 1, stored := 0 }) { on with clock := 86400000000000 })
     let p := s.polder
     let crc := (if intact then Config.polderCrc (calParams s) else Config.polderBadCrc (calParams s)) % 65536
     calOpen s = true ∧ p.log.length < 1024 ∧ param.val = 15 ∧ polderOn s = true ∧ p.identAt + 86400000000000 ≤ s.clock ∧
     (p.phase ≠ .sealed ∨ crc = p.stored)) ∧
    (let ch : Fin 4 := 1; let param : Fin 16 := 3; let val : Int := 77; let cal : PolderCal := { cal0 with gainI := 77 }; let s : State := (pl (fun p => { p with prog := true, calen := true }) on)
     let p := s.polder
     calOpen s = true ∧ p.log.length < 1024 ∧ param.val < 9 ∧ calValue param.val val (p.chans[ch]).cal = some cal) ∧
    (let s : State := (pl (fun p => { p with prog := true, calen := true, phase := .sealed, lockAt := some 1, stored := (Config.polderBadCrc (calParams on) % 65536 + 1) % 65536 }) on)
     polderOn s = true ∧ progLocked s = true) ∧
    (let intact : Bool := false; let s : State := (pl (fun p => { p with prog := true, calen := true, phase := .sealed, lockAt := some 1, stored := (Config.polderBadCrc (calParams on) % 65536 + 1) % 65536 }) { on with clock := 86400000000000 })
     let p := s.polder
     let crc := (if intact then Config.polderCrc (calParams s) else Config.polderBadCrc (calParams s)) % 65536
     (polderOn s = true ∧ p.identAt + 86400000000000 ≤ s.clock ∧ p.phase = .sealed ∧ p.log.length < 1024) ∧ crc ≠ p.stored) := by
  refine ⟨?_, ?_, ?_, ?_, ?_, ?_, ?_⟩
  · intros; decide +kernel +zetaReduce
  · intros; decide +kernel +zetaReduce
  · intros; decide +kernel +zetaReduce
  · intros; decide +kernel +zetaReduce
  · intros; decide +kernel +zetaReduce
  · intros; decide +kernel +zetaReduce
  · intros; exact ⟨by decide +kernel +zetaReduce, by
      show Config.polderBadCrc (calParams on) % 65536 ≠ (Config.polderBadCrc (calParams on) % 65536 + 1) % 65536
      omega⟩

end Sys2Proof.Tests.O

namespace Sys2Proof.Tests.P

def tw (f : TwoWire → TwoWire) (s : State) : State := s.updTw 1 f
def cfg (v : Word) : State := put [(0x5D00, v), (0x5D05, 0)] base
def ctl : State := cfg 0xC1191004
def tgt : State := put [(0x5D01, 16)] (cfg 0xA1191004)
def xf : TwTransfer := ⟨0x22, 1, 3, true, true⟩
def nt (tries : Nat) : TwNotice := ⟨0x77, tries, false, true⟩

/-- The hypotheses of the statement TwoWireBus are met. -/
theorem witness_TwoWireBus :
    (let c : CoreId := 0; let i : Fin 3 := 1; let val : Word := 0x00000000; let s : State := base
     let w (off : Nat) := twAddr i off
     let u := s.tw[i]
     Writes c (w 4) s ∧ bit val 31 = false ∧ twBoots i s = false ∧ twTarget i s = false ∧ u.report = none ∧ Writes c (w 3) s ∧
     bit val 16 = false ∧ (twRuns i s = false ∨ s.flag (w 0) 28 = true) ∧ Writes c (w 6) s ∧ u.xfer = none ∧ u.notice = none ∧
     twController i s = false ∧ twRuns i s = false) ∧
    (let c : CoreId := 0; let i : Fin 3 := 1; let val : Word := 0x80223000; let s : State := ctl
     let u := s.tw[i]
     let w (off : Nat) := twAddr i off
     Writes c (w 4) s ∧ bit val 31 = true ∧ (u.xfer.isSome ∨ 32 < bits val 8 6 ∨ 32 < bits val 0 6) ∧ twRuns i s = true ∧
     s.flag (w 0) 28 = false ∧ u.xfer = none ∧ u.notice = none ∧ Writes c (w 6) s ∧ twController i s = true ∧ Memory.wf s = true ∧
     twBusy i s = false) ∧
    (let i : Fin 3 := 1; let x : TwTransfer := xf; let s : State := (tw (fun x => { x with xfer := some xf }) ctl)
     let u := s.tw[i]
     let unheard := anyHolds (224 + i.val) false s = false
     let w (off : Nat) := twAddr i off
     u.xfer = some x ∧ x.started = true ∧ u.notice = none ∧ unheard ∧ Memory.wf s = true ∧ x.rlen ≤ 1 ∧ x.wlen ≤ 32 ∧ x.pec = true ∧ x.rlen = 1 ∧
     twRuns i s = true ∧ s.flag (w 0) 28 = false) ∧
    (let i : Fin 3 := 1; let ptr : Byte := 16; let s : State := (put [(0x5D05, 0x10000000)] tgt)
     let u := s.tw[i]
     let w (off : Nat) := twAddr i off
     twBoots i s = false ∧ twTarget i s = true ∧ u.xfer = none ∧ u.notice = none ∧ Memory.wf s = true ∧ anyHolds (227 + i.val) false s = false ∧
     ptr.toNat < twWindow i s ∧ s.field (w 1) 0 9 ≤ ptr.toNat ∧ twRuns i s = true ∧ twBusy i s = true) ∧
    (let c : CoreId := 0; let i : Fin 3 := 1; let val : Word := 0x00017777; let n : TwNotice := (nt 1); let s : State := (tw (fun x => { x with notice := some (nt 1), freeAt := 0 }) ctl)
     let u := s.tw[i]
     let w (off : Nat) := twAddr i off
     Writes c (w 3) s ∧ bit val 16 = true ∧ (s.agreed.getLsbD 18 = false ∨ u.notice.isSome) ∧ u.notice = some n ∧ n.retry = true ∧
     twBusy i s = false ∧ twController i s = true ∧ u.xfer = none ∧ Memory.wf s = true ∧ u.freeAt + 1000000 ≤ s.clock ∧ n.tries < 3 ∧
     n.onBus = false) ∧
    (let c : CoreId := 0; let i : Fin 3 := 1; let val : Word := 0x80220103; let s : State := ctl
     let u := s.tw[i]
     let w (off : Nat) := twAddr i off
     Writes c (w 4) s ∧ bit val 31 = true ∧ u.xfer = none ∧ bits val 8 6 ≤ 32 ∧ bits val 0 6 ≤ 32 ∧ twController i s = true ∧ twBusy i s = false ∧
     (bit val 30 = false ∨ bits val 8 6 ≠ 0)) ∧
    (let i : Fin 3 := 1; let ptr : Byte := 6; let s : State := tgt
     let u := s.tw[i]
     let w (off : Nat) := twAddr i off
     twBoots i s = false ∧ twTarget i s = true ∧ u.xfer = none ∧ u.notice = none ∧ Memory.wf s = true ∧ anyHolds (227 + i.val) false s = false ∧
     ptr.toNat < twWindow i s ∧ ptr.toNat < s.field (w 1) 0 9) ∧
    (let i : Fin 3 := 1; let first : Nat := 3; let stop : Nat := 5; let wide : Bool := true; let s : State := (tw (fun x => { x with report := some (3, 5, true) }) tgt)
     let u := s.tw[i]
     s.blockOut 22 = false ∧ u.report = some (first, stop, wide) ∧ s.field 0x0409 0 8 ≠ 227 + i.val ∧ 0 < s.credits (227 + i.val) 22) ∧
    (let i : Fin 3 := 1; let first : Nat := 3; let stop : Nat := 5; let wide : Bool := true; let s : State := ((tw (fun x => { x with report := some (3, 5, true) }) tgt).setQueue 228 (List.replicate 64 ⟨22, 0⟩))
     let u := s.tw[i]
     s.blockOut 22 = false ∧ u.report = some (first, stop, wide) ∧ s.field 0x0409 0 8 ≠ 227 + i.val ∧ s.credits (227 + i.val) 22 = 0) ∧
    (let c : CoreId := 0; let i : Fin 3 := 1; let val : Word := 0x00017777; let s : State := ctl
     let u := s.tw[i]
     let w (off : Nat) := twAddr i off
     Writes c (w 3) s ∧ bit val 16 = true ∧ s.agreed.getLsbD 18 = true ∧ u.notice = none ∧ u.xfer = none ∧ twController i s = true ∧
     twBusy i s = false) ∧
    (let i : Fin 3 := 1; let n : TwNotice := (nt 3); let s : State := (tw (fun x => { x with notice := some (nt 3), freeAt := 0 }) ctl)
     let u := s.tw[i]
     u.notice = some n ∧ n.retry = true ∧ twBusy i s = false ∧ twController i s = true ∧ u.xfer = none ∧ Memory.wf s = true ∧
     u.freeAt + 1000000 ≤ s.clock ∧ 3 ≤ n.tries) ∧
    (let i : Fin 3 := 1; let n : TwNotice := (nt 3); let s : State := (tw (fun x => { x with notice := some (nt 3), freeAt := 999000001 }) ctl)
     let u := s.tw[i]
     u.notice = some n ∧ n.retry = true ∧ twBusy i s = false ∧ twController i s = true ∧ u.xfer = none ∧ Memory.wf s = true ∧
     s.clock < u.freeAt + 1000000) := by
  refine ⟨?_, ?_, ?_, ?_, ?_, ?_, ?_, ?_, ?_, ?_, ?_, ?_⟩
  · intros; simp only [Writes]; decide +kernel +zetaReduce
  · intros; simp only [Writes]; decide +kernel +zetaReduce
  · intros; decide +kernel +zetaReduce
  · intros; decide +kernel +zetaReduce
  · intros; simp only [Writes]; decide +kernel +zetaReduce
  · intros; simp only [Writes]; decide +kernel +zetaReduce
  · intros; decide +kernel +zetaReduce
  · intros; decide +kernel +zetaReduce
  · intros; decide +kernel +zetaReduce
  · intros; simp only [Writes]; decide +kernel +zetaReduce
  · intros; decide +kernel +zetaReduce
  · intros; decide +kernel +zetaReduce

/-- The hypotheses of the statement FaultRecordWords are met. -/
theorem witness_FaultRecordWords :
    (let c : CoreId := 0; let s : State := base
     Writes c 0x6403 s ∧ Writes c 0x6408 s) := by
  intros; simp only [Writes]; decide +kernel +zetaReduce

end Sys2Proof.Tests.P

namespace Sys2Proof.Tests.Q



/-- The hypotheses of the statement IdleStep are met. -/
theorem witness_IdleStep :
    (let s : State := base
     s.pending = [] ∧ s.clockLost.getLsbD 0 = false ∧ s.clockLost.getLsbD 1 = false) ∧
    (let s : State := { base with clockLost := 1 }
     s.pending = [] ∧ (s.clockLost.getLsbD 0 = true ∨ s.clockLost.getLsbD 1 = true)) := by
  refine ⟨?_, ?_⟩
  · intros; decide +kernel +zetaReduce
  · intros; decide +kernel +zetaReduce

end Sys2Proof.Tests.Q
end

section
/-! SUPPORT. An instruction that changes its core alone, said once: the state in which it takes effect, and what it leaves (R76, R112, R128). -/
namespace Sys2Proof.Machine

open Host (Outcome)

variable {c : CoreId} {s t : State} {uses : List Reg} {word : Word}

/-! ### The frame of an instruction -/

/-- The fetch of core c has succeeded: its wait for its first bank is over (R255). -/
def State.fetched (s : State) (c : CoreId) : State := s.updCore c fun k => { k with entryWait := false }

@[simp] theorem core_fetched : (s.fetched c).core c = { s.core c with entryWait := false } := core_updCore ..

theorem fetched_reg (r : Reg) : ((s.fetched c).core c).reg r = (s.core c).reg r := by
  rw [core_fetched]
  rfl

theorem fetched_pc : ((s.fetched c).core c).pc = (s.core c).pc := by rw [core_fetched]

theorem Runs.running (h : Runs c uses s) : (s.core c).status = .running := h.1

theorem Runs.step_off (h : Runs c uses s) : (s.core c).step = false := h.2.2.1

/-- A core that runs an instruction of some registers runs one of fewer. -/
theorem Runs.mono {fewer : List Reg} (h : Runs c uses s) (hsub : fewer ⊆ uses) : Runs c fewer s := by
  obtain ⟨hrun, hcs, hstep, howns, hparity, hfree⟩ := h
  exact ⟨hrun, hcs, hstep, howns, hparity, fun r hr => hfree r (hsub hr)⟩

/-- An instruction of a core that runs takes effect on the state of its fetch. -/
theorem plain_fetched (h : Runs c uses s) (body : State → State) :
    plain c false uses word body s = stepped c (body (s.fetched c)) := plain_runs c uses word body s h

/-- An effect on the core alone. -/
theorem stepped_updCore {f g : Core → Core} (hfg : f { s.core c with entryWait := false } = g (s.core c))
    (hstep : (g (s.core c)).step = false) : stepped c ((s.fetched c).updCore c f) = s.updCore c g := by
  have he : (s.fetched c).updCore c f = s.updCore c g := (updCore_updCore ..).trans (updCore_congr _ _ _ _ hfg)
  rw [he]
  exact stepped_off c _ (by simpa using hstep)

/-- A change of the core that leaves its PC and its step, and goes on at the next word. -/
theorem stepped_finish {f g : Core → Core} (hfg : f { s.core c with entryWait := false } = { g (s.core c) with entryWait := false })
    (hpc : (g (s.core c)).pc = (s.core c).pc) (hstep : (g (s.core c)).step = false) :
    stepped c (finish c f (s.fetched c)) = s.did c g :=
  stepped_updCore (by rw [hfg]; simp only [Core.next, hpc]) hstep

/-- An instruction of a core that runs, with such a change. -/
theorem plain_did {f g : Core → Core} (h : Runs c uses s)
    (hfg : f { s.core c with entryWait := false } = { g (s.core c) with entryWait := false })
    (hpc : (g (s.core c)).pc = (s.core c).pc) (hstep : (g (s.core c)).step = false) :
    plain c false uses word (finish c f) s = s.did c g :=
  (plain_fetched h _).trans (stepped_finish hfg hpc hstep)

theorem setReg_entryWait (k : Core) (r : Reg) (v : Word) (w : Bool) :
    { k with entryWait := w }.setReg r v = { k.setReg r v with entryWait := w } := by
  unfold Core.setReg
  split <;> rfl

theorem setPair_entryWait (k : Core) (r : Reg) (v : DWord) (w : Bool) :
    { k with entryWait := w }.setPair r v = { k.setPair r v with entryWait := w } := by
  simp only [Core.setPair, setReg_entryWait]

/-- An instruction that writes a register and nothing else. -/
theorem plain_setReg (h : Runs c uses s) (rd : Reg) (v : Word) :
    plain c false uses word (finish c fun k => k.setReg rd v) s = s.did c fun k => k.setReg rd v :=
  plain_did h (setReg_entryWait ..) (setReg_pc ..) ((setReg_step ..).trans h.step_off)

/-- An instruction that writes a register and flags; T and LATE stay. -/
theorem plain_wrote (h : Runs c uses s) {φ : Core → Word × Flags} {rd : Reg} {v : Word} {z n cf vf : Bool}
    (hφ : φ { s.core c with entryWait := false } = (v, ⟨z, n, cf, vf, (s.core c).f.t, (s.core c).f.late⟩)) :
    plain c false uses word (finish c fun k => { k.setReg rd (φ k).1 with f := (φ k).2 }) s = s.wrote c rd v z n cf vf :=
  plain_did h (by rw [hφ, setReg_entryWait]) (setReg_pc ..) ((setReg_step ..).trans h.step_off)

/-- An instruction that writes a pair and flags; T and LATE stay. -/
theorem plain_wrotePair (h : Runs c uses s) {φ : Core → DWord × Flags} {rd : Reg} {v : DWord} {z n cf vf : Bool}
    (hφ : φ { s.core c with entryWait := false } = (v, ⟨z, n, cf, vf, (s.core c).f.t, (s.core c).f.late⟩)) :
    plain c false uses word (finish c fun k => { k.setPair rd (φ k).1 with f := (φ k).2 }) s = s.wrotePair c rd v z n cf vf :=
  plain_did h (by rw [hφ, setPair_entryWait]) (setPair_pc ..) ((setPair_step ..).trans h.step_off)

/-- An instruction that writes flags alone; T and LATE stay. -/
theorem plain_flags (h : Runs c uses s) {φ : Core → Word × Flags} {v : Word} {z n cf vf : Bool}
    (hφ : φ { s.core c with entryWait := false } = (v, ⟨z, n, cf, vf, (s.core c).f.t, (s.core c).f.late⟩)) :
    plain c false uses word (finish c fun k => { k with f := (φ k).2 }) s = s.wrote c 0 0 z n cf vf :=
  plain_did h (by rw [hφ]; rfl) rfl h.step_off

/-! ### The forms of the data instructions -/

/-- A three-register operation gives what its flag computation gives. -/
theorem aluA_wrote {op : Nat} {rd ra rb : Reg} {f : Flags → Word → Word → Word × Flags} {v : Word} {z n cf vf : Bool}
    (h : Runs c [rd, ra, rb] s)
    (hf : f (s.core c).f ((s.core c).reg ra) ((s.core c).reg rb) = (v, ⟨z, n, cf, vf, (s.core c).f.t, (s.core c).f.late⟩)) :
    aluA op c rd ra rb f s = s.wrote c rd v z n cf vf :=
  plain_wrote h (φ := fun k => f k.f (k.reg ra) (k.reg rb)) hf

/-- An operation with a legal immediate likewise. -/
theorem aluB_wrote {op : Nat} {rd ra : Reg} {imm : BitVec 18} {f : Flags → Word → Word × Flags} {v : Word} {z n cf vf : Bool}
    (h : Runs c [rd, ra] s)
    (hf : f (s.core c).f ((s.core c).reg ra) = (v, ⟨z, n, cf, vf, (s.core c).f.t, (s.core c).f.late⟩)) :
    aluB op c rd ra imm false f s = s.wrote c rd v z n cf vf :=
  plain_wrote h (φ := fun k => f k.f (k.reg ra)) hf

/-- A shift by an immediate below 32 likewise. -/
theorem aluShift_wrote {op : Nat} {rd ra : Reg} {imm : BitVec 18} {f : Flags → Word → Nat → Word × Flags} {v : Word} {z n cf vf : Bool}
    (h : Runs c [rd, ra] s) (hi : imm.toNat < 32)
    (hf : f (s.core c).f ((s.core c).reg ra) imm.toNat = (v, ⟨z, n, cf, vf, (s.core c).f.t, (s.core c).f.late⟩)) :
    aluShift op c rd ra imm f s = s.wrote c rd v z n cf vf := by
  unfold aluShift
  rw [Nat.mod_eq_of_lt hi, decide_eq_false (Nat.not_le.2 hi)]
  exact aluB_wrote h hf

/-- An even register names a pair (R114). -/
theorem oddPair_even {r : Reg} (h : r.val % 2 = 0) : oddPair r = false := by simp [oddPair, h]

/-- A multiply-accumulate into a pair likewise. -/
theorem aluMac_wrote {op : Nat} {rd ra rb : Reg} {f : Flags → DWord → Word → Word → DWord × Flags} {v : DWord} {z n cf vf : Bool}
    (h : Runs c [rd, rd + 1, ra, rb] s) (heven : rd.val % 2 = 0)
    (hf : f (s.core c).f ((s.core c).pair rd) ((s.core c).reg ra) ((s.core c).reg rb) =
      (v, ⟨z, n, cf, vf, (s.core c).f.t, (s.core c).f.late⟩)) :
    aluMac op c rd ra rb f s = s.wrotePair c rd v z n cf vf := by
  unfold aluMac
  rw [oddPair_even heven]
  exact plain_wrotePair h (φ := fun k => f k.f (k.pair rd) (k.reg ra) (k.reg rb)) hf

/-- The extract of a pair by a legal amount likewise. -/
theorem execExtq_wrote {rd ra : Reg} {imm : BitVec 18} {v : Word} {z n cf vf : Bool} (h : Runs c [rd, ra, ra + 1] s)
    (heven : ra.val % 2 = 0) (hi : imm.toNat < 64)
    (hf : extqFlags (s.core c).f ((s.core c).pair ra) imm.toNat = (v, ⟨z, n, cf, vf, (s.core c).f.t, (s.core c).f.late⟩)) :
    execExtq c rd ra imm s = .next (s.wrote c rd v z n cf vf) := by
  unfold execExtq
  rw [Nat.mod_eq_of_lt hi, oddPair_even heven, decide_eq_false (Nat.not_le.2 hi), Bool.or_false]
  exact congrArg Outcome.next (plain_wrote h (φ := fun k => extqFlags k.f (k.pair ra) imm.toNat) hf)

/-! ### Traps of an instruction -/

/-- Core c of a state is that of another but for its latched events. -/
def SameButEvents (c : CoreId) (s t : State) : Prop := ∃ e, t.core c = { s.core c with events := e }

theorem SameButEvents.refl : SameButEvents c s s := ⟨(s.core c).events, rfl⟩

/-- A recorded fault changes no more of a core than its events (R535). -/
theorem SameButEvents.record (h : SameButEvents c s t) (code unit data : Nat) : SameButEvents c s (record code unit data t) := by
  obtain ⟨e, he⟩ := h
  exact ⟨setBit e 23 true, by rw [core_record, he]⟩

/-- A synchronous cause of an instruction of core c, outside a handler, is the trap (R96). -/
theorem stepped_syncTrap (hst : SameButEvents c s t) (hrun : (s.core c).status = .running) (hstep : (s.core c).step = false)
    (ht : (s.core c).f.t = false) (cause : Nat) (lo hi : Word) :
    stepped c (syncTrap c cause (s.core c).pc lo hi (t.fetched c)) = t.trapped c (BitVec.ofNat 4 cause) lo hi := by
  obtain ⟨e, he⟩ := hst
  rw [syncTrap_enters c cause _ lo hi (by simpa [he] using ht)]
  exact stepped_updCore (by simp [he, hrun, State.fetched]) (by simpa [he] using hstep)

end Sys2Proof.Machine
end

section
/-! SUPPORT. What the flag computations give (Table 5.4), in the arithmetic of the rules: carries as bits beyond the word, overflow as a
result that differs from the exact value, saturation as a limit (R117, R118). -/
namespace Sys2Proof.Machine

/-! ### Carry and overflow -/

/-- V of a sum: the exact sum of the signed values is not the result. -/
theorem add_overflow (a b : Word) :
    ((a.msb == b.msb) && ((a + b).msb != a.msb)) = decide (a.toInt + b.toInt ≠ (a + b).toInt) := by
  have ha := a.isLt
  have hb := b.isLt
  rw [Bool.eq_iff_iff]
  simp only [BitVec.msb_eq_decide, BitVec.toInt_eq_toNat_cond, BitVec.toNat_add, Bool.and_eq_true, beq_iff_eq, bne_iff_ne, ne_eq,
    decide_eq_true_eq, decide_eq_decide]
  omega

/-- V of a difference: the exact difference of the signed values is not the result. -/
theorem sub_overflow (a b : Word) :
    ((a.msb != b.msb) && ((a - b).msb != a.msb)) = decide (a.toInt - b.toInt ≠ (a - b).toInt) := by
  have ha := a.isLt
  have hb := b.isLt
  rw [Bool.eq_iff_iff]
  simp only [BitVec.msb_eq_decide, BitVec.toInt_eq_toNat_cond, BitVec.toNat_sub, Bool.and_eq_true, bne_iff_ne, ne_eq,
    decide_eq_true_eq, decide_eq_decide]
  omega

/-- C of a left shift: bit 32 of the operand shifted in a wider word. -/
theorem shl_carry (a : Word) (n : Nat) :
    (decide (n ≤ 32) && a.getLsbD (32 - n)) = ((a.setWidth 96 : BitVec 96) <<< n).getLsbD 32 := by
  rw [BitVec.getLsbD_shiftLeft, BitVec.getLsbD_setWidth]
  by_cases h : n ≤ 32
  · simp [h, show 32 - n < 96 by omega]
  · simp [h]

/-- C of a right shift with zero fill: the last bit out of the operand extended with zeros. -/
theorem shr_carry (a : Word) (n : Nat) (h : n < 64) : a.getLsbD (n - 1) = (a.setWidth 96 : BitVec 96).getLsbD (n - 1) := by
  rw [BitVec.getLsbD_setWidth]
  simp [show n - 1 < 96 by omega]

/-- C of a right shift with sign fill: the last bit out of the operand extended with its sign. -/
theorem sar_carry (a : Word) (n : Nat) (h : n < 64) :
    (if n ≤ 32 then a.getLsbD (n - 1) else a.msb) = (a.signExtend 96 : BitVec 96).getLsbD (n - 1) := by
  rw [BitVec.getLsbD_signExtend]
  by_cases hn : n ≤ 32
  · simp [hn, show n - 1 < 96 by omega, show n - 1 < 32 by omega]
  · simp [hn, show n - 1 < 96 by omega, show ¬n - 1 < 32 by omega]

/-- A right shift with sign fill is the division of the signed value, rounded down. -/
theorem sshiftRight_eq_ofInt_div (a : Word) (n : Nat) : a.sshiftRight n = BitVec.ofInt 32 (a.toInt / 2 ^ n) := by
  rw [BitVec.sshiftRight_eq, Int.shiftRight_eq_div_pow]
  push_cast
  rfl

/-! ### Saturation -/

theorem satS_eq_saturated (n : Nat) (x : Int) : satS n x = saturated n x := by
  have := Nat.two_pow_pos (n - 1)
  unfold satS saturated clampI
  generalize 2 ^ (n - 1) = m at *
  split
  · omega
  · split <;> omega

/-- A value lies outside the range where saturation changes it. -/
theorem saturated_ne (n : Nat) (x : Int) : decide (saturated n x ≠ x) = saturates n x := by
  have := Nat.two_pow_pos (n - 1)
  unfold saturates saturated
  generalize 2 ^ (n - 1) = m at *
  rw [Bool.eq_iff_iff]
  simp only [Bool.or_eq_true, decide_eq_true_eq, ne_eq]
  omega

/-- A value lies outside the range where wrapping changes it. -/
theorem toInt_ofInt_ne (n : Nat) (hn : 0 < n) (x : Int) : decide ((BitVec.ofInt n x).toInt ≠ x) = saturates n x := by
  have lo := BitVec.le_toInt (BitVec.ofInt n x)
  have hi := BitVec.toInt_lt (x := BitVec.ofInt n x)
  have fits := BitVec.toInt_ofInt_eq_self hn (n := x)
  unfold saturates
  push_cast
  rw [Bool.eq_iff_iff]
  simp only [Bool.or_eq_true, decide_eq_true_eq, ne_eq]
  generalize (2 : Int) ^ (n - 1) = m at *
  constructor
  · intro hne
    exact Decidable.byContradiction fun hin => hne (fits (by omega) (by omega))
  · omega

/-! ### Values with their flags -/

variable (f : Flags)

theorem addFlags_eq (a b : Word) : addFlags f a b = (a + b,
    ⟨decide (a + b = 0), (a + b).msb, decide (2 ^ 32 ≤ a.toNat + b.toNat), decide (a.toInt + b.toInt ≠ (a + b).toInt), f.t, f.late⟩) := by
  simp only [addFlags, Flags.nz, add_overflow]

theorem subFlags_eq (a b : Word) : subFlags f a b = (a - b,
    ⟨decide (a - b = 0), (a - b).msb, decide (b.toNat ≤ a.toNat), decide (a.toInt - b.toInt ≠ (a - b).toInt), f.t, f.late⟩) := by
  simp only [subFlags, Flags.nz, sub_overflow]

theorem logicFlags_eq (v : Word) : logicFlags f v = (v, ⟨decide (v = 0), v.msb, f.c, f.v, f.t, f.late⟩) := rfl

theorem shlFlags_eq (a : Word) (n : Nat) : shlFlags f a n = (a <<< n,
    ⟨decide (a <<< n = 0), (a <<< n).msb, if n = 0 then f.c else ((a.setWidth 96 : BitVec 96) <<< n).getLsbD 32, f.v, f.t, f.late⟩) := by
  simp only [shlFlags, Flags.nz, shl_carry]

theorem shrFlags_eq (a : Word) (n : Nat) (h : n < 64) : shrFlags f a n = (a >>> n,
    ⟨decide (a >>> n = 0), (a >>> n).msb, if n = 0 then f.c else (a.setWidth 96 : BitVec 96).getLsbD (n - 1), f.v, f.t, f.late⟩) := by
  simp only [shrFlags, Flags.nz, shr_carry a n h]

theorem sarFlags_eq (a : Word) (n : Nat) (h : n < 64) : sarFlags f a n = (BitVec.ofInt 32 (a.toInt / 2 ^ n),
    ⟨decide (BitVec.ofInt 32 (a.toInt / 2 ^ n) = 0), (BitVec.ofInt 32 (a.toInt / 2 ^ n)).msb,
      if n = 0 then f.c else (a.signExtend 96 : BitVec 96).getLsbD (n - 1), f.v, f.t, f.late⟩) := by
  simp only [sarFlags, Flags.nz, sar_carry a n h, sshiftRight_eq_ofInt_div]

theorem satFlags_eq (x : Int) : satFlags f x = (BitVec.ofInt 32 (saturated 32 x),
    ⟨decide (BitVec.ofInt 32 (saturated 32 x) = 0), (BitVec.ofInt 32 (saturated 32 x)).msb, f.c, saturates 32 x, f.t, f.late⟩) := by
  simp only [satFlags, Flags.nz, wordOf, satS_eq_saturated, saturated_ne]

/-- MULQ: the product over 2³¹, rounded half up and saturated (R118). -/
theorem mulqFlags_eq (a b : Word) : mulqFlags f a b = satFlags f ((a.toInt * b.toInt + 2 ^ 30) / 2 ^ 31) := by
  simp only [mulqFlags, roundShift, Int.shiftRight_eq_div_pow]
  rfl

/-- EXTQ: half of the last place is added to the pair, wrapping, and the sum divided and saturated (R118). -/
theorem extqFlags_eq (p : DWord) (imm : BitVec 18) : extqFlags f p imm.toNat =
    satFlags f ((p + if imm = 0 then 0 else BitVec.ofNat 64 (2 ^ (imm.toNat - 1))).toInt / 2 ^ imm.toNat) := by
  by_cases hzero : imm = 0
  · subst hzero
    simp [extqFlags]
  · have hpos : imm.toNat ≠ 0 := fun h => hzero (BitVec.eq_of_toNat_eq h)
    simp only [extqFlags, hzero, hpos, if_false, Int.shiftRight_eq_div_pow]
    push_cast
    rfl

theorem pairFlags_eq (v : DWord) : (v, f.nz64 v) = (v, ⟨decide (v = 0), v.msb, f.c, f.v, f.t, f.late⟩) := rfl

theorem macFlags_eq (p : DWord) (a b : Word) (x : Int) (hx : p.toInt + a.toInt * b.toInt = x) : macFlags f p a b = (BitVec.ofInt 64 x,
    ⟨decide (BitVec.ofInt 64 x = 0), (BitVec.ofInt 64 x).msb, f.c, saturates 64 x, f.t, f.late⟩) := by
  simp only [macFlags, Flags.nz64, hx, toInt_ofInt_ne 64 (by decide)]

theorem macsFlags_eq (p : DWord) (a b : Word) (x : Int) (hx : p.toInt + a.toInt * b.toInt = x) :
    macsFlags f p a b = (BitVec.ofInt 64 (saturated 64 x),
      ⟨decide (BitVec.ofInt 64 (saturated 64 x) = 0), (BitVec.ofInt 64 (saturated 64 x)).msb, f.c, saturates 64 x, f.t, f.late⟩) := by
  simp only [macsFlags, Flags.nz64, hx, satS_eq_saturated, saturated_ne]

/-- LUI: the immediate times 2¹⁴ (Table 5.4). -/
theorem lui_value (imm : BitVec 18) : (imm.setWidth 32 <<< 14 : Word) = BitVec.ofNat 32 (imm.toNat * 2 ^ 14) := by
  apply BitVec.eq_of_toNat_eq
  simp [BitVec.toNat_shiftLeft, Nat.shiftLeft_eq]

end Sys2Proof.Machine
end

section
/-! PROOFS. The data instructions (R117, R118). -/
namespace Sys2Proof.Proofs

open Sys2Proof.Machine

/-- Settles O8: each instruction has the form of one of the lemmas on operand forms, with the value and flags of its flag computation. -/
theorem dataInstructions : Obligations.DataInstructions := by
  unfold Obligations.DataInstructions
  intro c rd ra rb imm s k a b sx zx logic add shl shr sar sat pair
  have amount : b.toNat % 64 < 64 := Nat.mod_lt _ (by decide)
  refine ⟨fun h => ⟨?add, ?sub, ?and, ?or, ?xor, ?shl, ?shr, ?sar, ?mul, ?mulq⟩,
    fun h => ⟨?addi, ?andi, ?ori, ?xori, fun hi => ⟨?shli, ?shri, ?sari⟩⟩, fun h => ?lui, fun h heven => ⟨?mull, ?mac, ?macs⟩,
    fun h heven hi => execExtq_wrote h heven hi ((extqFlags_eq ..).trans (satFlags_eq ..))⟩
  all_goals apply congrArg Host.Outcome.next
  case add => exact aluA_wrote h (addFlags_eq ..)
  case sub => exact aluA_wrote h (subFlags_eq ..)
  case and | or | xor => exact aluA_wrote h (logicFlags_eq ..)
  case shl => exact aluA_wrote h (shlFlags_eq ..)
  case shr => exact aluA_wrote h (shrFlags_eq _ _ _ amount)
  case sar => exact aluA_wrote h (sarFlags_eq _ _ _ amount)
  case mul => exact aluA_wrote h (logicFlags_eq ..)
  case mulq => exact aluA_wrote h ((mulqFlags_eq ..).trans (satFlags_eq ..))
  case addi => exact aluB_wrote h (addFlags_eq ..)
  case andi | ori | xori => exact aluB_wrote h (logicFlags_eq ..)
  case shli => exact aluShift_wrote h hi (shlFlags_eq ..)
  case shri => exact aluShift_wrote h hi (shrFlags_eq _ _ _ (by omega))
  case sari => exact aluShift_wrote h hi (sarFlags_eq _ _ _ (by omega))
  case lui => rw [← lui_value]; exact plain_setReg (h.mono (by simp)) rd _
  case mull => exact aluMac_wrote h heven (pairFlags_eq ..)
  case mac => exact aluMac_wrote h heven (macFlags_eq _ _ _ _ _ rfl)
  case macs => exact aluMac_wrote h heven (macsFlags_eq _ _ _ _ _ rfl)

end Sys2Proof.Proofs
end

section
/-! SUPPORT. The conditions and targets of branches, and the flags of a compare (Table 5.5, R119). -/
namespace Sys2Proof.Machine

/-- The flags of a compare: Z says that the operands are equal. -/
theorem subFlags_compare (f : Flags) (a b : Word) : subFlags f a b = (a - b,
    ⟨decide (a = b), (a - b).msb, decide (b.toNat ≤ a.toNat), decide (a.toInt - b.toInt ≠ (a - b).toInt), f.t, f.late⟩) := by
  have hzero : a - b = 0 ↔ a = b := by rw [BitVec.sub_eq_iff_eq_add, BitVec.ofNat_eq_ofNat, BitVec.zero_add]
  rw [subFlags_eq, decide_eq_decide.2 hzero]

/-- The conditions of Table 5.5, in its order. -/
theorem condHolds_eq (f : Flags) (cond : BitVec 4) :
    condHolds f cond = [f.z, !f.z, f.c, !f.c, f.n, !f.n, f.v, !f.v, f.c && !f.z, !f.c || f.z, f.n == f.v, f.n != f.v,
      !f.z && (f.n == f.v), f.z || (f.n != f.v), true, f.late].getD cond.toNat true := by
  have hlt := cond.isLt
  unfold condHolds
  generalize cond.toNat = n at *
  match n, hlt with
  | 0, _ | 1, _ | 2, _ | 3, _ | 4, _ | 5, _ | 6, _ | 7, _ | 8, _ | 9, _ | 10, _ | 11, _ | 12, _ | 13, _ | 14, _ | 15, _ => rfl
  | n + 16, h => exact absurd h (by omega)

theorem branchTarget_eq (pc : Word) (off : BitVec 22) : branchTarget pc off = pc + BitVec.ofInt 32 (4 * off.toInt) := by
  rw [BitVec.ofInt_mul]
  rfl

end Sys2Proof.Machine
end

section
/-! PROOFS. The compares and branches (R119). -/
namespace Sys2Proof.Proofs

open Sys2Proof.Machine

/-- Settles O9: a compare writes the flags of a subtraction, a branch changes the PC alone, and a JR to a misaligned address is a trap. -/
theorem compareAndBranch : Obligations.CompareAndBranch := by
  unfold Obligations.CompareAndBranch
  intro c rd ra rb imm cond off s k a cmp taken there went
  refine ⟨fun h => ?cmp, fun h => ?cmpi, fun h => ?bcc, fun h => ?bl, fun h haligned => ?jr, fun h ht hmis => ?jrTraps⟩
  all_goals apply congrArg Host.Outcome.next
  case cmp => exact plain_flags h (φ := fun k => subFlags k.f (k.reg ra) (k.reg rb)) (subFlags_compare ..)
  case cmpi => exact plain_flags h (φ := fun k => subFlags k.f (k.reg ra) (imm.signExtend 32)) (subFlags_compare ..)
  case bcc =>
    refine (plain_fetched h _).trans (stepped_updCore ?_ h.step_off)
    simp only [condHolds_eq, branchTarget_eq]
    rfl
  case bl =>
    refine (plain_fetched h _).trans (stepped_updCore ?_ ((setReg_step ..).trans h.step_off))
    rw [setReg_entryWait, branchTarget_eq]
  case jr =>
    refine (plain_fetched h _).trans ?_
    rw [if_pos (by rw [fetched_reg]; exact haligned)]
    exact stepped_updCore rfl h.step_off
  case jrTraps =>
    refine (plain_fetched h _).trans ?_
    rw [if_neg (by rw [fetched_reg]; exact hmis), fetched_reg, fetched_pc]
    exact stepped_syncTrap .refl h.running h.step_off ht 4 a 0

end Sys2Proof.Proofs
end

section
/-! SUPPORT. The access of a core to its banks: what an access that the bank refuses, misaligned or of wrong parity does, what a load reads
and what a store leaves (R120, R122, R133, R136, R254, R259). -/
namespace Sys2Proof.Machine

open Host (Outcome)

variable {c : CoreId} {s t : State}

/-! ### Bytes of a word -/

theorem leBytes_length (n v : Nat) : (leBytes n v).length = n := by
  induction n generalizing v with
  | zero => rfl
  | succ n ih => rw [leBytes, List.length_cons, ih]

/-- Byte i of a number has weight 2⁸ⁱ (R111). -/
theorem leBytes_get (n v i : Nat) (h : i < (leBytes n v).length) : (leBytes n v)[i] = BitVec.ofNat 8 (v / 2 ^ (8 * i)) := by
  induction n generalizing v i with
  | zero => simp [leBytes] at h
  | succ n ih =>
    cases i with
    | zero =>
      apply BitVec.eq_of_toNat_eq
      simp [leBytes]
    | succ i =>
      simp only [leBytes, List.getElem_cons_succ]
      rw [ih, Nat.div_div_eq_div_mul, show 8 * (i + 1) = 8 + 8 * i by omega, Nat.pow_add]

/-- The first byte of a word stands in its low bits, and the others above it (R111). -/
theorem ofNat_leNat_cons (b : Byte) (bs : Bytes) :
    BitVec.ofNat 32 (leNat (b :: bs)) = b.setWidth 32 ||| BitVec.ofNat 32 (leNat bs) <<< 8 := by
  have hor : leNat (b :: bs) = b.toNat ||| 2 ^ 8 * leNat bs := by
    rw [leNat, Nat.or_comm, ← Nat.two_pow_add_eq_or_of_lt b.isLt, Nat.add_comm]
  have hshift : BitVec.ofNat 32 (2 ^ 8 * leNat bs) = BitVec.ofNat 32 (leNat bs) <<< 8 := by
    apply BitVec.eq_of_toNat_eq
    simp only [BitVec.toNat_ofNat, BitVec.toNat_shiftLeft, Nat.shiftLeft_eq]
    omega
  rw [hor, BitVec.ofNat_or, hshift, BitVec.ofNat_toNat]

/-- A word loaded from a bank holds its four bytes, the first lowest (R111, R120). -/
theorem loadBytes_word (a : Nat) : BitVec.ofNat 32 (leNat (s.loadBytes a 4)) =
    (s.byteAt a).setWidth 32 ||| (s.byteAt (a + 1)).setWidth 32 <<< 8 ||| (s.byteAt (a + 2)).setWidth 32 <<< 16 |||
      (s.byteAt (a + 3)).setWidth 32 <<< 24 := by
  show BitVec.ofNat 32 (leNat [s.byteAt a, s.byteAt (a + 1), s.byteAt (a + 2), s.byteAt (a + 3)]) = _
  simp only [ofNat_leNat_cons, BitVec.shiftLeft_or_distrib, ← BitVec.shiftLeft_add, BitVec.or_assoc]
  simp [leNat]

/-- A byte loaded from a bank, read in any width, is its one byte (R120). -/
theorem loadBytes_byte (a w : Nat) : BitVec.ofNat w (leNat (s.loadBytes a 1)) = (s.byteAt a).setWidth w := by
  simp [State.loadBytes, State.byteAt, sgets, leNat]

/-! ### What the bank raises -/

/-- The event of a fault comes to a core whether its fetch is done or not. -/
theorem record_fetched (code unit data : Nat) : record code unit data (s.fetched c) = (record code unit data s).fetched c := by
  have hcores : (modAt s.cores c fun k => { k with entryWait := false }).map (fun k => { k with events := setBit k.events 23 true }) =
      modAt (s.cores.map fun k => { k with events := setBit k.events 23 true }) c fun k => { k with entryWait := false } := by
    simp [modAt, Vector.map_set]
  simp only [record, raiseAll, State.fetched, State.updCore, hcores]

theorem countUp_fetched (a lo n : Nat) : (s.fetched c).countUp a lo n = (s.countUp a lo n).fetched c := rfl
theorem setWord_fetched (a : Nat) (w : Word) : (s.fetched c).setWord a w = (s.setWord a w).fetched c := rfl

theorem bankRefused_fetched (r a : Nat) : bankRefused r a (s.fetched c) = (bankRefused r a s).fetched c := by
  unfold bankRefused
  cases bankOf a with
  | none => rfl
  | some b => simp only [countUp_fetched, record_fetched]

theorem bankParity_fetched (r a : Nat) : bankParity r a (s.fetched c) = (bankParity r a s).fetched c := by
  unfold bankParity
  dsimp only
  rw [countUp_fetched, setWord_fetched, record_fetched]

/-- A change that leaves the cores leaves a core as it is but for its events. -/
theorem SameButEvents.of_cores (h : t.cores = s.cores) : SameButEvents c s t := ⟨(s.core c).events, by simp only [State.core, h]⟩

theorem sameButEvents_bankRefused (r a : Nat) : SameButEvents c s (bankRefused r a s) := by
  unfold bankRefused
  cases bankOf a with
  | none => exact .refl
  | some b => exact (SameButEvents.of_cores (setWord_cores ..)).record ..

theorem sameButEvents_bankParity (r a : Nat) : SameButEvents c s (bankParity r a s) :=
  (SameButEvents.of_cores ((setWord_cores ..).trans (setWord_cores ..))).record ..

/-! ### An access and its traps -/

section Access
variable {uses : List Reg} {at_ : Word} {n : Nat} {reads : Bool} {body : Bytes → State → State}

/-- The three ways in which an access of an instruction traps, in the order of R136. -/
theorem bankAccess_traps (h : Runs c uses s) {out : Outcome State Fault Refusal}
    (hout : out = .next (stepped c (bankAccess c at_ n reads body (s.fetched c)))) (ht : (s.core c).f.t = false) :
    (at_.toNat % n ≠ 0 → out = .next (s.trapped c 4 at_ 0)) ∧
    (at_.toNat % n = 0 → s.owns c at_.toNat = false → out = .next ((bankRefused c at_.toNat s).trapped c 2 at_ 0)) ∧
    (∀ p, reads = true → at_.toNat % n = 0 → s.owns c at_.toNat = true → s.parityError at_.toNat n = some p →
      out = .next ((bankParity c p s).trapped c 3 at_ 0)) := by
  rw [hout]
  unfold bankAccess
  rw [fetched_pc]
  refine ⟨fun hmis => congrArg _ ?misaligned, fun hal howns => congrArg _ ?refused, fun p hr hal howns hp => congrArg _ ?parity⟩
  case misaligned =>
    rw [if_pos hmis]
    exact stepped_syncTrap .refl h.running h.step_off ht 4 at_ 0
  case refused =>
    have howns' : (s.fetched c).owns c at_.toNat = false := howns
    rw [if_neg (not_not_intro hal), howns', bankRefused_fetched]
    exact stepped_syncTrap (sameButEvents_bankRefused ..) h.running h.step_off ht 2 at_ 0
  case parity =>
    have howns' : (s.fetched c).owns c at_.toNat = true := howns
    rw [if_neg (not_not_intro hal), if_pos howns', if_pos hr, bankRead_parity c _ n p howns' hp, bankParity_fetched]
    exact stepped_syncTrap (sameButEvents_bankParity ..) h.running h.step_off ht 3 at_ 0

/-- A read of the core's own bank, of right parity, gives its bytes. -/
theorem bankAccess_reads (hal : at_.toNat % n = 0) (howns : s.owns c at_.toNat = true) (hp : s.parityError at_.toNat n = none) :
    bankAccess c at_ n true body (s.fetched c) = body (s.loadBytes at_.toNat n) (s.fetched c) := by
  have howns' : (s.fetched c).owns c at_.toNat = true := howns
  unfold bankAccess
  rw [if_neg (not_not_intro hal), if_pos howns', if_pos rfl, bankRead_ok c _ n howns' hp]
  rfl

/-- A write of the core's own bank takes place. -/
theorem bankAccess_writes (hal : at_.toNat % n = 0) (howns : s.owns c at_.toNat = true) :
    bankAccess c at_ n false body (s.fetched c) = body [] (s.fetched c) := by
  have howns' : (s.fetched c).owns c at_.toNat = true := howns
  simp [bankAccess, hal, howns']

end Access

/-! ### The bank instructions on the state of their fetch -/

section Instructions
variable {op : Nat} {rd ra rb : Reg} {imm : BitVec 18} {n : Nat}

theorem bankLoad_runs (h : Runs c [rd, ra] s) (f : Bytes → Word) : bankLoad op c rd ra imm n f s =
    stepped c (bankAccess c (dataAddr (s.core c) ra imm) n true (fun d => finish c fun k => k.setReg rd (f d)) (s.fetched c)) := by
  unfold bankLoad dataAddr
  rw [plain_fetched h, fetched_reg]

theorem bankStore_runs (h : Runs c [rd, ra] s) : bankStore op c rd ra imm n s =
    stepped c (bankAccess c (dataAddr (s.core c) ra imm) n false (fun _ t => finish c id
      (t.storeBytes (dataAddr (s.core c) ra imm).toNat (leBytes n ((s.core c).reg rd).toNat))) (s.fetched c)) := by
  unfold bankStore dataAddr
  rw [plain_fetched h]
  simp only [fetched_reg]

theorem bankModify_runs (h : Runs c [rd, ra, rb] s) (f : Word → Word → Word) : bankModify op c rd ra rb f s =
    stepped c (bankAccess c ((s.core c).reg ra) 4 true (fun d t => finish c (fun k => k.setReg rd (BitVec.ofNat 32 (leNat d)))
      (t.storeBytes ((s.core c).reg ra).toNat (leBytes 4 (f (BitVec.ofNat 32 (leNat d)) ((s.core c).reg rb)).toNat))) (s.fetched c)) := by
  unfold bankModify
  rw [plain_fetched h]
  simp only [fetched_reg]

/-- A load of the core's own bank writes its register and nothing else (R120). -/
theorem bankLoad_did (h : Runs c [rd, ra] s) {f : Bytes → Word} (hal : (dataAddr (s.core c) ra imm).toNat % n = 0)
    (howns : s.owns c (dataAddr (s.core c) ra imm).toNat = true) (hp : s.parityError (dataAddr (s.core c) ra imm).toNat n = none)
    {v : Word} (hv : f (s.loadBytes (dataAddr (s.core c) ra imm).toNat n) = v) :
    bankLoad op c rd ra imm n f s = s.did c fun k => k.setReg rd v := by
  rw [bankLoad_runs h, bankAccess_reads hal howns hp, hv]
  exact stepped_finish (setReg_entryWait ..) (setReg_pc ..) ((setReg_step ..).trans h.step_off)

/-- A change of the core after a store. -/
theorem stepped_finish_storeBytes {f : Core → Core} (a : Nat) (bs : Bytes)
    (hf : f { s.core c with entryWait := false } = { f (s.core c) with entryWait := false })
    (hpc : (f (s.core c)).pc = (s.core c).pc) (hstep : (f (s.core c)).step = false) :
    stepped c (finish c f ((s.fetched c).storeBytes a bs)) = (s.did c f).storeBytes a bs :=
  stepped_finish (s := s.storeBytes a bs) hf hpc hstep

/-- A store to the core's own bank stores the low bytes of its register (R120). -/
theorem bankStore_did (h : Runs c [rd, ra] s) (hal : (dataAddr (s.core c) ra imm).toNat % n = 0)
    (howns : s.owns c (dataAddr (s.core c) ra imm).toNat = true) : bankStore op c rd ra imm n s =
      (s.did c id).storeBytes (dataAddr (s.core c) ra imm).toNat (leBytes n ((s.core c).reg rd).toNat) := by
  rw [bankStore_runs h, bankAccess_writes hal howns]
  exact stepped_finish_storeBytes _ _ rfl rfl h.step_off

/-- An indivisible access to the core's own bank takes the old word and stores the new one (R122). -/
theorem bankModify_did (h : Runs c [rd, ra, rb] s) (f : Word → Word → Word) (hal : ((s.core c).reg ra).toNat % 4 = 0)
    (howns : s.owns c ((s.core c).reg ra).toNat = true) (hp : s.parityError ((s.core c).reg ra).toNat 4 = none)
    {old : Word} (hold : BitVec.ofNat 32 (leNat (s.loadBytes ((s.core c).reg ra).toNat 4)) = old) : bankModify op c rd ra rb f s =
      (s.did c fun k => k.setReg rd old).storeBytes ((s.core c).reg ra).toNat (leBytes 4 (f old ((s.core c).reg rb)).toNat) := by
  rw [bankModify_runs h, bankAccess_reads hal howns hp, hold]
  exact stepped_finish_storeBytes _ _ (setReg_entryWait ..) (setReg_pc ..) ((setReg_step ..).trans h.step_off)

end Instructions

/-! ### What a store leaves -/

/-- Bytes with wrong parity after a store: those outside it (R259). -/
theorem badParity_storeBytes (a b : Nat) (bs : Bytes) : (s.storeBytes a bs).badParity.contains b =
    (s.badParity.contains b && (decide (b < a) || decide (a + bs.length ≤ b))) := by
  rw [Bool.eq_iff_iff]
  simp [State.storeBytes]

/-- An instruction that stores the low n bytes of a value and changes its core by f: those bytes, with right parity, and every other byte,
the words, DRAM and the fault record as before. -/
theorem did_storeBytes (f : Core → Core) (a n : Nat) (v : Word) (hwf : swf cellDefault s.cells = true)
    {out : Outcome State Fault Refusal} (hout : out = .next ((s.did c f).storeBytes a (leBytes n v.toNat))) :
    ∃ t, out = .next t ∧
      (∀ i < n, t.byteAt (a + i) = BitVec.ofNat 8 (v.toNat / 2 ^ (8 * i))) ∧
      (∀ b, b < a ∨ a + n ≤ b → t.byteAt b = s.byteAt b) ∧
      (∀ b, t.badParity.contains b = (s.badParity.contains b && (decide (b < a) || decide (a + n ≤ b)))) ∧
      t.cores = (s.did c f).cores ∧ t.words = s.words ∧ t.dram = s.dram ∧ t.faults = s.faults := by
  refine ⟨_, hout, fun i hi => ?stored, fun b hb => ?others, fun b => ?parity, rfl, rfl, rfl, rfl⟩
  case stored => exact (sget_sputs_in cellDefault _ s.cells a i hwf (by rwa [leBytes_length])).trans (leBytes_get ..)
  case others => exact byteAt_storeBytes_out (s.did c f) a b _ (by rwa [leBytes_length])
  case parity => rw [badParity_storeBytes, leBytes_length]; rfl

end Sys2Proof.Machine
end

section
/-! PROOFS. The bank instructions (R120, R122, R133, R136). -/
namespace Sys2Proof.Proofs

open Sys2Proof.Machine

/-- Settles O10: the traps are those of any bank access; a load is its bytes in a register, a store and an indivisible access are the
bytes that they store. -/
theorem bankAccess : Obligations.BankAccess := by
  unfold Obligations.BankAccess
  intro c rd ra rb imm s k addr word stored traps
  refine ⟨fun h => ⟨?ldwTraps, ?ldbTraps, ?ldbuTraps, ?stwTraps, ?stbTraps, fun howns hwf => ⟨fun hal hp => ?ldw, fun hp => ⟨?ldb, ?ldbu⟩,
    fun hal => ?stw, ?stb⟩⟩, fun h => ⟨?swapTraps, ?addmTraps, fun hal howns hp hwf => ⟨?swap, ?addm⟩⟩⟩
  case ldwTraps | ldbTraps | ldbuTraps => exact bankAccess_traps h (congrArg Host.Outcome.next (bankLoad_runs h _))
  case stwTraps | stbTraps => exact bankAccess_traps h (congrArg Host.Outcome.next (bankStore_runs h))
  case swapTraps | addmTraps => exact bankAccess_traps h (congrArg Host.Outcome.next (bankModify_runs h _))
  case ldw => exact congrArg Host.Outcome.next (bankLoad_did h hal howns hp (loadBytes_word _))
  case ldb => exact congrArg Host.Outcome.next (bankLoad_did h (Nat.mod_one _) howns hp
    (congrArg (BitVec.signExtend 32) ((loadBytes_byte _ 8).trans (BitVec.setWidth_eq _))))
  case ldbu => exact congrArg Host.Outcome.next (bankLoad_did h (Nat.mod_one _) howns hp (loadBytes_byte ..))
  case stw => exact did_storeBytes id _ _ _ hwf (congrArg Host.Outcome.next (bankStore_did h hal howns))
  case stb => exact did_storeBytes id _ _ _ hwf (congrArg Host.Outcome.next (bankStore_did h (Nat.mod_one _) howns))
  case swap => exact did_storeBytes _ _ _ _ hwf (congrArg Host.Outcome.next (bankModify_did h _ hal howns hp (loadBytes_word _)))
  case addm => exact did_storeBytes _ _ _ _ hwf (congrArg Host.Outcome.next (bankModify_did h _ hal howns hp (loadBytes_word _)))

end Sys2Proof.Proofs
end

section
/-! SUPPORT. A control word in its fields: the masks of a word of one field, what a PUT brings to the bits of the fields and what they hold
after it (R7, R9, R544), and a word written as it stands. -/
namespace Sys2Proof.Machine

variable {addr : Nat} {s : State}

/-! ### A word of one field -/

/-- The bits of a word of one field with an access code: the field's where its access in the present state has it. -/
theorem maskNow_single {f : Field} (p : Access → Bool) (h : fieldsAt addr = [f]) :
    maskNow p addr s = if p (accessNow addr s f) then BitVec.ofNat 32 f.mask else 0 := by
  simp only [maskNow, h, List.map, maskOf, Nat.or_zero]
  split <;> rfl

/-! ### The bits of a PUT -/

/-- The bits that a PUT brings: the operand's in the fields that it writes, as they stand elsewhere (R7, R544). -/
theorem getLsbD_operand_put (val : Word) (i : Nat) :
    (operand .put addr val s).getLsbD i =
      if (maskNow (· == .rw) addr s).getLsbD i || (maskNow (fun a => a == .w1c || a == .wo) addr s).getLsbD i then val.getLsbD i
      else (s.word addr).getLsbD i := by
  simp only [operand, BitVec.getLsbD_or, BitVec.getLsbD_and, BitVec.getLsbD_not]
  by_cases hi : i < 32
  · cases (maskNow (· == .rw) addr s).getLsbD i <;>
      cases (maskNow (fun a => a == .w1c || a == .wo) addr s).getLsbD i <;> simp [hi]
  · simp [BitVec.getLsbD_of_ge _ _ (Nat.le_of_not_lt hi)]

/-- Two words that agree in the bits of a field agree in the field. -/
theorem bits_congr {v w : Word} {lo n : Nat} (h : ∀ i < n, bit v (lo + i) = bit w (lo + i)) : bits v lo n = bits w lo n := by
  apply Nat.eq_of_testBit_eq
  intro i
  rw [testBit_bits, testBit_bits]
  by_cases hi : i < n
  · rw [h i hi]
  · simp [hi]

/-- A stored field of what a PUT brings is that field of the operand (R7). -/
theorem bits_operand_put (val : Word) {lo n : Nat} (h : ∀ i < n, (maskNow (· == .rw) addr s).getLsbD (lo + i) = true) :
    bits (operand .put addr val s) lo n = bits val lo n :=
  bits_congr fun i hi => by simp [bit, getLsbD_operand_put, h i hi]

/-- A stored field takes that field of the value written (Table 0.4). -/
theorem bits_storedWord (v : Word) {lo n : Nat} (h : ∀ i < n, (maskNow (· == .rw) addr s).getLsbD (lo + i) = true) :
    bits (storedWord addr v s) lo n = bits v lo n :=
  bits_congr fun i hi => by simp [bit, storedWord, h i hi]

/-- A write to a word that has neither stored nor W1C fields stores nothing. -/
theorem storedWord_unstored (v : Word) (hrw : maskNow (· == .rw) addr s = 0) (hw1c : maskNow (· == .w1c) addr s = 0) :
    storedWord addr v s = s.word addr := by
  simp only [storedWord, hrw, hw1c, BitVec.ofNat_eq_ofNat, BitVec.and_zero, BitVec.zero_and, BitVec.not_zero, BitVec.and_allOnes,
    BitVec.zero_or]

/-! ### A word written as it stands -/

/-- A canonical store does not change where a key takes the value that it has. -/
theorem sput_sget {α : Type} [DecidableEq α] (dflt : Nat → α) (l : List (Nat × α)) (a : Nat) (h : swf dflt l = true) :
    sput dflt l a (sget dflt l a) = l := by
  induction l with
  | nil => simp [sput, sget]
  | cons e r ih =>
    obtain ⟨k, v⟩ := e
    have hform := h
    simp only [swf, swfFrom, Bool.and_eq_true, decide_eq_true_eq] at hform
    obtain ⟨⟨-, hv⟩, hr⟩ := hform
    rcases Nat.lt_trichotomy a k with hlt | rfl | hgt
    · have hbelow : sget dflt ((k, v) :: r) a = dflt a :=
        sget_below dflt _ a a (by simp [swfFrom, hlt, hv, hr]) (Nat.le_refl a)
      simp [sput, hlt, hbelow]
    · simp [sput, sget, hv]
    · have hne : k ≠ a := Nat.ne_of_lt hgt
      simp [sput, sget, hne, hne.symm, Nat.not_lt.2 (Nat.le_of_lt hgt), ih (swfFrom_none _ _ _ hr)]

/-- A control word written as it stands changes nothing. -/
theorem setWord_word (h : Memory.wf s = true) : s.setWord addr (s.word addr) = s := by
  simp only [State.setWord, State.word, sput_sget resetWord _ _ (wf_words s h)]

end Sys2Proof.Machine
end

section
/-! SUPPORT. The words of the faults block: the copy of an entry in FAULT_ENTRY0 to 3, and the writes of FAULT_SEL and FAULT_CLEAR
(R534, R535, R537). -/
namespace Sys2Proof.Machine

variable {c : CoreId} {s : State}

/-! ### The copy of an entry -/

/-- Words 3 and 2 of an entry are the high and the low half of its time (R535). -/
theorem entryWord_time (e : FaultEntry) : entryWord (some e) 3 ++ entryWord (some e) 2 = e.time := by
  simp only [entryWord]
  apply BitVec.eq_of_getLsbD_eq
  intro i hi
  rw [BitVec.getLsbD_append]
  by_cases h : i < 32
  · simp [h]
  · simp [h, show i - 32 < 32 by omega, show 32 + (i - 32) = i by omega]

/-- FAULT_ENTRY0 to 3 hold the words of the entry copied (R537). -/
theorem word_copyEntry (i : Nat) (h : Memory.wf s = true) :
    (copyEntry i s).word 0x6404 = entryWord (faultAt i s) 0 ∧ (copyEntry i s).word 0x6405 = entryWord (faultAt i s) 1 ∧
      (copyEntry i s).word 0x6406 = entryWord (faultAt i s) 2 ∧ (copyEntry i s).word 0x6407 = entryWord (faultAt i s) 3 := by
  have h0 := wf_setWord s 0x6404 (entryWord (faultAt i s) 0) h
  have h1 := wf_setWord _ 0x6405 (entryWord (faultAt i s) 1) h0
  have h2 := wf_setWord _ 0x6406 (entryWord (faultAt i s) 2) h1
  simp [copyEntry, word_setWord_same, word_setWord_ne, h, h0, h1, h2]

/-- The copy leaves the other words. -/
theorem word_copyEntry_out (i a : Nat) (h : a < 0x6404 ∨ 0x6407 < a) : (copyEntry i s).word a = s.word a := by
  have h0 : 0x6404 ≠ a := by omega
  have h1 : 0x6405 ≠ a := by omega
  have h2 : 0x6406 ≠ a := by omega
  have h3 : 0x6407 ≠ a := by omega
  simp [copyEntry, word_setWord_ne, *]

/-- The entry that a byte names lies so far below the newest (R534). -/
theorem faultAt_byte (index : Byte) : faultAt index.toNat s = s.faults.ring[(s.faults.head + 256 - index.toNat) % 256]? := by
  rw [faultAt, Nat.mod_eq_of_lt index.isLt]

/-! ### FAULT_SEL and FAULT_CLEAR -/

theorem Writes.wf {addr : Nat} (h : Writes c addr s) : Memory.wf s = true := h.2.2.2

/-- FAULT_SEL is one stored byte. -/
theorem maskNow_faultSel (p : Access → Bool) : maskNow p 0x6403 s = if p .rw then 0xFF else 0 :=
  maskNow_single p (f := rw 0 8) rfl

/-- FAULT_CLEAR is one bit that acts and is not stored. -/
theorem maskNow_faultClear (p : Access → Bool) : maskNow p 0x6408 s = if p .wo then 1 else 0 :=
  maskNow_single p (f := wo 0 1) rfl

/-- The bits of FAULT_SEL that a write stores. -/
theorem faultSel_stored : ∀ i < 8, (maskNow (· == .rw) 0x6403 s).getLsbD (0 + i) = true := by
  rw [maskNow_faultSel]
  decide

/-- A write of FAULT_SEL stores the index and copies the entry that it names (R537). -/
theorem execFaultSel_copies (h : Writes c 0x6403 s) (index : Byte) :
    ∃ v : Word, bits v 0 8 = index.toNat ∧ execFaultSel c index s = .next (copyEntry index.toNat (s.setWord 0x6403 v)) := by
  have hindex : bits (index.setWidth 32 : Word) 0 8 = index.toNat := by
    have := index.isLt
    simp [bits]
    omega
  have hcopied : bits (operand .put 0x6403 (index.setWidth 32) s) 0 8 = index.toNat :=
    (bits_operand_put _ faultSel_stored).trans hindex
  refine ⟨storedWord 0x6403 (operand .put 0x6403 (index.setWidth 32) s) s, (bits_storedWord _ faultSel_stored).trans hcopied,
    congrArg Host.Outcome.next ?_⟩
  rw [← hcopied]
  exact coreWriteBy_accepted _ c 0x6403 _ _ _ h (by rw [maskNow_faultSel]; decide) rfl (trapReply_ok ..)

/-- A write of FAULT_CLEAR clears the record and stores nothing (R534). -/
theorem execFaultClear_clears (h : Writes c 0x6408 s) : execFaultClear c s = .next (clearFaults s) := by
  have hkept : s.setWord 0x6408 (storedWord 0x6408 (operand .put 0x6408 1 s) s) = s := by
    rw [storedWord_unstored _ (maskNow_faultClear _) (maskNow_faultClear _), setWord_word h.wf]
  have hacts : bit (operand .put 0x6408 1 s) 0 = true := by
    simp [bit, getLsbD_operand_put, maskNow_faultClear]
  refine congrArg Host.Outcome.next ((coreWriteBy_accepted _ c 0x6408 1 _ _ h (by rw [maskNow_faultClear]; decide) rfl
    (trapReply_ok ..)).trans ?_)
  rw [hkept, hacts, onlyIf_true]

end Sys2Proof.Machine
end

section
/-! PROOFS. The words of the fault record (R534, R535, R537). -/
namespace Sys2Proof.Proofs

open Sys2Proof.Machine

/-- Settles O60: a write of FAULT_SEL is the copy of the entry that it names, a recorded fault writes no control word, and a write of
FAULT_CLEAR is the cleared record. -/
theorem faultRecordWords : Obligations.FaultRecordWords := by
  unfold Obligations.FaultRecordWords
  intro c index code unit data s
  refine ⟨fun h => ?sel, fun h => ⟨_, execFaultClear_clears h, rfl, rfl, rfl, rfl, rfl, rfl⟩⟩
  case sel =>
    obtain ⟨v, hv, hexec⟩ := execFaultSel_copies h index
    have hwf := h.wf
    obtain ⟨h0, h1, h2, h3⟩ := word_copyEntry index.toNat (wf_setWord s 0x6403 v hwf)
    refine ⟨_, hexec, ?index, rfl, rfl, fun a ha => ?others, ?entry, fun a => record_word ..⟩
    case index => rw [State.field, word_copyEntry_out _ _ (by omega), word_setWord_same _ _ _ hwf, hv]
    case others => rw [word_copyEntry_out _ _ (by omega), word_setWord_ne _ _ _ _ (by omega)]
    case entry =>
      rw [h0, h1, h2, h3, faultAt_byte, setWord_faults]
      cases s.faults.ring[(s.faults.head + 256 - index.toNat) % 256]? with
      | none => exact ⟨rfl, rfl, rfl, rfl⟩
      | some e => exact ⟨rfl, rfl, entryWord_time e⟩

end Sys2Proof.Proofs
end
